-- ==== Sys2Proof/Word.lean ====
section
/-!
DEFINITION. The word and byte types and the sparse map type of the model.
-/
namespace Sys2Proof

/-- A 32-bit register or instruction word. -/
abbrev Word := BitVec 32
/-- A byte of memory. -/
abbrev Byte := BitVec 8
/-- A sparse map: keys strictly rising, no entry equal to the map's default (see `Machine.SMap`). -/
abbrev SMap (α : Type) := List (Nat × α)

end Sys2Proof
end

