-- ==== Sys2Proof/Syntax.lean ====
section
/-!
DEFINITION. The syntax of the block's commands: the unit numbers a command may name, the packets of the mesh,
and the one inductive of commands.
-/
namespace Sys2Proof

/-- Half number (R2, R3). -/
abbrev HalfId := Fin 2
/-- Field of the module: 80 × half + field within half (R5, R33). -/
abbrev FieldId := Fin 160
/-- Sheaf of the module: 36 × field + sheaf within field (R5, R33). -/
abbrev SheafId := Fin 5760
/-- Ear of the module: 16 × sheaf + ear within sheaf (R5, R33). -/
abbrev EarId := Fin 92160
/-- Logical grain of the module: 16 × ear + grain within ear (R5, R33); also a router. -/
abbrev GrainId := Fin 1474560
/-- Partition number (R48). -/
abbrev PartId := Fin 64
/-- Bin B0 to B15 (R30). -/
abbrev BinId := Fin 16
/-- Flue bridge F0 to F7 (R30). -/
abbrev BridgeId := Fin 8
/-- Port die P0 to P5, with Draught port of the same number (R30). -/
abbrev DieId := Fin 6
/-- Host port 0 or 1, also the Hopper request table of that port (R30). -/
abbrev HostPort := Fin 2
/-- Host function: 0 the physical function, 1 to 63 the virtual functions of partitions 1 to 63. -/
abbrev FnId := Fin 64
/-- Crib slot (R45). -/
abbrev CribId := Fin 8

/-- What issues an instruction: a grain or a sheaf's binder (R58, R112). -/
inductive Issuer where
  | grain (g : GrainId)
  | binder (sh : SheafId)
  deriving DecidableEq, Repr

/-- Who makes a register access; latches are kept per initiator (R18, R52). -/
inductive Initiator where
  | grain (g : GrainId)
  | binder (sh : SheafId)
  | sheafDma (sh : SheafId)
  | hopper (t : HostPort)
  | damper (standby : Bool)
  | host (fn : FnId) (port : HostPort)
  deriving DecidableEq, Repr

/-- What a code check finds in one codeword that is read (R259, R260, R261). -/
inductive Ecc where
  | ok
  | corrected
  | uncorrectable
  deriving DecidableEq, Repr

/-- What the code check finds at the codewords named, in the reads a command makes; a codeword not named is sound. -/
abbrev EccFinds := List (Nat × Ecc)

/-- Packet types (R278). -/
inductive PktType where
  | write | readReq | lockReq | creditReq | regReq | notify
  | ack | gone | readData | writeCredited | lockResp | creditGrant | regResp | creditRelease
  deriving DecidableEq, Repr

/-- A packet: the head flit's fields (R277) and its body rows, each with its poison mark (R274, R276). The sideband's VC and KIND
follow from the type and from a flit's place in its packet; its CHECK code is sound unless a command says otherwise (R274, R275).
`quiet` is the model's own field: the write names no tally, which no head field says (R90, R583, log 24). -/
structure Packet where
  type   : PktType
  mc     : Bool
  tag    : BitVec 6
  dst    : BitVec 21
  src    : BitVec 21
  epoch  : BitVec 9
  part   : BitVec 6
  len    : BitVec 3
  tally  : BitVec 4
  cw     : BitVec 2
  status : BitVec 2
  addr   : BitVec 48
  body   : List (BitVec 128 × Bool)
  quiet  : Bool := false
  deriving DecidableEq, Repr

/-- A packet at a router: the router it reaches and the port it came in on (0 N, 1 E, 2 S, 3 W, 4 local; R272). -/
structure Flight where
  pkt  : Packet
  at_  : GrainId
  port : Fin 5
  deriving DecidableEq, Repr

/-- What the flit check of a router finds (R275): a corrected flit, an uncorrectable body flit, an
uncorrectable head. -/
inductive LinkErr where
  | corrected
  | body (i : Fin 4)
  | head
  deriving DecidableEq, Repr

/-- Operations of a Draught transaction (R597). -/
inductive TxnOp where
  | read | write | readData | writeAck | send | sendAck | notice
  deriving DecidableEq, Repr

/-- A Draught transaction (R597): `len` is LEN, `status` is CHANNEL or STATUS, `addr` is ADDR; the body rows carry their
poison marks. -/
structure Txn where
  op     : TxnOp
  len    : Nat
  dest   : BitVec 4
  src    : BitVec 4
  tag    : BitVec 32
  part   : BitVec 6
  status : BitVec 8
  addr   : BitVec 62
  body   : List (BitVec 128 × Bool)
  deriving DecidableEq, Repr

/-- The header of a frame (R593), and whether its tag verifies. -/
structure FrameHead where
  tagOk     : Bool
  keyPhase  : Bool
  seq       : BitVec 24
  ack       : BitVec 24
  nak       : Bool
  creditReq : BitVec 16
  creditRsp : BitVec 16
  deriving DecidableEq, Repr

/-- What a partner presents at identity exchange (R600): whether its certificate and signature verify, its kind,
serial, version, port and link, initial credits, capacity in GiB; for a module its RICK_ID, COORD flag, CADENCE image
role, rick position and the number of members of its rick. -/
structure Ident where
  certOk    : Bool
  crib      : Bool
  serial    : BitVec 64
  version   : Nat
  port      : BitVec 3
  link      : BitVec 2
  creditReq : Nat
  creditRsp : Nat
  capacity  : Nat
  rickId    : BitVec 64
  coord     : Bool
  cadUp     : Bool
  position  : Option (BitVec 4)
  members   : Nat
  deriving DecidableEq, Repr

/-- One end of a link in a link-state record: port, link, the partner's serial, port and link, and the lanes (R602). -/
structure LsLink where
  port  : Nat
  link  : Nat
  peer  : BitVec 64
  pport : Nat
  plink : Nat
  lanes : Nat
  deriving DecidableEq, Repr

/-- A link-state record (R602): serial, version, the UP module links, and the COORD candidacy that the choice of R603
needs (log 26). -/
structure LsRecord where
  serial  : BitVec 64
  version : Nat
  coord   : Bool
  links   : List LsLink
  deriving DecidableEq, Repr

/-- A topology record (R603, R604): version, the serial of each position, the coordinator's position, the sweep order. -/
structure TopoRecord where
  version : Nat
  members : List (Nat × BitVec 64)
  coord   : Nat
  order   : List Nat
  deriving DecidableEq, Repr

/-- A sweep token (R611, R612): sequence number, members at its start, records by position as 64-byte numbers, the
direction (false forward, true reverse), the positions it has passed (newest first), whether it is on its way back, and
its start time. -/
structure SweepTok where
  seq     : Nat
  present : Nat
  recs    : List (Nat × BitVec 512)
  rev     : Bool
  path    : List Nat
  back    : Bool
  start   : Nat
  deriving DecidableEq, Repr

/-- A cadence word (R640): the time its frame left, the sender's state, HOPS and β in µs. -/
structure CadWord where
  time  : BitVec 64
  state : Nat
  hops  : Nat
  beta  : Nat
  deriving DecidableEq, Repr

/-- What a PTP message brings (R624, R626): a master is selected or lost, a Sync with the offset it measures in ns, a delay
response. -/
inductive PtpMsg where
  | master (selected : Bool)
  | sync (offset : Int)
  | delayResp
  deriving DecidableEq, Repr


/-- What the module measures of its supply (R682, R689): feed voltages in 0.1 V and currents in 10 mA, input power in W, bus
voltage in 10 mV and current in 0.1 A, the Ember store's voltage in mV and its gauge's energy E_g in mJ. -/
structure PowerMeter where
  voltsA : Nat
  ampsA  : Nat
  voltsB : Nat
  ampsB  : Nat
  watts  : Nat
  busV   : Nat
  busA   : Nat
  store  : Nat
  gauge  : Nat
  deriving DecidableEq, Repr

/-- What a field's sense point samples (R668): whether the sample is held; VCORE, VSRAM and VGRY in mV; the mean VCORE output less
VCORE at the sense point in 10 µV; the VSRAM current in 0.1 A; the phase currents in mA; phases that met the cycle-by-cycle limit in 3
consecutive switching cycles (R679); phases parked. -/
structure SenseSample where
  held    : Bool
  core    : Nat
  sram    : Nat
  gry     : Nat
  drop    : Int
  sramA   : Nat
  phases  : List Nat
  limited : BitVec 9
  parked  : BitVec 9
  deriving DecidableEq, Repr

/-- What the test of a field finds (R720): defective grains as physical row and column, failed sheaves of the field by their
number in it, whether the tester's stitches, the read port and loader, and the sense point passed, bins over it that failed, and
R_path measured in µΩ (R677). -/
structure FieldTest where
  defects : List (Nat × Nat) := []
  sheaves : List (Fin 36) := []
  stitch  : Bool := true
  port    : Bool := true
  power   : Bool := true
  bins    : List BinId := []
  rpath   : BitVec 16 := 0
  deriving DecidableEq, Repr

/-- A conversion of a thermal channel (R693, R709): a reading in 1/16 °C, or an open or shorted sensor. -/
inductive SensorRead where
  | reading (t : Int)
  | open_
  | short
  deriving DecidableEq, Repr

/-- The thresholds whose dwell a command ends (R695, R699, R707 to R709, R712): near band; second threshold (double refresh of
a bin, window of a Granary diode, inlet); rate clamp; sensor fault; coolant margin; coolant stop; the gap of two fields. -/
inductive Dwell where
  | near (ch : Fin 194)
  | level (ch : Fin 194)
  | rate (ch : Fin 194)
  | fault (ch : Fin 194)
  | margin
  | stop
  | gap (a b : FieldId)
  deriving DecidableEq, Repr
/-- What a register read asks for: a register's address, and which of its bytes (R17). -/
structure RegBytes where
  addr : BitVec 48
  be   : BitVec 4
  deriving DecidableEq, Repr

/-- The commands of the block: one constructor for each row of the opcode table.
The comment beside a constructor gives the table's mnemonic and its rule. -/
inductive Instr where
  /-- REGISTER_WRITE (R12). -/
  | registerWrite (ini : Initiator) (addr : BitVec 48) (be : BitVec 4) (value : Word) (hw : Word)
  /-- RC_FIELD_READ (R17). -/
  | rcFieldRead (ini : Initiator) (at_ : RegBytes) (hw : Word)
  /-- LOW_WORD_READ (R18). -/
  | lowWordRead (ini : Initiator) (at_ : RegBytes)
  /-- LOW_WORD_WRITE (R19). -/
  | lowWordWrite (ini : Initiator) (addr : BitVec 48) (value : Word)
  /-- HIGH_WORD_WRITE (R19). -/
  | highWordWrite (ini : Initiator) (addr : BitVec 48) (value : Word)
  /-- BEAT_BOUNDARY (R634). -/
  | beatBoundary
  /-- CODE_LOAD (R61). -/
  | codeLoad (ini : Initiator) (g : GrainId) (value : Word)
  /-- CODE_LOAD_DONE (R65). -/
  | codeLoadDone (g : GrainId)
  /-- GRN_RUN_START (R63). -/
  | grnRunStart (ini : Initiator) (u : Issuer) (value : Word)
  /-- GRN_RUN_HALT (R64). -/
  | grnRunHalt (ini : Initiator) (u : Issuer) (value : Word)
  /-- NOP (R77). -/
  | nop (u : Issuer)
  /-- HALT (R66). -/
  | halt (u : Issuer)
  /-- BREAK (R66). -/
  | brk (u : Issuer)
  /-- RDCYC (R785). -/
  | rdcyc (u : Issuer)
  /-- RDID (R540). -/
  | rdid (u : Issuer)
  /-- ADD (R77). -/
  | add (u : Issuer)
  /-- SUB (R77). -/
  | sub (u : Issuer)
  /-- AND (R77). -/
  | andd (u : Issuer)
  /-- OR (R77). -/
  | orr (u : Issuer)
  /-- XOR (R77). -/
  | xor (u : Issuer)
  /-- SLL (R785). -/
  | sll (u : Issuer)
  /-- SRL (R785). -/
  | srl (u : Issuer)
  /-- SRA (R785). -/
  | sra (u : Issuer)
  /-- SLT (R77). -/
  | slt (u : Issuer)
  /-- SLTU (R77). -/
  | sltu (u : Issuer)
  /-- MIN (R785). -/
  | minS (u : Issuer)
  /-- MAX (R785). -/
  | maxS (u : Issuer)
  /-- MUL (R77). -/
  | mul (u : Issuer)
  /-- MULH (R77). -/
  | mulh (u : Issuer)
  /-- CLZ (R785). -/
  | clz (u : Issuer)
  /-- POPC (R785). -/
  | popc (u : Issuer)
  /-- ADDI (R783). -/
  | addi (u : Issuer)
  /-- ANDI (R783). -/
  | andi (u : Issuer)
  /-- ORI (R783). -/
  | ori (u : Issuer)
  /-- XORI (R783). -/
  | xori (u : Issuer)
  /-- SHI (R77). -/
  | shi (u : Issuer)
  /-- LI (R77). -/
  | li (u : Issuer)
  /-- LIH (R77). -/
  | lih (u : Issuer)
  /-- PCMP (R79). -/
  | pcmp (u : Issuer)
  /-- PCMPI (R79). -/
  | pcmpi (u : Issuer)
  /-- PAND (R80). -/
  | pand (u : Issuer)
  /-- POR (R80). -/
  | por (u : Issuer)
  /-- PXOR (R80). -/
  | pxor (u : Issuer)
  /-- PANDN (R80). -/
  | pandn (u : Issuer)
  /-- P2S (R80). -/
  | p2s (u : Issuer)
  /-- S2P (R80). -/
  | s2p (u : Issuer)
  /-- BR (R784). -/
  | br (u : Issuer)
  /-- JR (R784). -/
  | jr (u : Issuer)
  /-- LOOP (R74). -/
  | loop (u : Issuer)
  /-- LW (R78). -/
  | lw (u : Issuer) (ecc : EccFinds)
  /-- LHU (R78). -/
  | lhu (u : Issuer) (ecc : EccFinds)
  /-- LBU (R78). -/
  | lbu (u : Issuer) (ecc : EccFinds)
  /-- LH (R78). -/
  | lh (u : Issuer) (ecc : EccFinds)
  /-- LB (R78). -/
  | lb (u : Issuer) (ecc : EccFinds)
  /-- SW (R783). -/
  | sw (u : Issuer)
  /-- SH (R783). -/
  | sh (u : Issuer)
  /-- SB (R783). -/
  | sb (u : Issuer)
  /-- VLD (R78). -/
  | vld (u : Issuer) (ecc : EccFinds)
  /-- VST (R783). -/
  | vst (u : Issuer)
  /-- VLDS (R226). -/
  | vlds (u : Issuer) (ecc : EccFinds)
  /-- VSTS (R226). -/
  | vsts (u : Issuer)
  /-- VLDT (R227). -/
  | vldt (u : Issuer) (ecc : EccFinds)
  /-- VADD (R786). -/
  | vadd (u : Issuer)
  /-- VSUB (R786). -/
  | vsub (u : Issuer)
  /-- VMUL (R786). -/
  | vmul (u : Issuer)
  /-- VMIN (R786). -/
  | vmin (u : Issuer)
  /-- VMAX (R786). -/
  | vmax (u : Issuer)
  /-- VABS (R786). -/
  | vabs (u : Issuer)
  /-- VNEG (R786). -/
  | vneg (u : Issuer)
  /-- VFMA (R786). -/
  | vfma (u : Issuer)
  /-- VAND (R77). -/
  | vand (u : Issuer)
  /-- VOR (R77). -/
  | vor (u : Issuer)
  /-- VXOR (R77). -/
  | vxor (u : Issuer)
  /-- VSHL (R786). -/
  | vshl (u : Issuer)
  /-- VSHR (R786). -/
  | vshr (u : Issuer)
  /-- VSAR (R786). -/
  | vsar (u : Issuer)
  /-- VCMPEQ (R77). -/
  | vcmpeq (u : Issuer)
  /-- VCMPLT (R77). -/
  | vcmplt (u : Issuer)
  /-- VCMPLE (R77). -/
  | vcmple (u : Issuer)
  /-- VSEL (R788). -/
  | vsel (u : Issuer)
  /-- VEXP2 (R164). -/
  | vexp2 (u : Issuer)
  /-- VLOG2 (R164). -/
  | vlog2 (u : Issuer)
  /-- VRCP (R164). -/
  | vrcp (u : Issuer)
  /-- VRSQRT (R164). -/
  | vrsqrt (u : Issuer)
  /-- VRSUM (R787). -/
  | vrsum (u : Issuer)
  /-- VRMAX (R787). -/
  | vrmax (u : Issuer)
  /-- VRMIN (R787). -/
  | vrmin (u : Issuer)
  /-- VBCST (R788). -/
  | vbcst (u : Issuer)
  /-- VEXT (R788). -/
  | vext (u : Issuer)
  /-- VPERM (R77). -/
  | vperm (u : Issuer)
  /-- VACC (R199). -/
  | vacc (u : Issuer)
  /-- VACCZ (R199). -/
  | vaccz (u : Issuer)
  /-- VQNT (R139). -/
  | vqnt (u : Issuer)
  /-- VDQ (R143). -/
  | vdq (u : Issuer)
  /-- VCVT (R145). -/
  | vcvt (u : Issuer)
  /-- ERGRES (R174). -/
  | ergres (u : Issuer)
  /-- VRDL (R158). -/
  | vrdl (u : Issuer)
  /-- EARSUM (R106). -/
  | earsum (u : Issuer)
  /-- EARMAX (R104). -/
  | earmax (u : Issuer)
  /-- EARMIN (R104). -/
  | earmin (u : Issuer)
  /-- EARISUM (R105). -/
  | earisum (u : Issuer)
  /-- EARBAR (R105). -/
  | earbar (u : Issuer)
  /-- EAR_OP_COMPLETE (R104). -/
  | earOpComplete (e : EarId)
  /-- WAIT (R82). -/
  | wait (u : Issuer)
  /-- WAIT_RELEASE (R83). -/
  | waitRelease (u : Issuer)
  /-- WAIT_TIMEOUT (R82). -/
  | waitTimeout (u : Issuer)
  /-- TC_RD (R239). -/
  | tcRd (u : Issuer)
  /-- TC_SET (R239). -/
  | tcSet (u : Issuer)
  /-- TC_SUB (R240). -/
  | tcSub (u : Issuer)
  /-- TC_ADD (R239). -/
  | tcAdd (u : Issuer)
  /-- TC_CLRERR (R239). -/
  | tcClrerr (u : Issuer)
  /-- CW_SET (R249). -/
  | cwSet (u : Issuer)
  /-- CW_RET (R250). -/
  | cwRet (u : Issuer)
  /-- CW_RD (R249). -/
  | cwRd (u : Issuer)
  /-- CW_CLOSE (R249). -/
  | cwClose (u : Issuer)
  /-- LOCK_TRY (R98). -/
  | lockTry (u : Issuer)
  /-- LOCK_ACQ (R100). -/
  | lockAcq (u : Issuer)
  /-- LOCK_ACQ_RETRY (R100). -/
  | lockAcqRetry (u : Issuer)
  /-- LOCK_ACQ_TIMEOUT (R100). -/
  | lockAcqTimeout (u : Issuer)
  /-- LOCK_REL (R101). -/
  | lockRel (u : Issuer)
  /-- FENCE_L (R95). -/
  | fenceL (u : Issuer)
  /-- FENCE_S (R95). -/
  | fenceS (u : Issuer)
  /-- FENCE_G (R95). -/
  | fenceG (u : Issuer)
  /-- PUT (R87). -/
  | put (u : Issuer)
  /-- NOTIFY (R89). -/
  | notify (u : Issuer)
  /-- STOKE (R114). -/
  | stoke (u : Issuer)
  /-- BEATW (R114). -/
  | beatw (u : Issuer)
  /-- GSIG_START (R114). -/
  | gsigStart (u : Issuer)
  /-- GSIG_HALT (R114). -/
  | gsigHalt (u : Issuer)
  /-- REGWR (R114). -/
  | regwr (u : Issuer)
  /-- REGRD (R114). -/
  | regrd (u : Issuer)
  /-- MXU (R188). -/
  | mxu (u : Issuer)
  /-- MXU_OP_START (R202). -/
  | mxuOpStart (g : GrainId) (ecc : EccFinds)
  /-- MXU_OP_COMPLETE (R202). -/
  | mxuOpComplete (g : GrainId)
  /-- DUTY_WINDOW_BOUNDARY (R204). -/
  | dutyWindowBoundary (m : PowerMeter) (want : List (GrainId × Nat)) (rise : List (FieldId × Nat))
  /-- DMA_READ (R90). -/
  | dmaRead (u : Issuer)
  /-- DMA_WRITE (R90). -/
  | dmaWrite (u : Issuer)
  /-- DMA_DESC_START (R94). -/
  | dmaDescStart (u : Issuer) (ecc : EccFinds)
  /-- DMA_COMPLETE (R91). -/
  | dmaComplete (u : Issuer)
  /-- EAR_POWER_WRITE (R110). -/
  | earPowerWrite (ini : Initiator) (sh : SheafId) (value : Word)
  /-- EAR_POWER_SETTLED (R110). -/
  | earPowerSettled (e : EarId)
  /-- ERGOT_POST_APPLY (R168). -/
  | ergotPostApply (part : PartId)
  /-- ERG_SR_RESEED (R178). -/
  | ergSrReseed (ini : Initiator) (part : PartId) (value : Word)
  /-- WRITE_BUFFER_ACCEPT (R231). -/
  | writeBufferAccept (g : GrainId) (credited : Bool)
  /-- PACKET_COMPLETE (R233). -/
  | packetComplete (g : GrainId) (slot : Fin 8)
  /-- WINDOW_GRANT (R246). -/
  | windowGrant (g : GrainId) (w : Fin 4)
  /-- SCRUB_READ (R262). -/
  | scrubRead (g : GrainId) (lo hi : Ecc)
  /-- SCRUB_WRITEBACK (R263). -/
  | scrubWriteback (g : GrainId)
  /-- TLY_CMD_SET (R270). -/
  | tlyCmdSet (ini : Initiator) (g : GrainId) (value : Word)
  /-- TLY_CMD_CLRERR (R270). -/
  | tlyCmdClrerr (ini : Initiator) (g : GrainId) (value : Word)
  /-- CW_CMD_SET (R271). -/
  | cwCmdSet (ini : Initiator) (g : GrainId) (value : Word)
  /-- CW_CMD_RET (R271). -/
  | cwCmdRet (ini : Initiator) (g : GrainId) (value : Word)
  /-- CW_CMD_CLOSE (R271). -/
  | cwCmdClose (ini : Initiator) (g : GrainId) (value : Word)
  /-- ABANDON_NOTICE (R242). -/
  | abandonNotice (part : PartId) (sheaves : List SheafId)
  /-- WRITE (R278). -/
  | write (f : Flight)
  /-- READ_REQ (R278). -/
  | readReq (f : Flight) (ecc : EccFinds)
  /-- LOCK_REQ (R254). -/
  | lockReq (f : Flight)
  /-- CREDIT_REQ (R247). -/
  | creditReq (f : Flight)
  /-- REG_REQ (R278). -/
  | regReq (f : Flight)
  /-- NOTIFY_PACKET (R278). -/
  | notifyPacket (f : Flight)
  /-- ACK (R279). -/
  | ack (f : Flight)
  /-- GONE (R313). -/
  | gone (f : Flight)
  /-- READ_DATA (R278). -/
  | readData (f : Flight)
  /-- WRITE_CREDITED (R248). -/
  | writeCredited (f : Flight)
  /-- LOCK_RESP (R98). -/
  | lockResp (f : Flight)
  /-- CREDIT_GRANT (R279). -/
  | creditGrant (f : Flight)
  /-- REG_RESP (R278). -/
  | regResp (f : Flight)
  /-- CREDIT_RELEASE (R280). -/
  | creditRelease (f : Flight)
  /-- MESH_LINK_UE (R275). -/
  | meshLinkUe (f : Flight) (err : LinkErr)
  /-- CREDIT_VIOLATION (R286). -/
  | creditViolation (f : Flight) (depth : Fin 5) (flit : Option (Fin 4))
  /-- FLUE_GATEWAY_WRITE (R305). -/
  | flueGatewayWrite (f : Flight)
  /-- FLUE_CREDIT_REQUEST (R306). -/
  | flueCreditRequest (b : BridgeId) (dir : Bool) (idx : Fin 512)
  /-- FLUE_CREDIT_RETRY (R306). -/
  | flueCreditRetry (b : BridgeId) (dir : Bool) (idx : Fin 512)
  /-- FLU_ROUTE_WRITE (R310). -/
  | fluRouteWrite (ini : Initiator) (b : BridgeId) (second : Bool) (value : Word)
  /-- RTR_FENCE_WRITE (R312). -/
  | rtrFenceWrite (ini : Initiator) (g : GrainId) (value : Word)
  /-- RTR_TAG_WRITE (R324). -/
  | rtrTagWrite (ini : Initiator) (g : GrainId) (tag : Fin 64) (value : Word)
  /-- HALF_DRAIN_END (R317). -/
  | halfDrainEnd (h : HalfId)
  /-- DRAIN_TIMEOUT (R317). -/
  | drainTimeout (h : HalfId)
  /-- JOB_START (R354). -/
  | jobStart (sh : SheafId) (ecc : EccFinds)
  /-- JOB_COMPLETE (R348). -/
  | jobComplete (sh : SheafId) (ecc : EccFinds)
  /-- FRAME_POOL_TIMEOUT (R361). -/
  | framePoolTimeout (sh : SheafId)
  /-- GLN_LAB_INV (R350). -/
  | glnLabInv (ini : Initiator) (sh : SheafId) (value : Word)
  /-- CHAFF_COMMIT (R362). -/
  | chaffCommit (ini : Initiator) (sh : SheafId) (value : Word)
  /-- CHAFF_ROLLBACK (R362). -/
  | chaffRollback (ini : Initiator) (sh : SheafId) (value : Word)
  /-- CHAFF_APPLY (R362). -/
  | chaffApply (sh : SheafId)
  /-- SUBMIT (R387). -/
  | submit (fn : FnId) (ring : Fin 8)
  /-- EXTEND (R388). -/
  | extend (fn : FnId) (ring : Fin 8)
  /-- CANCEL (R389). -/
  | cancel (fn : FnId) (ring : Fin 8)
  /-- RELEASE (R390). -/
  | release (fn : FnId) (ring : Fin 8)
  /-- QUERY (R385). -/
  | query (fn : FnId) (ring : Fin 8) (ok : Bool)
  /-- HOPPER_PASS_CUT (R393). -/
  | hopperPassCut (part : PartId)
  /-- DISPATCH_RECORD_WRITE (R400). -/
  | dispatchRecordWrite (part : PartId)
  /-- REPORT_POLL (R402). -/
  | reportPoll (part : PartId) (ring : Fin 16) (ecc : EccFinds)
  /-- TOKEN_REPORT (R416). -/
  | tokenReport (part : PartId) (ring : Fin 16)
  /-- PREFILL_DONE (R416). -/
  | prefillDone (part : PartId) (ring : Fin 16)
  /-- VERIFY_REPORT (R413). -/
  | verifyReport (part : PartId) (ring : Fin 16)
  /-- EXPERT_REPORT (R424). -/
  | expertReport (part : PartId) (ring : Fin 16)
  /-- DONE_REPORT (R384). -/
  | doneReport (part : PartId) (ring : Fin 16)
  /-- FAIL_REPORT (R384). -/
  | failReport (part : PartId) (ring : Fin 16)
  /-- CANCEL_ACK (R384). -/
  | cancelAck (part : PartId) (ring : Fin 16)
  /-- OUTPUT_RECORD_WRITE (R408). -/
  | outputRecordWrite (part : PartId) (ok : Bool)
  /-- NS_CREATE (R440). -/
  | nsCreate (fn : FnId) (ring : Fin 8)
  /-- NS_DESTROY (R444). -/
  | nsDestroy (fn : FnId) (ring : Fin 8)
  /-- COMMIT_BEGIN (R451). -/
  | commitBegin (fn : FnId) (ring : Fin 8) (list : Option (List Byte))
  /-- COMMIT_REPAIR_BEGIN (R452). -/
  | commitRepairBegin (fn : FnId) (ring : Fin 8)
  /-- COMMIT_DATA (R453). -/
  | commitData (fn : FnId) (ring : Fin 8) (data : Option (List Byte))
  /-- COMMIT_DATA_DONE (R453). -/
  | commitDataDone (f : FieldId) (depth : Nat) (fail : Bool)
  /-- COMMIT_SEAL (R455). -/
  | commitSeal (fn : FnId) (ring : Fin 8)
  /-- COMMIT_ABORT (R456). -/
  | commitAbort (fn : FnId) (ring : Fin 8)
  /-- COMMIT_RESUME (R462). -/
  | commitResume (fn : FnId) (ring : Fin 8)
  /-- MODEL_FREE (R456). -/
  | modelFree (fn : FnId) (ring : Fin 8)
  /-- MODEL_QUERY (R449). -/
  | modelQuery (fn : FnId) (ring : Fin 8) (ok : Bool)
  /-- MODEL_LOAD (R473). -/
  | modelLoad (fn : FnId) (ring : Fin 8) (list : Option (List (BitVec 256)))
  /-- JOURNAL_REPLAY (R460). -/
  | journalReplay
  /-- COMMIT_EXPIRY (R462). -/
  | commitExpiry (id : BitVec 32)
  /-- LOAD_DESC_START (R464). -/
  | loadDescStart (f : FieldId) (ecc : EccFinds)
  /-- LOADER_CREDIT_RETRY (R467). -/
  | loaderCreditRetry (f : FieldId)
  /-- LOAD_DESC_END (R471). -/
  | loadDescEnd (f : FieldId)
  /-- GRANARY_SCRUB_READ (R475). -/
  | granaryScrubRead (f : FieldId) (ecc : EccFinds) (most : Nat)
  /-- BLOCK_REFRESH (R477). -/
  | blockRefresh (f : FieldId) (depth : Nat) (fail : Bool)
  /-- BLOCK_ERASE (R456). -/
  | blockErase (f : FieldId) (fail : Bool)
  /-- PROGRAM_HOLD_TIMEOUT (R479). -/
  | programHoldTimeout (f : FieldId)
  /-- PROGRAM_RESUME (R479). -/
  | programResume (f : FieldId)
  /-- BIN_INIT_DONE (R491). -/
  | binInitDone (b : BinId)
  /-- BIN_INTERFACE_FAULT (R492). -/
  | binInterfaceFault (b : BinId)
  /-- BIN_PATROL_READ (R497). -/
  | binPatrolRead (b : BinId) (e1 e2 : Ecc)
  /-- BIN_PATROL_WRITEBACK (R497). -/
  | binPatrolWriteback (b : BinId)
  /-- BIN_WIN_WRITE (R500). -/
  | binWinWrite (ini : Initiator) (b : BinId) (value : Word)
  /-- CRB_ALLOC_WRITE (R505). -/
  | crbAllocWrite (ini : Initiator) (value : Word)
  /-- CRIB_SLOT_FORGET (R508). -/
  | cribSlotForget (ini : Initiator) (value : Word)
  /-- CRIB_TIMEOUT (R506). -/
  | cribTimeout (tag : BitVec 32)
  /-- STREAM_START (R514). -/
  | streamStart (sh : SheafId) (ecc : EccFinds)
  /-- STREAM_PLACE (R514). -/
  | streamPlace (sh : SheafId)
  /-- STREAM_END (R515). -/
  | streamEnd (sh : SheafId)
  /-- IMAGE_LOAD (R545). -/
  | imageLoad (fn : FnId) (ring : Fin 8) (bytes : Option (List Byte)) (sig : Bool)
  /-- IMAGE_LOADS_DONE (R546). -/
  | imageLoadsDone
  /-- IMAGE_UNLOAD (R548). -/
  | imageUnload (fn : FnId) (ring : Fin 8)
  /-- PATCH_STAGE (R563). -/
  | patchStage (fn : FnId) (ring : Fin 8) (bytes : Option (List Byte)) (sig : Bool)
  /-- PATCH_APPLY (R564). -/
  | patchApply (fn : FnId) (ring : Fin 8)
  /-- PATCH_DROP (R565). -/
  | patchDrop (fn : FnId) (ring : Fin 8)
  /-- RELOCATE_MOVE (R557). -/
  | relocateMove (fn : FnId) (ring : Fin 8)
  /-- RELOCATE_RESCUE (R560). -/
  | relocateRescue (fn : FnId) (ring : Fin 8)
  /-- RELOCATE_COPY_DONE (R559). -/
  | relocateCopyDone
  /-- QUIESCE_TIMEOUT (R552). -/
  | quiesceTimeout
  /-- KEY_ENROLL (R531). -/
  | keyEnroll (fn : FnId) (ring : Fin 8) (key : Option (List Byte))
  /-- KEY_REVOKE (R531). -/
  | keyRevoke (fn : FnId) (ring : Fin 8)
  /-- KEY_LOCK (R531). -/
  | keyLock (fn : FnId) (ring : Fin 8)
  /-- KEY_UNLOCK (R531). -/
  | keyUnlock (fn : FnId) (ring : Fin 8) (sig : Option Bool)
  /-- DOORBELL (R576). -/
  | doorbell (fn : FnId) (ring : Fin 8) (tail : BitVec 16)
  /-- COMMAND_FETCH (R578). -/
  | commandFetch (fn : FnId) (ring : Fin 8) (cmd : Option (BitVec 512))
  /-- HOST_NOP (R581). -/
  | hostNop (fn : FnId) (ring : Fin 8)
  /-- DMA_TO_DEVICE (R583). -/
  | dmaToDevice (fn : FnId) (ring : Fin 8) (rows : List (BitVec 128))
  /-- DMA_TO_HOST (R582). -/
  | dmaToHost (fn : FnId) (ring : Fin 8) (bad : Option (BitVec 32))
  /-- COMPLETION_WRITE (R579). -/
  | completionWrite (fn : FnId) (ring : Fin 8) (ok : Bool)
  /-- EVENT_RECORD_WRITE (R586). -/
  | eventRecordWrite (fn : FnId) (ok : Bool)
  /-- MSIX_GAP_EXPIRY (R587). -/
  | msixGapExpiry (fn : FnId) (vec : Fin 16)
  /-- FUNCTION_LEVEL_RESET (R588). -/
  | functionLevelReset (fn : FnId)
  /-- VF_ENABLE_CLEAR (R588). -/
  | vfEnableClear (port : HostPort)
  /-- HOST_PORT_DOWN (R589). -/
  | hostPortDown (port : HostPort) (perst : Bool)
  /-- LINK_ROLE (R609). -/
  | linkRole (fn : FnId) (ring : Fin 8)
  /-- RICK_SWEEP (R611). -/
  | rickSweep (fn : FnId) (ring : Fin 8)
  /-- RICK_TOPOLOGY (R605). -/
  | rickTopology (fn : FnId) (ring : Fin 8) (ok : Bool)
  /-- LINK_RETRAIN (R594). -/
  | linkRetrain (fn : FnId) (ring : Fin 8)
  /-- LANE_SIGNAL (R599). -/
  | laneSignal (port : DieId) (link : Fin 4) (lane : Fin 16)
  /-- LANE_DROP (R592). -/
  | laneDrop (port : DieId) (link : Fin 4) (lane : Fin 16)
  /-- TRAIN_FRAME (R599). -/
  | trainFrame (port : DieId) (link : Fin 4) (lanes : BitVec 16)
  /-- IDENT (R600). -/
  | ident (port : DieId) (link : Fin 4) (id : Ident)
  /-- LINK_TRAIN_TIMEOUT (R599). -/
  | linkTrainTimeout (port : DieId) (link : Fin 4)
  /-- LINK_FAILED_RETRY (R599). -/
  | linkFailedRetry (port : DieId) (link : Fin 4)
  /-- DATA_FRAME (R594). -/
  | dataFrame (port : DieId) (link : Fin 4) (head : FrameHead) (txns : List Txn)
  /-- IDLE_FRAME (R594). -/
  | idleFrame (port : DieId) (link : Fin 4) (head : FrameHead)
  /-- ACK_TIMER (R594). -/
  | ackTimer (port : DieId) (link : Fin 4)
  /-- IDLE_TIMER (R594). -/
  | idleTimer (port : DieId) (link : Fin 4)
  /-- LINK_SILENCE_TIMEOUT (R594). -/
  | linkSilenceTimeout (port : DieId) (link : Fin 4)
  /-- REKEY (R596). -/
  | rekey (port : DieId) (link : Fin 4)
  /-- DRAUGHT_READ (R597). -/
  | draughtRead (port : DieId) (link : Fin 4) (txn : Txn)
  /-- DRAUGHT_WRITE (R597). -/
  | draughtWrite (port : DieId) (link : Fin 4) (txn : Txn)
  /-- DRAUGHT_READ_DATA (R597). -/
  | draughtReadData (port : DieId) (link : Fin 4) (txn : Txn)
  /-- DRAUGHT_WRITE_ACK (R597). -/
  | draughtWriteAck (port : DieId) (link : Fin 4) (txn : Txn)
  /-- DRAUGHT_NOTICE (R509). -/
  | draughtNotice (port : DieId) (link : Fin 4) (txn : Txn)
  /-- SEND (R607). -/
  | sendTxn (port : DieId) (link : Fin 4) (txn : Txn) (rick : Option (BitVec 128 × BitVec 128))
  /-- SEND_ACK (R607). -/
  | sendAck (port : DieId) (link : Fin 4) (txn : Txn)
  /-- SEND_DESC_START (R606). -/
  | sendDescStart (port : DieId) (ring : Fin 8) (ecc : EccFinds)
  /-- ROLE_REQ (R610). -/
  | roleReq (port : DieId) (link : Fin 4) (round : Nat) (cadence want : Bool)
  /-- ROLE_ACK (R609). -/
  | roleAck (port : DieId) (link : Fin 4) (round : Nat)
  /-- ROLE_NAK (R609). -/
  | roleNak (port : DieId) (link : Fin 4) (round : Nat)
  /-- ROLE_ROUND_TIMEOUT (R610). -/
  | roleRoundTimeout (port : DieId) (link : Fin 4)
  /-- LINK_STATE_RECORD (R602). -/
  | linkStateRecord (port : DieId) (link : Fin 4) (r : LsRecord)
  /-- TOPOLOGY_RECORD (R603). -/
  | topologyRecord (port : DieId) (link : Fin 4) (t : TopoRecord)
  /-- SWEEP_TIMER (R611). -/
  | sweepTimer
  /-- SWEEP_TOKEN (R612). -/
  | sweepToken (port : DieId) (link : Fin 4) (tok : SweepTok)
  /-- SWEEP_TOKEN_TIMEOUT (R612). -/
  | sweepTokenTimeout
  /-- CAL_REQ (R651). -/
  | calReq (port : DieId) (link : Fin 4) (lane : Fin 16)
  /-- CADENCE_WORD (R641). -/
  | cadenceWord (port : DieId) (link : Fin 4) (w : CadWord)
  /-- CADENCE_WORD_TIMER (R640). -/
  | cadenceWordTimer (port : DieId) (link : Fin 4)
  /-- CADENCE_DELAY_REPLY (R640). -/
  | cadenceDelayReply (port : DieId) (link : Fin 4) (trip : Nat)
  /-- PPS_EDGE (R625). -/
  | ppsEdge (interval : Nat)
  /-- REF_10M_LOCK (R627). -/
  | ref10mLock
  /-- REF_10M_UNLOCK (R627). -/
  | ref10mUnlock (err : BitVec 16)
  /-- PTP_MESSAGE (R624). -/
  | ptpMessage (msg : PtpMsg)
  /-- SOURCE_TIMEOUT (R626). -/
  | sourceTimeout (src : Fin 4)
  /-- CADENCE_LOCK_TIMER (R629). -/
  | cadenceLockTimer (enter : Bool)
  /-- HOLDOVER_EXPIRY (R629). -/
  | holdoverExpiry
  /-- CADENCE_REVERT (R630). -/
  | cadenceRevert
  /-- CAD_STEP (R653). -/
  | cadStep (fn : FnId) (ring : Fin 8)
  /-- CAD_BEAT (R653). -/
  | cadBeat (fn : FnId) (ring : Fin 8)
  /-- GAP_START (R639). -/
  | gapStart
  /-- CAL_RUN (R646). -/
  | calRun (fn : FnId) (ring : Fin 8) (refv : Int)
  /-- CAL_UNIT_MEASURE (R646). -/
  | calUnitMeasure (target : Fin 5) (unit : Nat) (check : Bool) (again : Bool) (a b : BitVec 16) (trim : Nat) (refv : Int)
  /-- CAL_TIMEOUT (R646). -/
  | calTimeout
  /-- CAL_ABORT (R653). -/
  | calAbort (fn : FnId) (ring : Fin 8)
  /-- CAL_RESULTS (R653). -/
  | calResults (fn : FnId) (ring : Fin 8) (ok : Bool)
  /-- POWER_ON (R665). -/
  | powerOn (feed : Fin 2) (m : PowerMeter)
  /-- FEED_BAND_EXIT (R658). -/
  | feedBandExit (feed : Fin 2) (volts : BitVec 16)
  /-- FEED_RESUME (R658). -/
  | feedResume (feed : Fin 2)
  /-- FEED_OUT_OF_RANGE (R658). -/
  | feedOutOfRange (feed : Fin 2) (volts : BitVec 16)
  /-- CONVERTER_FAULT (R660). -/
  | converterFault (conv : Fin 4) (cause : Fin 3)
  /-- POWER_SENSE_SAMPLE (R668). -/
  | powerSenseSample (f : FieldId) (x : SenseSample)
  /-- STOKE_PREPOSITION (R672). -/
  | stokePreposition (f : FieldId)
  /-- AVS_UPDATE (R669). -/
  | avsUpdate (f : FieldId) (mv : BitVec 16)
  /-- CAP_UNREACHABLE (R676). -/
  | capUnreachable
  /-- BUS_LOSS (R681). -/
  | busLoss (m : PowerMeter)
  /-- SAFETY_BLEED_START (R685). -/
  | safetyBleedStart
  /-- SAFETY_BLEED_END (R685). -/
  | safetyBleedEnd (feed : Bool) (m : PowerMeter)
  /-- EMBER_TEST_START (R684). -/
  | emberTestStart
  /-- EMBER_TEST_MEASURED (R684). -/
  | emberTestMeasured (out gauge : Nat)
  /-- EMBER_TEST_DONE (R684). -/
  | emberTestDone (gauge : Nat)
  /-- PHASE_RETEST (R687). -/
  | phaseRetest (fn : FnId) (ring : Fin 8) (pass : BitVec 9)
  /-- CRACK_CLEAR (R687). -/
  | crackClear (fn : FnId) (ring : Fin 8) (rpath : Option (BitVec 16))
  /-- EMBER_TEST (R687). -/
  | emberTest (fn : FnId) (ring : Fin 8)
  /-- THERMAL_SAMPLE (R694). -/
  | thermalSample (ch : Fin 194) (r : SensorRead)
  /-- THRESHOLD_DWELL (R695). -/
  | thresholdDwell (d : Dwell)
  /-- TRIP_COMPARATOR_SAMPLE (R702). -/
  | tripComparatorSample (hot : List (Fin 194 × Int))
  /-- TRIP_RELEASE (R703). -/
  | tripRelease
  /-- THERMAL_RELEASE (R704). -/
  | thermalRelease (fn : FnId) (ring : Fin 8)
  /-- FLOW_PULSE (R706). -/
  | flowPulse (rate : Nat)
  /-- FLOW_TIMEOUT (R706). -/
  | flowTimeout
  /-- DEMAND_UPDATE (R713). -/
  | demandUpdate (measured : Nat)
  /-- DEMAND_COMPLIANCE (R715). -/
  | demandCompliance (enter : Bool)
  /-- KINDLING_START (R718). -/
  | kindlingStart (h : HalfId)
  /-- KINDLING_WAVE (R719). -/
  | kindlingWave (h : HalfId) (a b : FieldTest)
  /-- KINDLING_DONE (R723). -/
  | kindlingDone (h : HalfId)
  /-- SHEAF_CHECK_ERROR (R725). -/
  | sheafCheckError (sh : SheafId) (ue : Bool)
  /-- RESET_GRAIN (R732). -/
  | resetGrain (fn : FnId) (ring : Fin 8)
  /-- RESET_SHEAF (R732). -/
  | resetSheaf (fn : FnId) (ring : Fin 8)
  /-- RESET_FIELD (R732). -/
  | resetField (fn : FnId) (ring : Fin 8)
  /-- RESET_PARTITION (R732). -/
  | resetPartition (fn : FnId) (ring : Fin 8)
  /-- RESET_HALF (R746). -/
  | resetHalf (fn : FnId) (ring : Fin 8)
  /-- RESET_MODULE (R746). -/
  | resetModule (fn : FnId) (ring : Fin 8)
  /-- MODULE_RESET_BEGIN (R746). -/
  | moduleResetBegin
  /-- RESET_DRAIN_DONE (R732). -/
  | resetDrainDone (id : Nat)
  /-- RESET_RELEASE (R732). -/
  | resetRelease (id : Nat)
  /-- UNIT_FENCE (R725). -/
  | unitFence (fn : FnId) (ring : Fin 8)
  /-- FIELD_RETIRE (R746). -/
  | fieldRetire (fn : FnId) (ring : Fin 8)
  /-- SHEAF_RETEST (R729). -/
  | sheafRetest (fn : FnId) (ring : Fin 8) (pass : Bool)
  /-- DEFECT_MAP_READ (R722). -/
  | defectMapRead (fn : FnId) (ring : Fin 8) (ok : Bool)
  /-- FAULT_LOG_READ (R745). -/
  | faultLogRead (fn : FnId) (ring : Fin 8) (ok : Bool)
  /-- DAMPER_SWITCH (R739). -/
  | damperSwitch (fn : FnId) (ring : Fin 8)
  /-- DAMPER_HEARTBEAT (R738). -/
  | damperHeartbeat (came : Bool)
  /-- DAMPER_TAKEOVER (R739). -/
  | damperTakeover (fault : Bool)
  /-- BOTH_DAMPERS_LOST (R740). -/
  | bothDampersLost
  /-- SIDEBAND_INPUT_CHANGE (R741). -/
  | sidebandInputChange (input : Fin 4) (level : Bool) (changes : Nat) (held : Bool)
  /-- CHATTER_END (R741). -/
  | chatterEnd (input : Fin 4)
  /-- STUCK (R741). -/
  | stuck (input : Fin 4)
  /-- BINDER_SCRUB_READ (R743). -/
  | binderScrubRead (sh : SheafId) (lo hi : Ecc)
  /-- HOST_LINK_UP (R589). -/
  | hostLinkUp (port : HostPort) (speed width flit : Nat) (numVfs : Fin 64)
  /-- KEY_AGREEMENT_CONFIRM (R599). -/
  | keyAgreementConfirm (port : DieId) (link : Fin 4)
  /-- SWEEP_HANDSHAKE_ACK (R612). -/
  | sweepHandshakeAck (port : DieId) (link : Fin 4) (seq : Nat)
  deriving DecidableEq, Repr

end Sys2Proof
end

