-- ==== Sys2Proof/Machine/Bits.lean ====
section
/-!
DEFINITION. Bit fields, sign extension, unit numbering (R2 to R6) and byte order (R9), each said once.
-/
namespace Sys2Proof.Machine

/-- Bits hi..lo of a number, as a number. -/
def nbits (x hi lo : Nat) : Nat := (x / 2 ^ lo) % 2 ^ (hi + 1 - lo)

/-- Bits hi..lo of a word, as a number. -/
def bits {w : Nat} (x : BitVec w) (hi lo : Nat) : Nat := nbits x.toNat hi lo

/-- Bit i of a word. -/
def bit {w : Nat} (x : BitVec w) (i : Nat) : Bool := x.getLsbD i

/-- A word with the field hi..lo replaced by v. -/
def setBits (x : Word) (hi lo v : Nat) : Word :=
  let m := (2 ^ (hi + 1 - lo) - 1) * 2 ^ lo
  (x &&& ~~~(BitVec.ofNat 32 m)) ||| (BitVec.ofNat 32 (v * 2 ^ lo) &&& BitVec.ofNat 32 m)

/-- A word of the model from a number. -/
def word (n : Nat) : Word := BitVec.ofNat 32 n

/-- 1 for true. -/
def bnat (b : Bool) : Nat := if b then 1 else 0

/-- A signed reading of the low w bits of a number. -/
def sgn (w x : Nat) : Int := (BitVec.ofNat w x).toInt

/-- A saturating sum below 2 ^ w. -/
def satAdd (w a b : Nat) : Nat := min (a + b) (2 ^ w - 1)

/-- A saturating increment of a 32-bit counter. -/
def satInc (x : Word) (n : Nat) : Word := word (satAdd 32 x.toNat n)

/-- Number of set bits. -/
def popc : Nat → Nat → Nat
  | 0, _ => 0
  | k + 1, x => x % 2 + popc k (x / 2)

/-- Parity of the low k bits. -/
def parity (k x : Nat) : Nat := popc k x % 2

/-- The half of a grain (R5). -/
def halfOfGrain (g : Nat) : Nat := g / 737280
/-- The field of a grain, module-wide (R5). -/
def fieldOfGrain (g : Nat) : Nat := g / 9216
/-- The sheaf of a grain, module-wide (R5). -/
def sheafOfGrain (g : Nat) : Nat := g / 256
/-- The ear of a grain, module-wide (R5). -/
def earOfGrain (g : Nat) : Nat := g / 16
/-- The field of a sheaf, module-wide. -/
def fieldOfSheaf (sh : Nat) : Nat := sh / 36
/-- The half of a sheaf. -/
def halfOfSheaf (sh : Nat) : Nat := sh / 2880

/-- Logical x of a grain in its half (the inverse of R5). -/
def grainX (g : Nat) : Nat :=
  let f := g / 9216 % 80
  let sh := g / 256 % 36
  let e := g / 16 % 16
  96 * (f % 10) + 16 * (sh % 6) + 4 * (e % 4) + g % 4

/-- Logical y of a grain in its half (the inverse of R5). -/
def grainY (g : Nat) : Nat :=
  let f := g / 9216 % 80
  let sh := g / 256 % 36
  let e := g / 16 % 16
  96 * (f / 10) + 16 * (sh / 6) + 4 * (e / 4) + g % 16 / 4

/-- The grain number of half and logical coordinate, by R5. -/
def grainAt (h x y : Nat) : Nat :=
  let f := 10 * (y / 96) + x / 96
  let sh := 6 * (y % 96 / 16) + x % 96 / 16
  let e := 4 * (y % 16 / 4) + x % 16 / 4
  let g := 4 * (y % 4) + x % 4
  (((h * 80 + f) * 36 + sh) * 16 + e) * 16 + g

/-- A coordinate word: half in [20], y in [19:10], x in [9:0] (R87, R253, R585). -/
def coordOf (g : Nat) : Nat := halfOfGrain g * 2 ^ 20 + grainY g * 2 ^ 10 + grainX g

/-- True when a coordinate word names a logical grain (R2). -/
def coordOk (c : Nat) : Bool := nbits c 9 0 < 960 && nbits c 19 10 < 768

/-- The grain a coordinate word names. -/
def grainOfCoord (c : Nat) : Nat := grainAt (nbits c 20 20) (nbits c 9 0) (nbits c 19 10)

/-- A sheaf given as half in [13], field in [12:6], sheaf in [5:0] (R265, R585). -/
def sheafCode (sh : Nat) : Nat := halfOfSheaf sh * 2 ^ 13 + sh / 36 % 80 * 2 ^ 6 + sh % 36

/-- True when a sheaf code names a sheaf. -/
def sheafCodeOk (c : Nat) : Bool := nbits c 12 6 < 80 && nbits c 5 0 < 36

/-- The sheaf a sheaf code names. -/
def sheafOfCode (c : Nat) : Nat := (nbits c 13 13 * 80 + nbits c 12 6) * 36 + nbits c 5 0

/-- The sheaf of a fabric address (R40, R42). -/
def winSheaf (a : Nat) : Nat := (nbits a 37 37 * 80 + nbits a 36 30) * 36 + nbits a 29 24

/-- The sheaf port of a sheaf: field-local router (16i + 7, 16j + 7) (R293). -/
def sheafPort (sh : Nat) : Nat := sh * 256 + 16 * (4 * 1 + 1) + (4 * 3 + 3)

/-- Byte i of a number, little-endian (R9). -/
def byteOf (x i : Nat) : Byte := BitVec.ofNat 8 (x / 256 ^ i)

/-- Bytes to a number, first byte lowest (R9). -/
def ofBytes : List Byte → Nat
  | [] => 0
  | b :: r => b.toNat + 256 * ofBytes r

/-- The low n bytes of a number, lowest first (R9). -/
def toBytes (x : Nat) : Nat → List Byte
  | 0 => []
  | n + 1 => BitVec.ofNat 8 x :: toBytes (x / 256) n

/-- Fields packed without gaps from bit 0: (width, value) in order (R585). -/
def packFields : List (Nat × Nat) → Nat
  | [] => 0
  | (w, v) :: r => v % 2 ^ w + 2 ^ w * packFields r

end Sys2Proof.Machine
end

