-- ==== Sys2Proof/Machine/GrainDecode.lean ====
section
/-!
DEFINITION. The instruction encodings of grains and binders (R75 to R77, R90, R188): decoding a word, or two words of
a long form, into an operation with its fields, or nothing where the encoding is illegal (R76); and the encoder.
-/
namespace Sys2Proof.Machine

/-- The instructions of R77, one name each. -/
inductive Op where
  | nop | halt | brk | rdcyc | rdid
  | add | sub | andd | orr | xor | sll | srl | sra | slt | sltu | minS | maxS | mul | mulh | clz | popc
  | addi | andi | ori | xori | shi | li | lih
  | pcmp | pcmpi | pand | por | pxor | pandn | p2s | s2p
  | br | jr | loop
  | lw | lhu | lbu | lh | lb | sw | sh | sb | vld | vst | vlds | vsts | vldt
  | vadd | vsub | vmul | vmin | vmax | vabs | vneg | vfma | vand | vor | vxor | vshl | vshr | vsar
  | vcmpeq | vcmplt | vcmple | vsel | vexp2 | vlog2 | vrcp | vrsqrt | vrsum | vrmax | vrmin
  | vbcst | vext | vperm | vacc | vaccz | vqnt | vdq | vcvt | ergres | vrdl
  | earsum | earmax | earmin | earisum | earbar
  | wait | tcRd | tcSet | tcSub | tcAdd | tcClrerr | cwSet | cwRet | cwRd | cwClose
  | lockTry | lockAcq | lockRel | fenceL | fenceS | fenceG | put | notify
  | stoke | beatw | gsigStart | gsigHalt | regwr | regrd | mxu | dmaRead | dmaWrite
  deriving DecidableEq, Repr

/-- A decoded instruction: its operation, its guard (R69, R75), and the other fields of its form. In the wait form
`rd` is the counter and `imm` the result predicate; in the loop form `rd` is the level and `imm` the end index; in the
vec form `imm` is the element type; in the MXU form `imm` is word 0 bits [21:5]; in the DMA form `rd` is the credit
window, `fn` the op and `imm` the register rc. `w1` is the second word of a long form. -/
structure Ins where
  op    : Op
  guard : Nat
  neg   : Bool
  rd    : Nat
  ra    : Nat
  rb    : Nat
  fn    : Nat
  imm   : Nat
  w1    : Nat
  deriving DecidableEq, Repr

/-- The instruction forms of R75. -/
inductive Form where
  | reg | imm | wide | br | loop | vec | wait | mxu | dma
  deriving DecidableEq, Repr

/-- The form of an opcode (R77). -/
def formOf (opc : Nat) : Form :=
  if opc = 0x3E then .mxu else if opc = 0x3F then .dma
  else if opc = 0x30 then .wait
  else if 0x20 ≤ opc ∧ opc ≤ 0x2C then .vec
  else if opc = 0x0E then .loop
  else if opc = 0x0C ∨ opc = 0x0D then .br
  else if opc = 0x07 ∨ opc = 0x08 then .wide
  else if (0x02 ≤ opc ∧ opc ≤ 0x06) ∨ opc = 0x0A ∨ (0x10 ≤ opc ∧ opc ≤ 0x19) then .imm
  else .reg

/-- A list's element by number. -/
def nth {α : Type} (l : List α) (i : Nat) : Option α := l[i]?

/-- The operation of an opcode and function code (R77, R239, R249, R98, R95, R114, R174). -/
def opOf (opc fn : Nat) : Option Op :=
  match opc with
  | 0x00 => nth [.nop, .halt, .brk, .rdcyc, .rdid] fn
  | 0x01 => nth [.add, .sub, .andd, .orr, .xor, .sll, .srl, .sra, .slt, .sltu, .minS, .maxS, .mul, .mulh, .clz, .popc] fn
  | 0x02 => some .addi
  | 0x03 => some .andi
  | 0x04 => some .ori
  | 0x05 => some .xori
  | 0x06 => some .shi
  | 0x07 => some .li
  | 0x08 => some .lih
  | 0x09 => if fn ≤ 5 then some .pcmp else none
  | 0x0A => some .pcmpi
  | 0x0B => nth [.pand, .por, .pxor, .pandn, .p2s, .s2p] fn
  | 0x0C => some .br
  | 0x0D => some .jr
  | 0x0E => some .loop
  | 0x10 => some .lw
  | 0x11 => some .lhu
  | 0x12 => some .lbu
  | 0x13 => some .lh
  | 0x14 => some .lb
  | 0x15 => some .sw
  | 0x16 => some .sh
  | 0x17 => some .sb
  | 0x18 => some .vld
  | 0x19 => some .vst
  | 0x1A => if fn ≤ 3 then some .vlds else none
  | 0x1B => if fn ≤ 3 then some .vsts else none
  | 0x1C => if fn ≤ 1 then some .vldt else none
  | 0x20 => nth [.vadd, .vsub, .vmul, .vmin, .vmax, .vabs, .vneg] fn
  | 0x21 => nth [.vfma] fn
  | 0x22 => nth [.vand, .vor, .vxor, .vshl, .vshr, .vsar] fn
  | 0x23 => nth [.vcmpeq, .vcmplt, .vcmple, .vsel] fn
  | 0x24 => nth [.vexp2, .vlog2, .vrcp, .vrsqrt] fn
  | 0x25 => nth [.vrsum, .vrmax, .vrmin] fn
  | 0x26 => nth [.vbcst, .vext, .vperm] fn
  | 0x27 => nth [.vacc, .vaccz] fn
  | 0x28 => some .vqnt
  | 0x29 => some .vdq
  | 0x2A => some .vcvt
  | 0x2B => nth [.vrdl, .vrdl, .vrdl, .vrdl] fn
  | 0x2C => nth [.earsum, .earmax, .earmin, .earisum, .earbar] fn
  | 0x30 => some .wait
  | 0x31 => nth [.tcRd, .tcSet, .tcSub, .tcAdd, .tcClrerr] fn
  | 0x32 => nth [.cwSet, .cwRet, .cwRd, .cwClose] fn
  | 0x33 => nth [.lockTry, .lockAcq, .lockRel] fn
  | 0x34 => nth [.fenceL, .fenceS, .fenceG] fn
  | 0x35 => if fn ≤ 2 then some .put else none
  | 0x36 => if fn = 0 then some .notify else none
  | 0x38 => some .stoke
  | 0x39 => some .beatw
  | 0x3A => nth [.gsigStart, .gsigHalt] fn
  | 0x3B => some .regwr
  | 0x3C => some .regrd
  | 0x3E => some .mxu
  | 0x3F => nth [.dmaRead, .dmaWrite] fn
  | _ => none

/-- Operations only a binder may issue (R114), and only a grain (R112). -/
def binderOnly : Op → Bool
  | .stoke | .beatw | .gsigStart | .gsigHalt | .regwr | .regrd => true
  | _ => false

/-- Operations a binder runs besides its own (R112): system, scalar, predicate, branch, scalar memory, DMA, WAIT,
FENCE, LOCK, and the tally operations on its notify counters (R113). -/
def binderRuns : Op → Bool
  | .vld | .vst | .vlds | .vsts | .vldt
  | .vadd | .vsub | .vmul | .vmin | .vmax | .vabs | .vneg | .vfma | .vand | .vor | .vxor | .vshl | .vshr | .vsar
  | .vcmpeq | .vcmplt | .vcmple | .vsel | .vexp2 | .vlog2 | .vrcp | .vrsqrt | .vrsum | .vrmax | .vrmin
  | .vbcst | .vext | .vperm | .vacc | .vaccz | .vqnt | .vdq | .vcvt | .ergres | .vrdl
  | .earsum | .earmax | .earmin | .earisum | .earbar
  | .cwSet | .cwRet | .cwRd | .cwClose | .put | .notify | .mxu => false
  | _ => true

/-- Rate in MAC per cycle and whether the accumulator is INT32, for a weight and an activation format (R194);
none for a pair the table does not list. -/
def mxuPair (w a : Nat) : Option (Nat × Bool) :=
  if w = 7 ∧ a = 6 then some (64, true)
  else if w = 7 ∧ a = 0 then some (64, false)
  else if w = 6 ∧ a = 6 then some (32, true)
  else if (w = 6 ∨ w = 0) ∧ a = 0 then some (32, false)
  else if w = 0 ∧ a = 6 then some (32, false)
  else if (w = 1 ∨ w = 2) ∧ (a = 1 ∨ a = 2) then some (24, false)
  else if (w = 7 ∨ w = 6 ∨ w = 5) ∧ a = 5 then some (16, true)
  else if (w = 7 ∨ w = 6 ∨ w = 0) ∧ (a = 3 ∨ a = 4) then some (16, false)
  else if w = 0 ∧ a = 5 then some (16, false)
  else if (w = 3 ∨ w = 4) ∧ (a = 3 ∨ a = 4 ∨ a = 5) then some (16, false)
  else if w = 5 ∧ (a = 3 ∨ a = 4) then some (16, false)
  else if w = 8 ∧ a = 8 then some (8, false)
  else none

/-- The MXU fields of word 0 (R192), from bits [21:5] of the word. -/
def mxuTile (imm : Nat) : Nat := nbits imm 16 15
def mxuZ (imm : Nat) : Bool := nbits imm 14 14 == 1
def mxuOrd (imm : Nat) : Bool := nbits imm 13 13 == 1
def mxuW (imm : Nat) : Nat := nbits imm 12 9
def mxuA (imm : Nat) : Nat := nbits imm 8 5
def mxuShape (imm : Nat) : Nat := nbits imm 4 3
def mxuSparse (imm : Nat) : Nat := nbits imm 2 1
def mxuAskip (imm : Nat) : Bool := nbits imm 0 0 == 1

/-- Whether an MXU operation accumulates in INT32 (R155, R194, R215). -/
def mxuInt (imm : Nat) : Bool :=
  !mxuOrd imm && (match mxuPair (mxuW imm) (mxuA imm) with | some (_, i) => i | none => false)

/-- The legality rule of the MXU form (R193). -/
def mxuLegal (imm w1 : Nat) : Bool :=
  (if mxuOrd imm then mxuA imm == 8 && mxuW imm ≤ 8 && !mxuAskip imm
   else (mxuPair (mxuW imm) (mxuA imm)).isSome) &&
  (mxuInt imm || nbits w1 9 2 == 0) && nbits w1 1 0 == 0

/-- The width in bits of a vector element type (R75). -/
def etWidth (et : Nat) : Nat := if et = 0 ∨ et = 2 then 32 else if et = 4 then 8 else 16

/-- True for FP32 and BF16 (R75). -/
def etFloat (et : Nat) : Bool := et == 0 || et == 1

/-- The legality of VCVT (R145): destination type, width ratio at most 2, and even registers where a pair is used. -/
def vcvtLegal (i : Ins) : Bool :=
  let d := i.fn
  let ws := etWidth i.imm
  let wd := etWidth d
  d ≤ 4 && (ws == wd || (ws == 2 * wd && i.ra % 2 == 0) || (wd == 2 * ws && i.rd % 2 == 0))

/-- The reserved values and register constraints of each instruction (R76 and the rules of the instructions). -/
def legal (bnd : Bool) (i : Ins) : Bool :=
  match i.op with
  | .pcmp => i.rd < 8
  | .pand | .por | .pxor | .pandn => i.rd < 8 && i.ra < 8 && i.rb < 8
  | .s2p => i.rd < 8
  | .shi => nbits i.imm 11 10 != 3 && nbits i.imm 9 5 == 0
  | .lih => i.imm < 65536
  | .vldt => i.rb == 0 && i.rd % 2 == 0
  | .vadd | .vsub | .vmul | .vmin | .vmax | .vabs | .vneg | .vfma | .vand | .vor | .vxor | .vshl | .vshr | .vsar
  | .vcmpeq | .vcmplt | .vcmple | .vsel | .vrsum | .vrmax | .vrmin | .vbcst | .vext | .vperm | .earbar => i.imm ≤ 4
  | .vexp2 | .vlog2 | .vrcp | .vrsqrt => i.imm ≤ 1
  | .vacc | .vaccz => (i.imm == 0 || i.imm == 2) && i.ra < 4 && i.rd % 4 == 0 && i.rb == 0
  | .vqnt => (i.imm == 1 || (i.imm == 0 && i.ra % 2 == 0)) && i.fn ≤ 7
  | .vdq => (i.imm == 1 || (i.imm == 0 && i.rd % 2 == 0)) && i.fn ≤ 7
  | .vcvt => i.imm ≤ 4 && vcvtLegal i
  | .ergres => i.imm == 0
  | .vrdl => i.imm == 1 && i.rb == 0 && i.rd % 2 ^ i.fn == 0
  | .earsum | .earmax | .earmin => i.imm == 0
  | .earisum => i.imm == 2
  | .wait => !bnd || i.rd < 8
  | .tcRd | .tcSet | .tcSub | .tcAdd | .tcClrerr => if bnd then i.rb < 8 else i.rb < 16
  | .cwSet | .cwRet | .cwRd | .cwClose => i.rb < 4
  | .notify => i.rd < 8 && i.ra == 0 && i.rb == 0
  | .mxu => mxuLegal i.imm i.w1
  | .dmaRead | .dmaWrite => nbits i.w1 11 10 == 0
  | _ => true

/-- The fields of a form, from the words (R75, R90, R192). -/
def fieldsOf (f : Form) (op : Op) (n0 n1 : Nat) : Ins :=
  let g := nbits n0 25 23
  let ng := nbits n0 22 22 == 1
  match f with
  | .reg  => ⟨op, g, ng, nbits n0 21 17, nbits n0 16 12, nbits n0 11 7, nbits n0 6 0, 0, 0⟩
  | .imm  => ⟨op, g, ng, nbits n0 21 17, nbits n0 16 12, 0, 0, nbits n0 11 0, 0⟩
  | .wide => ⟨op, g, ng, nbits n0 21 17, 0, 0, 0, nbits n0 16 0, 0⟩
  | .br   => ⟨op, g, ng, nbits n0 21 17, nbits n0 16 12, 0, 0, nbits n0 11 0, 0⟩
  | .loop => ⟨op, g, ng, nbits n0 21 21, nbits n0 16 12, 0, 0, nbits n0 9 0, 0⟩
  | .vec  => ⟨op, g, ng, nbits n0 21 17, nbits n0 16 12, nbits n0 11 7, nbits n0 3 0, nbits n0 6 4, 0⟩
  | .wait => ⟨op, g, ng, nbits n0 21 18, nbits n0 14 10, nbits n0 9 5, 0, nbits n0 17 15, 0⟩
  | .mxu  => ⟨op, g, ng, 0, nbits n0 4 0, 0, 0, nbits n0 21 5, n1⟩
  | .dma  => ⟨op, g, ng, nbits n0 18 17, nbits n0 16 12, nbits n0 11 7, nbits n0 21 19, nbits n0 6 2, n1⟩

/-- The function code of a form: what picks the operation under an opcode. -/
def fnOf (f : Form) (n0 : Nat) : Nat :=
  match f with
  | .reg => nbits n0 6 0
  | .vec => nbits n0 3 0
  | .dma => nbits n0 21 19
  | _ => 0

/-- The reserved bits of a form's first word are zero (R75, R90). -/
def formOk (f : Form) (n0 : Nat) : Bool :=
  match f with
  | .loop => nbits n0 20 17 == 0 && nbits n0 11 10 == 0
  | .wait => nbits n0 4 0 == 0
  | .dma => nbits n0 1 0 == 0
  | _ => true

/-- Function 0x8 of VCVT is ERGRES (R174), and functions 0x9 to 0xF are illegal. -/
def cvtOp (op : Op) (fn : Nat) : Option Op :=
  if op = .vcvt then (if fn = 8 then some .ergres else if fn < 8 then some .vcvt else none) else some op

/-- The instruction that one or two words encode for a grain or a binder; none where it is illegal (R76). -/
def decodeIns (bnd : Bool) (n0 n1 : Nat) : Option Ins :=
  let opc := nbits n0 31 26
  let f := formOf opc
  let fn := fnOf f n0
  match (opOf opc fn).bind (fun o => cvtOp o fn) with
  | none => none
  | some op =>
    let i := fieldsOf f op n0 n1
    if formOk f n0 && legal bnd i && (if bnd then binderRuns op else !binderOnly op) then some i else none

/-- Words an instruction occupies (R60). -/
def insLen (op : Op) : Nat :=
  match op with
  | .mxu | .dmaRead | .dmaWrite => 2
  | _ => 1

/-- True when the first word begins a long form (R60, R75). -/
def isLong (n0 : Nat) : Bool := nbits n0 31 26 == 0x3E || nbits n0 31 26 == 0x3F

/-- The opcode of an operation (R77). -/
def opcOf : Op → Nat
  | .nop | .halt | .brk | .rdcyc | .rdid => 0x00
  | .add | .sub | .andd | .orr | .xor | .sll | .srl | .sra | .slt | .sltu | .minS | .maxS | .mul | .mulh
  | .clz | .popc => 0x01
  | .addi => 0x02 | .andi => 0x03 | .ori => 0x04 | .xori => 0x05 | .shi => 0x06 | .li => 0x07 | .lih => 0x08
  | .pcmp => 0x09 | .pcmpi => 0x0A
  | .pand | .por | .pxor | .pandn | .p2s | .s2p => 0x0B
  | .br => 0x0C | .jr => 0x0D | .loop => 0x0E
  | .lw => 0x10 | .lhu => 0x11 | .lbu => 0x12 | .lh => 0x13 | .lb => 0x14 | .sw => 0x15 | .sh => 0x16 | .sb => 0x17
  | .vld => 0x18 | .vst => 0x19 | .vlds => 0x1A | .vsts => 0x1B | .vldt => 0x1C
  | .vadd | .vsub | .vmul | .vmin | .vmax | .vabs | .vneg => 0x20
  | .vfma => 0x21
  | .vand | .vor | .vxor | .vshl | .vshr | .vsar => 0x22
  | .vcmpeq | .vcmplt | .vcmple | .vsel => 0x23
  | .vexp2 | .vlog2 | .vrcp | .vrsqrt => 0x24
  | .vrsum | .vrmax | .vrmin => 0x25
  | .vbcst | .vext | .vperm => 0x26
  | .vacc | .vaccz => 0x27
  | .vqnt => 0x28 | .vdq => 0x29 | .vcvt | .ergres => 0x2A | .vrdl => 0x2B
  | .earsum | .earmax | .earmin | .earisum | .earbar => 0x2C
  | .wait => 0x30
  | .tcRd | .tcSet | .tcSub | .tcAdd | .tcClrerr => 0x31
  | .cwSet | .cwRet | .cwRd | .cwClose => 0x32
  | .lockTry | .lockAcq | .lockRel => 0x33
  | .fenceL | .fenceS | .fenceG => 0x34
  | .put => 0x35 | .notify => 0x36
  | .stoke => 0x38 | .beatw => 0x39 | .gsigStart | .gsigHalt => 0x3A | .regwr => 0x3B | .regrd => 0x3C
  | .mxu => 0x3E
  | .dmaRead | .dmaWrite => 0x3F

/-- The first word of an instruction (R75, R90, R192). -/
def encode0 (i : Ins) : Nat :=
  let h := opcOf i.op * 2 ^ 26 + i.guard * 2 ^ 23 + bnat i.neg * 2 ^ 22
  match formOf (opcOf i.op) with
  | .reg  => h + i.rd * 2 ^ 17 + i.ra * 2 ^ 12 + i.rb * 2 ^ 7 + i.fn
  | .imm  => h + i.rd * 2 ^ 17 + i.ra * 2 ^ 12 + i.imm
  | .wide => h + i.rd * 2 ^ 17 + i.imm
  | .br   => h + i.rd * 2 ^ 17 + i.ra * 2 ^ 12 + i.imm
  | .loop => h + i.rd * 2 ^ 21 + i.ra * 2 ^ 12 + i.imm
  | .vec  => h + i.rd * 2 ^ 17 + i.ra * 2 ^ 12 + i.rb * 2 ^ 7 + i.imm * 2 ^ 4 + i.fn
  | .wait => h + i.rd * 2 ^ 18 + i.imm * 2 ^ 15 + i.ra * 2 ^ 10 + i.rb * 2 ^ 5
  | .mxu  => h + i.imm * 2 ^ 5 + i.ra
  | .dma  => h + i.fn * 2 ^ 19 + i.rd * 2 ^ 17 + i.ra * 2 ^ 12 + i.rb * 2 ^ 7 + i.imm * 2 ^ 2

/-- Every field of an instruction lies in its form's range, and a field its form does not have is zero. -/
def fieldsOk (i : Ins) : Bool :=
  i.guard < 8 &&
  (match formOf (opcOf i.op) with
   | .reg  => i.rd < 32 && i.ra < 32 && i.rb < 32 && i.fn < 128 && i.imm == 0 && i.w1 == 0
   | .imm  => i.rd < 32 && i.ra < 32 && i.rb == 0 && i.fn == 0 && i.imm < 4096 && i.w1 == 0
   | .wide => i.rd < 32 && i.ra == 0 && i.rb == 0 && i.fn == 0 && i.imm < 131072 && i.w1 == 0
   | .br   => i.rd < 32 && i.ra < 32 && i.rb == 0 && i.fn == 0 && i.imm < 4096 && i.w1 == 0
   | .loop => i.rd < 2 && i.ra < 32 && i.rb == 0 && i.fn == 0 && i.imm < 1024 && i.w1 == 0
   | .vec  => i.rd < 32 && i.ra < 32 && i.rb < 32 && i.fn < 16 && i.imm < 8 && i.w1 == 0
   | .wait => i.rd < 16 && i.ra < 32 && i.rb < 32 && i.fn == 0 && i.imm < 8 && i.w1 == 0
   | .mxu  => i.rd == 0 && i.ra < 32 && i.rb == 0 && i.fn == 0 && i.imm < 131072 && i.w1 < 2 ^ 32
   | .dma  => i.rd < 4 && i.ra < 32 && i.rb < 32 && i.fn < 8 && i.imm < 32 && i.w1 < 2 ^ 32)

/-- An instruction a grain or binder may issue: its fields fit, its function picks its operation, and it is legal. -/
def insOk (bnd : Bool) (i : Ins) : Bool :=
  fieldsOk i &&
  ((opOf (opcOf i.op) (fnOf (formOf (opcOf i.op)) (encode0 i))).bind
    (fun o => cvtOp o (fnOf (formOf (opcOf i.op)) (encode0 i))) == some i.op) &&
  legal bnd i && (if bnd then binderRuns i.op else !binderOnly i.op)

end Sys2Proof.Machine
end

