-- ==== Sys2Proof/Machine/State.lean ====
section
/-!
DEFINITION. The state of the block as plain data: every register, memory, queue, counter and mode the spec gives it,
the queue of waiting commands, the reasons a step can stop, and the state after reset.
-/
namespace Sys2Proof.Machine

/-- A byte memory (R9): the bytes listed, and the draw that names what an unlisted byte reads as (0: it reads as
zero; else the free byte of that draw, after a reset or power-down that left the contents unpredictable). -/
structure Mem where
  cells : List Host.Cell := []
  base  : Nat := 0
  deriving DecidableEq, Repr

/-- The states of a grain or binder (R118). -/
inductive RunState where
  | halted | running | waitTally | waitEar | waitLock | waitFence | faulted | loading | waitNotify | waitBeat
  deriving DecidableEq, Repr

/-- One hardware loop level (R58, R74). -/
structure LoopLevel where
  active : Bool := false
  count  : Word := 0
  start  : BitVec 16 := 0
  stop   : BitVec 16 := 0
  deriving DecidableEq, Repr

/-- The ear operations (R105). -/
inductive EarFn where
  | sum | max | min | isum | bar
  deriving DecidableEq, Repr

/-- The three fences (R95). -/
inductive FenceKind where
  | local_ | sheaf | global
  deriving DecidableEq, Repr

/-- What a waiting instruction waits for, with what it needs to end. -/
inductive Wait where
  | none
  /-- WAIT: counter, threshold, deadline cycle if any, result predicate (R82, R85). -/
  | tally (counter : Nat) (threshold : Nat) (deadline : Option Nat) (pred : Nat)
  /-- An ear operation: function, vector supplied, destination (R104). -/
  | ear (fn : EarFn) (vec : BitVec 512) (vd : Nat)
  /-- LOCK: function, handle, destination, deadline cycle of ACQ, and the cycle in which ACQ makes its next attempt; none while a
  request is out (R98 to R100). -/
  | lock (fn : Nat) (handle : Word) (rd : Nat) (deadline : Option Nat) (again : Option Nat)
  /-- REL completing its implicit fence (R101). -/
  | relFence (kind : FenceKind) (handle : Word) (rd : Nat)
  /-- FENCE (R95). -/
  | fence (kind : FenceKind)
  /-- BEATW with its destination (R114). -/
  | beat (rd : Nat)
  deriving DecidableEq, Repr

/-- A code-store copy under way (R61, R65): destination word, count, words copied, state before, a start held. -/
structure CodeCopy where
  src   : Nat
  dst   : Nat
  count : Nat
  prior : RunState
  held  : Bool
  deriving DecidableEq, Repr

/-- One DMA descriptor of a grain's or binder's queue (R90): its fields as read at issue (R91); whether it has begun, its
next transfer row, whether that row waits for credit; the rows under way (row, packets unanswered, failed), the rows
done, the reason it ends early, the stream that placed it (R512), and, of a READ, the local rows that another READ queued with it
writes too, each a first row and a count (R94). -/
structure Desc where
  id      : Nat
  read    : Bool
  cw      : Nat
  remote  : Nat
  hiBad   : Bool
  rows    : Nat
  stride  : Nat
  lrow    : Nat
  ctally  : Nat
  dtally  : Nat
  rowLen  : Nat
  pc      : Nat
  begun   : Bool := false
  nextRow : Nat := 0
  waiting : Bool := false
  openRows : List (Nat × Nat × Bool) := []
  doneRows : Nat := 0
  reason  : Option Nat := none
  stream  : Option Nat := none
  laps    : List (Nat × Nat) := []
  deriving DecidableEq, Repr

/-- What grains and binders share (R58, R112): scalar registers, predicates, loops, pc, life cycle, DMA queue; the cycle of the
last write of RUN := 0 (R115). -/
structure Core where
  s        : Vector Word 32 := Vector.replicate 32 0
  p        : Vector Bool 8 := Vector.replicate 8 false
  loops    : Vector LoopLevel 2 := Vector.replicate 2 {}
  pc       : Nat := 0
  state    : RunState := .halted
  wait     : Wait := .none
  lastPc   : Nat := 0
  cycle0   : Nat := 0
  dmaQ     : List Desc := []
  nextDesc : Nat := 0
  regReads : List Nat := []
  haltAt   : Option Nat := none
  deriving DecidableEq, Repr

/-- A tally counter (R236). -/
structure Tally where
  value    : BitVec 16 := 0
  overflow : Bool := false
  error    : Bool := false
  deriving DecidableEq, Repr

/-- Who waits in a credit window's queue (R246): the grain's own descriptor, or a remote request. -/
inductive CreditWho where
  | own (desc : Nat)
  | remote (pkt : Packet)
  deriving DecidableEq, Repr

/-- A credit window (R245). -/
structure Window where
  isOpen   : Bool := false
  limit    : Nat := 0
  avail    : Nat := 0
  inFlight : Nat := 0
  queue    : List (Nat × CreditWho) := []
  deriving DecidableEq, Repr

/-- One entry of the remote write buffer (R231): the packet, whether it is credited, the rows dropped on arrival
(R248), the rows that have left the buffer (R232), the cycle it entered, and, for the rows of a READ, its descriptor and the draw of
the data that rows overlapped by another READ take (R94). -/
structure WbEntry where
  flight   : Flight
  credited : Bool
  dropped  : List Bool
  left     : List Bool
  since    : Nat
  desc     : Option Nat := none
  draw     : Nat := 0
  deriving DecidableEq, Repr

/-- An accumulator tile (R58, R189, R190): its 64 elements, its type and its exponent. -/
structure Tile where
  elems : Vector Word 64 := Vector.replicate 64 0
  ttype : Nat := 0
  texp  : Int := 0
  deriving DecidableEq, Repr

/-- One MXU operation queued or active (R188, R201, R202): its fields, the values of s[ra], s[rw], s[rx] and s[rm] at issue, whether it
has begun, whether its tile has been prepared for it (R197, R203), the cycles it has run, and the earlier contents of operand rows that
were changed while it was queued or running, with the marks of their two words: bits 0 and 1 poisoned, 2 and 3 told (R217, R261). -/
structure MxuOp where
  imm    : Nat
  w1     : Nat
  sa     : Word
  sw     : Word
  sx     : Word
  sm     : Word
  issued : Nat
  begun  : Bool := false
  ready  : Bool := false
  ran    : Nat := 0
  old    : List (Nat × BitVec 128 × Nat) := []
  pc     : Nat := 0
  deriving DecidableEq, Repr

/-- The four Ergot counts a grain has gathered for its current tag and not yet posted (R168). -/
structure ErgotAcc where
  sat    : Nat := 0
  clamp  : Nat := 0
  nan    : Nat := 0
  poison : Nat := 0
  deriving DecidableEq, Repr

/-- A post to an Ergot table (R168, R174): the grain that posts, its partition, the tag, the four counts, and the
residual figure where ERGRES posts one. -/
structure ErgotPost where
  from_  : Nat
  part   : Nat
  tag    : Nat
  counts : ErgotAcc := {}
  resid  : Option Nat := none
  deriving DecidableEq, Repr

/-- A grain (R58) with its router-port queues, its scratchpad and the registers of its GRN_ and TLY_ blocks that are
not in the register file. -/
structure Grain where
  core    : Core := {}
  v       : Vector (BitVec 512) 32 := Vector.replicate 32 0
  acc     : Vector Tile 4 := Vector.replicate 4 {}
  tc      : Vector Tally 16 := Vector.replicate 16 {}
  cw      : Vector Window 4 := Vector.replicate 4 {}
  /-- The stochastic-rounding generators (R151); none while they still hold the seeds of the module reset (R152). -/
  lfsr    : Option (Vector (BitVec 16) 64) := none
  code    : Mem := {}
  mem     : Mem := {}
  poison  : List Nat := []
  told    : List Nat := []
  mxuQ    : List MxuOp := []
  wb      : List WbEntry := []
  arriving : List Flight := []
  copy    : Option CodeCopy := none
  scrubRow : Nat := 0
  scrubFix : Option Nat := none
  tag     : Nat := 0xFFF
  ergot   : ErgotAcc := {}
  deriving DecidableEq, Repr

/-- The states of a lock word (R253). -/
inductive LockSt where
  | free | held | abandoned
  deriving DecidableEq, Repr

/-- A lock word (R253). -/
structure Lock where
  st    : LockSt := .free
  epoch : BitVec 9 := 0
  owner : BitVec 21 := 0
  deriving DecidableEq, Repr

/-- The power states of an ear (R109, R110). -/
inductive EarPower where
  | on | retain | off
  deriving DecidableEq, Repr

/-- A half as a whole: whether its kindling has ended since its last reset, so that its routers and attachments serve
(R317, R782); whether it drains before its routers are reset (R317); whether its routers are in reset, from there to the end of
its kindling (R317, R326); whether it is lost (R734); and the draw that names the contents its memories had after its last reset
(0: none since manufacture, R730), and the cycle of that reset. -/
structure HalfSt where
  kindled  : Bool := false
  draining : Bool := false
  inReset  : Bool := false
  lost     : Bool := false
  draw     : Nat := 0
  since    : Nat := 0
  keySlots : SMap (BitVec 256 × BitVec 256) := []
  deriving DecidableEq, Repr

/-- An ear's power: the state it is in, or is leaving, and the state it moves to (R110); the deepest state since it was
ON (R109); and the fences its 16 ports had before it left ON, port k in bit k (log 18). -/
structure EarPw where
  now    : EarPower := .on
  goal   : Option EarPower := none
  lost   : EarPower := .on
  fences : Nat := 0
  deriving DecidableEq, Repr

/-- An answer that waits to merge (R301): an ACK status 0 to 3, or 4 for GONE; the root's coordinate, its epoch and the
partition of the write. -/
structure MergeAns where
  st    : Nat
  root  : BitVec 21
  epoch : BitVec 9
  part  : BitVec 6
  deriving DecidableEq, Repr

/-- The answers of one route tag at one router that wait to merge, by port (R301). -/
structure Merge where
  ports : Vector (List MergeAns) 5 := Vector.replicate 5 []
  deriving DecidableEq, Repr

/-- States of a Flue route entry (R328). -/
inductive FlueSt where
  | idle | holding | waiting | refused
  deriving DecidableEq, Repr

/-- A Flue route entry (R305, R306, R328): its fields, the credits held, the request outstanding, whether it backs off after
BUSY, whether its refusal has been told, and whether an abandonment cleared it and it waits for the beat (R309). -/
structure FlueEntry where
  valid   : Bool := false
  part    : BitVec 6 := 0
  dy      : BitVec 10 := 0
  dx      : BitVec 10 := 0
  cw      : BitVec 2 := 0
  chunk   : BitVec 8 := 0
  st      : FlueSt := .idle
  balance : Nat := 0
  asked   : Option Nat := none
  backoff : Bool := false
  told    : Bool := false
  cleared : Bool := false
  deriving DecidableEq, Repr

/-- What a Winnow's far access is for (R333, R355): a KV write, the read of a row whose bytes it replaces in part (address,
first byte, count, value), rows of the page being read, or rows of a shared frame being copied (R360). -/
inductive WinUse where
  | write
  | merge (addr lo n val : Nat)
  | page (row n : Nat)
  | cow (row : Nat)
  deriving DecidableEq, Repr

/-- Who awaits a response (R277: the requester chooses the request identifier). -/
inductive Requester where
  /-- A PUT of a grain; whether its target lies in the grain's own sheaf (R95). -/
  | put (g : Nat) (own : Bool)
  /-- A multicast PUT of a grain, known by its tag (R96, R302). -/
  | mput (g : Nat) (tag : Nat)
  /-- One packet of a transfer row of a descriptor of a grain or binder: the local offset a READ's rows go to, and
  whether it is a WRITE whose row begins in the issuer's own sheaf (R93, R95). -/
  | dma (u : Issuer) (desc row loff : Nat) (own : Bool)
  /-- A LOCK attempt: whether the lock lies in the issuer's own sheaf (R95, R98), and whether its LOCK instruction still waits for
  it; the status of an abandoned one is discarded (R64). -/
  | lock (u : Issuer) (own live : Bool)
  /-- A binder's register access; for a read its destination (R114). -/
  | reg (sh : Nat) (rd : Option Nat)
  /-- A credit request of a Flue entry: bridge, direction, index, window, and the destination it was made for (R306, R310). -/
  | flue (b dir idx cw : Nat) (dst : BitVec 21)
  /-- A credit request (rows 0) or a packet of rows of a Granary loader's descriptor for one of its targets (R466,
  R467); a multicast packet names its tag. -/
  | loader (field desc tgt rows : Nat) (tag : Option Nat)
  /-- A packet of a host DMA verb: the host port, the verb's number, the packet's byte offset, its rows (R583). -/
  | host (port verb off rows : Nat)
  /-- A credit request (rows 0) or a packet of rows of a piece of a received SEND (R607). -/
  | recv (die id piece rows : Nat)
  /-- A far or crib access of a Winnow's job (R333). -/
  | winnow (sh job : Nat) (use : WinUse)
  /-- The read of rows of a send descriptor from a row on (R606). -/
  | sendRead (die id off rows : Nat)
  deriving DecidableEq, Repr

/-- The owner of a local port: a grain, a sheaf port, a companion die, or a Granary read port (R293, R733, R782). -/
inductive Port where
  | grain (g : Nat)
  | sheaf (sh : Nat)
  | die (d : Nat)
  | granary (f : Nat)
  deriving DecidableEq, Repr

/-- A request or write that awaits its response: the router it was sent from, its identifier, and whose it is. -/
structure Req where
  at_ : Nat
  rid : Nat
  who : Requester
  deriving DecidableEq, Repr

/-- The events of the module (R750). -/
inductive Ev where
  | addrFault | grainFault | ergotThreshold | weightPoison | mxuIndexFault
  | tallyOverflow | creditOverrun | spdUncorrectable | meshLinkUe | creditViolation
  | meshTagFault | flueNoRoute | flueCreditRefused | drainTimeout | kvLost
  | winnowFault | framePoolEmpty | requestStalled | reportMalformed | hopperPassCut
  | outputRingFull | deadlineMissed | modelWanted | swingChange | expertSpillHigh
  | moePendingFull | granaryUe | modelDegraded | loadFault | commitSuspended
  | commitExpired | granaryTempHold | refreshBlocked | wearNotice | blockRetired
  | wearReadonly | binUe | binHotRefresh | binFailed | cribUe
  | cribLost | cribReturned | cribRefused | streamFault | imageLoaded
  | imageFailed | partitionFailed | patchApplied | quiesceTimeout | relocated
  | relocateFailed | reserveLow | keyChanged | eventsLost | hostPortDown
  | hostFetchFault | hostWriteFault | linkUp | linkDown | linkFailed
  | linkRefused | roleConflict | roleDeadlock | rickChanged | coordChanged
  | sweepIncomplete | sendFault | cadenceLocked | cadenceSource | cadenceHoldover
  | cadenceFreerun | cadenceStep | cadenceOffset | ref10mLost | beatChanged
  | calDone | calFailed | feedOutOfRange | feedLost | feedRestored
  | converterFault | railFault | powerCapped | capUnreachable | crackSuspect
  | phaseShed | fieldUnderpowered | inputLost | emberDisagree | emberWeak
  | emberTestDone | thermalThrottle | thermalRate | thermalTrip | thermalSensorFault
  | thermIn | coolantMargin | coolantFlowAbsent | coolantStop | coolantInletHigh
  | bankingGap | demandCompliance | kindlingDone | defectMapChanged | fieldRetired
  | unitFailed | halfLost | resetDone | fenceMismatch | damperFailover
  | damperStandbyLost | binderUe | fenceInput | chatter | stuck
  deriving DecidableEq, Repr

/-- An event raised (R21 to R24, R584): what, whose partition if any, the raising unit, the time, its detail fields. -/
structure EventRec where
  ev     : Ev
  part   : Option Nat
  scope  : Nat
  unit   : Nat
  time   : Nat
  detail : BitVec 128
  deriving DecidableEq, Repr

/-- The latch of a 64-bit quantity for one initiator (R18, R19): the quantity's low address, who, whether the read
latch (true) or the held low write (false), and the word. -/
structure Latch where
  addr : Nat
  ini  : Initiator
  read : Bool
  val  : Word
  deriving DecidableEq, Repr


/-- One query head of a job in computation (R359): the running maximum, the sum and the accumulator. -/
structure WHead where
  m : Nat := 0xFF800000
  l : Nat := 0
  o : List Nat := []
  deriving DecidableEq, Repr

/-- A job in flight (R346, R348, R354): its number and record, the directory entry read at intake, the rotated query heads,
the bytes to write into the frame (offset, count, value) until they are written, the beats waited for a frame, far writes
unanswered, the next page with its PTE once read, far rows arrived and packets awaited, the heads, whether its pages are
done, whether its LAST descriptor is consumed, why it failed, the new frame and the shared PTE of a copy whose rows are on
their way (R360), and the frames a scrub found lost while it computed (R367). -/
structure WJob where
  id    : Nat
  row0  : BitVec 128
  row1  : BitVec 128
  dir   : BitVec 128 := 0
  q     : List (List Nat) := []
  write : Option (List (Nat × Nat × Nat)) := none
  wait  : Option Nat := none
  left  : Nat := 0
  begun : Bool := false
  page  : Nat := 0
  pte   : Option (BitVec 128) := none
  rows  : List (Nat × BitVec 128) := []
  asked : Nat := 0
  heads : List WHead := []
  done  : Bool := false
  last  : Bool := false
  fail  : Option Nat := none
  cow   : Option (Nat × BitVec 128) := none
  told  : List Nat := []
  deriving DecidableEq, Repr

/-- A Winnow and its Gleaner (R330 to R366): jobs in flight, oldest first; the look-aside buffer by place, each entry its
tag and PTE, and the next place (R350); chaff commands that wait (slot and command word, R362); the rounding generators,
none while they hold the seeds of the module reset (R358); the Ergot tag and counts not yet posted. -/
structure Winnow where
  jobs  : List WJob := []
  lab   : SMap (Nat × BitVec 128) := []
  labAt : Nat := 0
  chaff : List (Nat × Word) := []
  lfsr  : Option (Vector (BitVec 16) 64) := none
  tag   : Nat := 0xFFF
  ergot : ErgotAcc := {}
  deriving DecidableEq, Repr

/-- A DMA stream taken from its sheaf's ring and not yet passed by its head (R510 to R515): its ring index and rows, the next
grain to place, descriptors not yet ended, failed grains, whether its descriptor is bad, and whether it has ended. -/
structure StreamRun where
  id     : Nat
  index  : Nat
  row0   : BitVec 128
  row1   : BitVec 128
  next   : Nat := 0
  left   : Nat := 0
  failed : Nat := 0
  bad    : Bool := false
  ended  : Bool := false
  deriving DecidableEq, Repr

/-- A sheaf's binder, memories, lock words and DMA streams (R112, R42, R253, R513), its Winnow (R330), and the gated cycles of its ears'
MXU clock spines: by ear, a cycle and the count at it, the spine being stopped since (R210, R222). -/
structure Sheaf where
  core    : Core := {}
  nc      : Vector (BitVec 16) 8 := Vector.replicate 8 0
  bmem    : Mem := {}
  bpoison : List Nat := []
  scrubRow : Nat := 0
  scrubFix : Option Nat := none
  rot     : Mem := {}
  locks   : SMap Lock := []
  wnw     : Winnow := {}
  streams : List StreamRun := []
  streamTurn : Nat := 0
  spine   : SMap (Nat × Nat) := []
  deriving DecidableEq, Repr

/-- A bin (R486, R499): its bytes, the lines poisoned (R495), the patrol's next line and the line it has read corrected
and not yet written back (R497), and the window table in force (R500). -/
structure BinSt where
  mem    : Mem := {}
  poison : List Nat := []
  cursor : Nat := 0
  fix    : Option Nat := none
  wins   : SMap Word := []
  deriving DecidableEq, Repr

/-- A crib slot's allocation entries in force (R505), and whether the crib that is BINDING returns after a loss (R508). -/
structure CribSt where
  allocs : SMap Word := []
  back   : Bool := false
  deriving DecidableEq, Repr


/-- What a data-capable block holds or waits for (R436, R453, R456, R477, R480). -/
inductive BlkSt where
  /-- In the free pool, erased or not. -/
  | free
  /-- Reserved by or programmed for a model or committal. -/
  | used
  /-- Freed, but still read by a load that began before (R456, R477). -/
  | dying
  | retired
  deriving DecidableEq, Repr

/-- A physical block of a region (R435, R436): its P/E count, whether it is erased, its length in bytes, its contents as
plaintext (R444: encryption is visible nowhere), its reads since programming (R476), its refresh mark (R475, R476) and
its poisoned codewords (R474). -/
structure GBlock where
  st     : BlkSt := .free
  pe     : Nat := 0
  erased : Bool := true
  len    : Nat := 0
  data   : Mem := {}
  reads  : Nat := 0
  marked : Bool := false
  poison : List Nat := []
  deriving DecidableEq, Repr

/-- A journal record (R457, R458): kind, namespace, handle, committal, model block, physical block, P/E count, time and
the fields of DATA, in the order R458 lists them. -/
structure JRec where
  kind   : Nat
  nsid   : Nat := 0
  handle : Nat := 0
  commit : Nat := 0
  mblock : Nat := 0
  region : Nat := 0
  phys   : Nat := 0
  pe     : Nat := 0
  time   : Nat := 0
  data   : List Nat := []
  deriving DecidableEq, Repr

/-- A COMMIT_DATA in a region (R453, R454): the verb, its partition's function, the committal and model block, the bytes,
the physical block being programmed, and whether it is held (R479). -/
structure ProgJob where
  verb   : Nat
  commit : Nat
  mblock : Nat
  bytes  : Mem
  len    : Nat
  phys   : Option Nat := none
  held   : Bool := false
  deriving DecidableEq, Repr

/-- A destination grain of a load descriptor: rows sent, rows whose packets are acknowledged, whether it waits for
credit or backs off (R467). -/
structure LoadTgt where
  grain : Nat
  sent  : Nat := 0
  acked : Nat := 0
  asked : Bool := false
  back  : Bool := false
  got   : Nat := 0
  deriving DecidableEq, Repr

/-- A running load descriptor (R464 to R471): the ring and index or the MODEL_LOAD verb it came from, its rows, the
namespace it reads, the LOADS group of an image it belongs to (65536 × partition + group, R545) and the one sheaf it serves (R560), the physical block and length of each namespace block it covers as the descriptor began (R477), its targets, packets unanswered, SENDs unanswered by tag and link (R470), and the reason it failed. -/
structure LoadRun where
  id    : Nat
  ring  : Option Nat
  index : Nat
  verb  : Option Nat
  img   : Option Nat := none
  only  : Option Nat := none
  row0  : BitVec 128
  row1  : BitVec 128
  nsid  : Nat
  part  : Nat
  src   : SMap (Nat × Nat × Nat) := []
  tgts  : List LoadTgt := []
  left  : Nat := 0
  tags  : List (Nat × Nat) := []
  fault : Option Nat := none
  deriving DecidableEq, Repr

/-- A field's Granary region and its loader (R435, R463): blocks, the pages of the region journal as written (R457), COMMIT_DATA verbs in arrival order,
the descriptors running and the MODEL_LOAD queue, the round-robin turn, ring indices ended out of order, the
scrubber's next block and page. -/
structure Region where
  blocks  : SMap GBlock := []
  journal : List (BitVec 512) := []
  jobs    : List ProgJob := []
  runs    : List LoadRun := []
  queue   : List LoadRun := []
  turn    : Nat := 0
  taken   : Vector Nat 8 := Vector.replicate 8 0
  ended   : List (Nat × Nat) := []
  scrub   : Nat := 0
  blocked : Bool := false
  deriving DecidableEq, Repr

/-- States of a model or committal (R446). -/
inductive GmSt where
  | open_ | suspended | sealed | degraded
  deriving DecidableEq, Repr

/-- A committal or model (R443 to R446, R449, R451, R452): its placement as (region, blocks), the physical block of each
model block done, whether it is a repair and of which model, and the seconds it has been suspended. -/
structure Model where
  commit : Nat
  nsid   : Nat
  handle : Nat
  part   : Option Nat := none
  st     : GmSt
  base   : Nat
  blocks : Nat
  place  : List (Nat × Nat) := []
  done   : SMap (Nat × Nat × Nat) := []
  repair : Bool := false
  time   : Nat := 0
  idle   : Nat := 0
  deriving DecidableEq, Repr

/-- A namespace (R440, R444): its quota and its two keys. -/
structure Ns where
  quota : Nat
  key1  : BitVec 256
  key2  : BitVec 256
  deriving DecidableEq, Repr

/-- The Granary (R435 to R482): regions by field, namespaces, models and committals, the next COMMIT_ID, and the two
copies of the master journal, page by page (R457). -/
structure Granary where
  regions : SMap Region := []
  spaces  : SMap Ns := []
  models  : List Model := []
  nextId  : Nat := 0
  master0 : List (BitVec 512) := []
  master1 : List (BitVec 512) := []
  deriving DecidableEq, Repr


/-- A host function's records that wait for its event ring (R586): held in order, and the counts lost by severity; the
pass of the ring. -/
structure EvQueue where
  held : List EventRec := []
  lost : Vector Nat 4 := Vector.replicate 4 0
  pass : Bool := false
  deriving DecidableEq, Repr

/-- A host command fetched and not yet completed (R577, R578): the model's own number for it, its function, ring, header
and operand rows, whether it has started, whether its completion is discarded (R588, R589); for a DMA verb the packets
unanswered, the bytes done and the status that stops it (R583). -/
structure Verb where
  id     : Nat
  fn     : Nat
  ring   : Nat
  code   : Nat
  tag    : Nat
  irq    : Bool
  order  : Bool
  op0    : BitVec 128
  op1    : BitVec 128
  res    : Nat
  started : Bool := false
  silent : Bool := false
  left   : Nat := 0
  bytes  : Nat := 0
  stop   : Option (Nat × Nat) := none
  aux    : Nat := 0
  deriving DecidableEq, Repr

/-- A completion that waits for space in its ring (R579). -/
structure Cpl where
  fn     : Nat
  ring   : Nat
  tag    : Nat
  verb   : Nat
  status : Nat
  irq    : Bool
  time   : Nat
  data   : BitVec 128
  deriving DecidableEq, Repr

/-- What the module sends to a host: rows written to host memory through a port, and MSI-X messages (R572, R579, R584,
R587). -/
inductive HostMsg where
  | write (port addr : Nat) (rows : List (BitVec 128))
  | msi (port fn vector : Nat)
  deriving DecidableEq, Repr

/-- An interrupt vector of a function: whether its gap runs, and whether a signal waits for the gap's end, and on which port (R587). -/
structure IrqSt where
  gap  : Bool := false
  pend : Bool := false
  port : Nat := 0
  deriving DecidableEq, Repr

/-- The host side (R569 to R590): doorbell tails and completion-ring passes by 8 × function + ring, commands fetched,
completions waiting, what was sent to the hosts (newest last), interrupt vectors by 16 × function + vector. -/
structure HostIf where
  tails  : SMap Nat := []
  passes : SMap Bool := []
  verbs  : List Verb := []
  nextId : Nat := 0
  cpls   : List Cpl := []
  sent   : List HostMsg := []
  irqs   : SMap IrqSt := []
  deriving DecidableEq, Repr


/-- A message of a CONTROL frame (R595): role frames, link-state and topology records, sweep tokens and their handshake,
cadence words and delay messages, calibration requests. -/
inductive Ctl where
  | roleReq (round : Nat) (cadence want : Bool)
  | roleAck (round : Nat)
  | roleNak (round : Nat)
  | linkState (r : LsRecord)
  | topology (r : TopoRecord)
  | token (t : SweepTok)
  | tokenAck (seq : Nat)
  | cadence (w : CadWord)
  | delay
  | cal (lane : Nat)
  | confirm
  deriving DecidableEq, Repr

/-- What a frame a link sent carries (R593, R594): transactions or a control message, with its SEQ. -/
structure FrameTx where
  seq : Nat
  txn : Option Txn := none
  ctl : Option Ctl := none
  deriving DecidableEq, Repr

/-- A role request outstanding on a link (R609, R610): its verb, the role and the wish, the round, failed rounds, whether
it is withdrawn until the partner's round ends, whether it has crossed before, and whether it was accepted and waits for the
beat. -/
structure RoleAsk where
  verb     : Nat
  cadence  : Bool
  want     : Bool
  round    : Nat
  fails    : Nat := 0
  withdrawn : Bool := false
  crossed  : Bool := false
  accepted : Bool := false
  deriving DecidableEq, Repr

/-- A Draught link (R592 to R601): training tries, lanes with signal, the partner; the frame sequence each way, frames
not yet acknowledged (the replay buffer), credits each way, units received and not returned, rejected replays in a row,
frames since the last acknowledgement sent, transactions that wait for credit, transactions arrived; the key phase; the
role request of each end, the change accepted from the partner, and LINK_RETRAIN verbs that wait; the link delay measured (R640)
and the lane that sends the training pattern (R651). -/
structure Link where
  tries   : Nat := 0
  signal  : Nat := 0
  peer    : Option Ident := none
  txSeq   : Nat := 0
  rxSeq   : Option Nat := none
  replay  : List FrameTx := []
  credReq : Nat := 0
  credRsp : Nat := 0
  owedReq : Nat := 0
  owedRsp : Nat := 0
  rejects : Nat := 0
  unacked : Nat := 0
  ackSent : Nat := 0
  naks    : Nat := 0
  wait    : List Txn := []
  arrived : List Txn := []
  phase   : Bool := false
  frames  : Nat := 0
  ask     : Option RoleAsk := none
  given   : Option (Bool × Bool) := none
  retrain : List Nat := []
  delay   : Nat := 0
  cal     : Option Nat := none
  deriving DecidableEq, Repr

/-- A crib transaction the port die keeps until it is answered (R506): its tag, slot, the mesh request, and how many
times it has been resent on the present port. -/
structure CribTx where
  tag   : Nat
  slot  : Nat
  pkt   : Packet
  at_   : Nat
  tries : Nat := 0
  deriving DecidableEq, Repr

/-- A running send descriptor of a port die (R606, R607): ring and index, its sheaf, its rows, rows being read and SENDs
unanswered, the tags and links of those SENDs, and the reason it failed. -/
structure SendRun where
  id    : Nat
  die   : Nat
  ring  : Nat
  index : Nat
  sh    : Nat
  row0  : BitVec 128
  row1  : BitVec 128
  left  : Nat := 0
  tags  : List (Nat × Nat) := []
  fault : Option Nat := none
  deriving DecidableEq, Repr

/-- The rows of a received SEND that go to one grain (R607): the grain, its first scratchpad row, the first body row, how
many, how many sent, and whether the credit request was answered BUSY. -/
structure RecvPiece where
  grain : Nat
  row   : Nat
  off   : Nat
  n     : Nat
  sent  : Nat := 0
  back  : Bool := false
  deriving DecidableEq, Repr

/-- A received SEND that is being placed (R470, R607): its number, where it arrived, the partition, the channel's
descriptor, the pieces, answers awaited, and the status if it failed. -/
structure RecvRow where
  id    : Nat
  die   : Nat
  link  : Nat
  txn   : Txn
  part  : Nat
  row0  : BitVec 128
  row1  : BitVec 128
  pieces : List RecvPiece := []
  left  : Nat := 0
  bad   : Option Nat := none
  deriving DecidableEq, Repr

/-- Sweeps (R611, R612): the last sequence number this module used, the token of its own sweep in progress as it last left
here, the RICK_SWEEP verbs that wait, the token kept until its receiver acknowledges with the port and link it left by, the
tokens acknowledged (log 50), and the last sweep that completed (R621). -/
structure Sweep where
  seq     : Nat := 0
  running : Option SweepTok := none
  verbs   : List Nat := []
  kept    : Option (SweepTok × Nat × Nat) := none
  seen    : List (Nat × Bool × Bool × Nat) := []
  done    : Nat := 0
  deriving DecidableEq, Repr

/-- The rick as this module knows it (R602 to R604): its own record's version, the newest record of each serial, the
topology, and the sweep. -/
structure Rick where
  version : Nat := 0
  records : List LsRecord := []
  topo    : Option TopoRecord := none
  sweep   : Sweep := {}
  deriving DecidableEq, Repr



/-- Who serves a local port, as the active Damper's record has it (R735). -/
inductive PortRec where
  | fenced | running | resetting | failed
  deriving DecidableEq, Repr

/-- States of a Hopper entry (R383). -/
inductive HState where
  | free | queued | deferred | prefill | decode | cancelling | done | refused | failed | cancelled
  deriving DecidableEq, Repr

/-- A TOKEN report's content (R403): position, token, whether a contribution was spilled, spills, and the draft index of a
tentative one. -/
structure Tok where
  pos    : Nat
  token  : Nat
  spill  : Bool := false
  spills : Nat := 0
  didx   : Nat := 0
  deriving DecidableEq, Repr

/-- A Hopper entry (R381, R382), with the order of its submission (R394), the tentative tokens held (R414, R415), and the
model rows whose slots it holds (R395, R398). -/
structure HEntry where
  cookie    : BitVec 32 := 0
  model     : BitVec 16 := 0
  draft     : BitVec 16 := 0
  gen       : BitVec 8 := 0
  specK     : Nat := 0
  eager     : Bool := false
  stream    : Bool := false
  late      : Bool := false
  quar      : Bool := false
  prio      : Nat := 0
  part      : Nat := 0
  reason    : Nat := 0
  st        : HState := .free
  deadline  : Nat := 0
  dkv       : Nat := 0
  kv        : Nat := 0
  inputLen  : Nat := 0
  maxLen    : Nat := 0
  length    : Nat := 0
  generated : Nat := 0
  estBeat   : Nat := 0
  input     : Nat := 0
  spills    : Nat := 0
  stall     : Nat := 0
  admitted  : Nat := 0
  order     : Nat := 0
  held      : List Tok := []
  rowM      : Option Nat := none
  rowD      : Option Nat := none
  deriving DecidableEq, Repr

/-- An output record that waits for its ring (R408): its entry's index, generation and cookie, and its kind. -/
inductive OutKind where
  | token (tent : Bool) (t : Tok)
  | retract (first count : Nat)
  | final (st reason generated spills : Nat)
  deriving DecidableEq, Repr
structure OutRec where
  entry  : Nat
  gen    : BitVec 8
  cookie : BitVec 32
  kind   : OutKind
  deriving DecidableEq, Repr

/-- A pending expert charge (R424): its entry's name, the expert and the charges by draft index. -/
structure MoeCharge where
  part   : Nat
  entry  : Nat
  gen    : BitVec 8
  expert : Nat
  tent   : Nat
  deriving DecidableEq, Repr

/-- A swing group (R419, R420): its role (none: INIT_ROLE's reset value), the change decided and its beat, the beats it has
qualified and held its role. -/
structure Swing where
  role   : Option Nat := none
  change : Option (Nat × Nat) := none
  streak : Nat := 0
  held   : Nat := 0
  deriving DecidableEq, Repr

/-- A report ring (R402): the record at its head's number of records consumed since HEAD was written, the head, the pass, and
the report consumed and not yet applied. -/
structure RepRing where
  head  : Nat := 0
  pass  : Bool := false
  since : Nat := 0
  hand  : Option (BitVec 128 × BitVec 128) := none
  deriving DecidableEq, Repr

/-- What the Hopper keeps for a partition: dispatch records that wait and the ring's tail (R400), the ERG_REF_CTRL copied
to its header, with the ring's location and layout at the copy, output records held and the output ring's pass (R408, R410), whether the run of full rings and of cut passes has been
told (R393, R410), the candidates the last pass did not reach, rows whose MODEL_WANTED run has been told (R392), slots each
row regained in this beat (R396), the next order of submission, and the slots, by row, that released quarantined entries
still keep from their pools (R398). -/
structure HPart where
  disp     : List (BitVec 128 × BitVec 128) := []
  dispTail : Nat := 0
  refCopy  : Word × Word × Word := (0, 0, 0)
  out      : List OutRec := []
  outPass  : Bool := false
  fullTold : Bool := false
  cutTold  : Bool := false
  cut      : Nat := 0
  wanted   : List Nat := []
  regained : SMap Nat := []
  order    : Nat := 0
  withheld : List (Nat × Nat) := []
  deriving DecidableEq, Repr

/-- The Hoppers (R378): entries by 32 768 × table + index; parts; report rings by 16 × partition + ring; pending charges by
table; experts disarmed and spills of the beat by 1 024 × partition + expert (R426); swing groups by 16 × partition + group;
model rows to change at the next beat: partition, handle, state (R392, R447). -/
structure Hopper where
  entries : SMap HEntry := []
  parts   : SMap HPart := []
  rings   : SMap RepRing := []
  charges : List MoeCharge := []
  off     : List Nat := []
  spill   : SMap Nat := []
  swings  : SMap Swing := []
  models  : List (Nat × Nat × Nat) := []
  deriving DecidableEq, Repr



/-- A CAD_STEP that is pending (R633, R653, R781): its size, and its verb. -/
structure CadStep where
  delta : Int
  verb  : Nat
  deriving DecidableEq, Repr

/-- Cadence (R622 to R642): the grid point of the next boundary; the CAD_STEP, the first-lock step to its source's offset, and
the β (in µs, with its verb) that are pending;
which sources are qualified, and since when; since when the offset has stayed within LOCK_NS, and beyond four times it; REF_1PPS intervals in a row that were good and bad; since when a PTP master's messages have come, and
whether a delay response has; since when valid cadence words have come, and the HOPS of the last; the last source used and when
it was taken; whether the offset is past the alarm; when holdover began; whether a gap is on. -/
structure Cadence where
  next     : Nat := 250000
  step     : Option CadStep := none
  first    : Option Int := none
  beta     : Option (Nat × Nat) := none
  quals    : Vector Bool 4 := Vector.replicate 4 false
  qualAt   : Vector Nat 4 := Vector.replicate 4 0
  nearAt   : Option Nat := none
  farAt    : Option Nat := none
  ppsGood  : Nat := 0
  ppsBad   : Nat := 0
  ptpSince : Option Nat := none
  ptpResp  : Bool := false
  wordSince : Option Nat := none
  hops     : Nat := 0
  last     : Nat := 0
  taken    : Nat := 0
  alarm    : Bool := false
  holdFrom : Nat := 0
  gap      : Bool := false
  deriving DecidableEq, Repr

/-- A calibration run (R646): its number, verb, operand and first beat, the units still to measure as target and unit, and the
shadow table of trims by 512 × target + unit. -/
structure CalRun where
  num    : Nat
  verb   : Nat
  op     : Nat
  beat   : Nat
  left   : List (Nat × Nat)
  shadow : SMap Nat := []
  deriving DecidableEq, Repr

/-- Calibration: the run in progress, and the figures of the last run (R653). -/
structure Cal where
  run  : Option CalRun := none
  figs : SMap (Nat × Nat) := []
  deriving DecidableEq, Repr


/-- The unit or domain a reset covers (R730, R731). -/
inductive Domain where
  | grain (g : Nat)
  | sheaf (sh : Nat)
  | field (f : Nat)
  | part (p : Nat)
  | half (h : Nat)
  deriving DecidableEq, Repr

/-- A reset under way (R732): the model's number for it, its domain, the verbs that wait for it, the cycle its ports were
fenced, whether it has drained and reinitialised, for a half whether it tests anew; whether FENCE_N began it (R742). -/
structure ResetRun where
  id      : Nat
  dom     : Domain
  verbs   : List Nat := []
  at_     : Nat
  drained : Bool := false
  retest  : Bool := false
  fence   : Bool := false
  deriving DecidableEq, Repr

/-- A field's record in the defect map (R722): status, cause, wave, tester and time, and by physical row the bypassed
columns where they are not the default 48 and 97. -/
structure FieldRec where
  status : Nat := 0
  cause  : Nat := 0
  wave   : Nat := 0
  tester : Nat := 0x7F
  time   : Nat := 0
  rows   : SMap (Nat × Nat) := []
  deriving DecidableEq, Repr

/-- The kindling of a half (R719): waves run, fields with their wave, tester, time and findings, and whether testing has ended. -/
structure Kindling where
  waves  : Nat := 0
  tested : SMap (Nat × Nat × Nat × FieldTest) := []
  ended  : Bool := false
  began  : Nat := 0
  deriving DecidableEq, Repr

/-- What the Dampers keep in their non-volatile store, across resets and power loss (R531, R549, R722, R726): the field
records, the failed sheaves in order with their causes, reserves recorded FAILED, the key slots, whether the key store is
locked, the number of the present nonce's draw, module resets since manufacture and the cause of the last, the trims in force and
their figures by 512 × target + unit, and commits (R650, R657). -/
structure Store where
  fields  : SMap FieldRec := []
  failed  : List (Nat × Nat) := []
  badRes  : List Nat := []
  keys    : SMap Nat := []
  locked  : Bool := false
  nonce   : Nat := 0
  resets  : Nat := 1
  cause   : Nat := 1
  trims   : SMap Nat := []
  figs    : SMap (Nat × Nat) := []
  commits : Nat := 0
  deriving DecidableEq, Repr

/-- The Dampers (R738 to R740): which is active, whether a working standby is present, heartbeats missed in a row, whether
both are lost; fence mismatches of the last audit, and whether the next audit is not compared. -/
structure Damper where
  db      : Bool := false
  standby : Bool := true
  missed  : Nat := 0
  lost    : Bool := false
  seen    : List Nat := []
  skip    : Bool := false
  deriving DecidableEq, Repr

/-- A sideband input (R741, R751): raw level, state in force, chattering, told stuck. -/
structure SideIn where
  raw     : Bool := false
  inForce : Bool := false
  chatter : Bool := false
  stuck   : Bool := false
  deriving DecidableEq, Repr

/-- Faults and resets under way (R718 to R748): resets (R732); kindlings by half (R719); the Dampers; the sideband inputs by
number (R741); the partitions that ran when FENCE_N was asserted (R742); those held FAILED by a lost half (R734); whether
RESET_MODULE's 1 ms runs (R746); the uncorrectable scratchpad words each sheaf's grains have found, by grain, each with its
time (R725); partition sheaves that AUTO_RESCUE has yet to move (R728). -/
structure Faults where
  resets    : List ResetRun := []
  kindling  : SMap Kindling := []
  damper    : Damper := {}
  inputs    : SMap SideIn := []
  fenceHeld : List Nat := []
  halfHeld  : List Nat := []
  moduleDue : Bool := false
  ueWords   : SMap (List (Nat × Nat)) := []
  rescues   : List Nat := []
  deriving DecidableEq, Repr

/-- A stoke notice accepted (R670, R671): the binder's sheaf, the cycle t + L, the step in mA, and whether the regulation has
been pre-positioned for it (R672). -/
structure Notice where
  sheaf  : Nat
  at_    : Nat
  step   : Int
  placed : Bool := false
  deriving DecidableEq, Repr

/-- The ramp flags of a field's grains (R675): those that are clear. All are, or those of sheaves and single grains named. -/
structure RampFlags where
  all     : Bool := true
  sheaves : List Nat := []
  grains  : List Nat := []
  deriving DecidableEq, Repr

/-- Power of a field (R664 to R679): the crack detector, the phases shed and parked, the setpoint in mV and when it last moved,
the last sample, R_path in µΩ, D_ramp, D_phase and D_crack, the least of the other duties that took effect at the last window
boundary, the ramp flags, the notices held, the regulation's pre-position in mA; and runs of samples: with excess, without it,
of each phase measuring low, of each rail off its setpoint, of current past R679's limit. -/
structure FieldPw where
  crack     : Bool := false
  armed     : Bool := true
  fenced    : Bool := false
  shed      : Nat := 0
  parked    : Nat := 0
  setpoint  : Nat := 700
  moved     : Option Nat := none
  sense     : Nat := 0
  coreAmps  : Nat := 0
  sramAmps  : Nat := 0
  drop      : Int := 0
  predicted : Nat := 0
  rpath     : Nat := 0
  ramp      : Nat := 64
  phase     : Nat := 256
  crackDuty : Nat := 256
  inForce   : Nat := 256
  flags     : RampFlags := {}
  notices   : List Notice := []
  posn      : Int := 0
  excess    : Nat := 0
  quiet     : Nat := 0
  low       : List Nat := []
  rails     : List Nat := []
  heavy     : Nat := 0
  deriving DecidableEq, Repr

/-- Power of the module (R658 to R685): the feeds in use, those told out of range, the working converters (bit 3 is A0), the
54 V bus, the last meter reading, D_cap, since when it has been 64 with the input above the cap, and whether the cap's unreachability was told; the Ember store: C_m in µF, the
voltage at the start of the discharge test in progress, E_g - E_v at its re-zeroing, whether a test is due, the EMBER_TEST verbs
with the time each was asked, the time of the last test, whether exactly one estimate permitted, whether programming is held,
the hold-up rail and the bleed; INPUT_LOST records to post at the restart (R745); and the fields. -/
structure Power where
  use     : Vector Bool 2 := Vector.replicate 2 true
  outTold : Vector Bool 2 := Vector.replicate 2 false
  conv    : Nat := 15
  bus     : Bool := true
  meter   : PowerMeter := ⟨8000, 0, 8000, 0, 0, 5400, 0, 48000, 9002⟩
  cap     : Nat := 256
  capTold : Bool := false
  capSince : Option Nat := none
  uf      : Nat := 10420
  test    : Option Nat := none
  diff    : Int := 0
  weak    : Bool := false
  due     : Bool := false
  verbs   : List (Nat × Nat) := []
  tested  : Nat := 0
  split   : Bool := false
  held    : Bool := false
  holdup  : Bool := false
  bleed   : Bool := false
  lostRec : List EventRec := []
  fields  : SMap FieldPw := []
  deriving DecidableEq, Repr

/-- A threshold with its dwell (R695): whether it is entered, and whether the run of samples that its next change needs goes on. -/
structure Thr where
  on  : Bool := false
  run : Bool := false
  deriving DecidableEq, Repr

/-- A thermal channel (R692 to R709): its last reading in 1/16 °C, earlier readings by time, newest first, as far as R699
looks back, the last rise, rate window and clamp with the calm run before its release, the fault with the run of valid
readings, D_field or D_bin and the time of its last change, the near band, the second threshold of a bin, Granary or inlet channel,
and the trip comparator's run. -/
structure Channel where
  reading : Int := 0
  hist    : List (Nat × Int) := []
  rise    : Int := 0
  window  : Bool := false
  clamp   : Bool := false
  calm    : Bool := false
  fault   : Bool := false
  valid   : Bool := false
  duty    : Nat := 256
  dutyAt  : Nat := 0
  near    : Thr := {}
  level   : Thr := {}
  hot     : Nat := 0
  deriving DecidableEq, Repr

/-- Temperature and cooling (R692 to R717): the channels; the gaps told by 320 × field + neighbour; flow in 0.1 L/min and whether it is
present; the coolant margin; the coolant stop clamp; the trip's record (channel, reading), whether it is latched with the
Dampers in reset, and whether it awaits release; trips since manufacture; the current commanded and measured in µA, and whether the
compliance condition holds. -/
structure Thermal where
  chans   : SMap Channel := []
  gaps    : SMap Thr := []
  flow    : Nat := 0
  present : Bool := false
  margin  : Thr := {}
  stop    : Bool := false
  trip    : Option (Nat × Int) := none
  latched : Bool := false
  await   : Bool := false
  trips   : Nat := 0
  demand  : Nat := 4000
  loop    : Nat := 4000
  comply  : Bool := false
  deriving DecidableEq, Repr


/-- A section of an image (R522): its entry's fields and its body. -/
structure Section where
  kind   : Nat
  part   : Nat
  glob   : Bool
  index  : Nat
  body   : List Byte
  target : Nat := 0
  rep    : Bool := false
  half   : Nat := 0
  x      : Nat := 0
  y      : Nat := 0
  w      : Nat := 1
  h      : Nat := 1
  deriving DecidableEq, Repr

/-- A checked image (R521): its header's fields and its sections in table order. -/
structure Image where
  patch   : Bool
  slot    : Nat
  id      : Nat
  base    : Nat
  part    : Nat
  secs    : List Section
  deriving DecidableEq, Repr

/-- A reserve sheaf that the loaded image names (R527, R549): its sheaf, and the partition that has adopted it. -/
structure Reserve where
  sh      : Nat
  adopter : Option Nat := none
  deriving DecidableEq, Repr

/-- A partition that starts (R545 step 6, R547): the verbs that wait for it, whether it restarts after a reset, and the first
LOADS group that failed with its reason (R546). -/
structure Start where
  part  : Nat
  verbs : List Nat := []
  reset : Bool := false
  fail  : Option (Nat × Nat) := none
  deriving DecidableEq, Repr

/-- Phases of an operation on a running partition (R552): it waits for rest; its copy goes on (R559); its patch's or image's
loads go on; its RUN words are written and its changes wait for the next boundary. -/
inductive OpPhase where
  | quiesce | copy | act | run
  deriving DecidableEq, Repr

/-- PATCH_APPLY or RELOCATE in progress (R552 to R564): its verb, its partition, the beat it began in and the rest beat, its
phase; the patch it applies and its slot; for RELOCATE the image sheaf moved, where it is and where it goes, RESCUE, RETIRE,
whether a copy met GONE; whether its patch's loads failed, and the status it ends with. -/
structure ImgOp where
  verb    : Option Nat
  part    : Nat
  beat    : Nat
  rest    : Nat := 0
  phase   : OpPhase := .quiesce
  slot    : Option Nat := none
  move    : Bool := false
  image   : Nat := 0
  src     : Nat := 0
  dst     : Nat := 0
  rescue  : Bool := false
  retire  : Bool := false
  rescued : Bool := false
  wrote   : Bool := false
  fail    : Bool := false
  status  : Nat := 0
  deriving DecidableEq, Repr

/-- The staging store (R545, R547, R563): the loaded FULL image, patches applied to it, oldest first, staged patches by slot
with the function that staged them; the verb of an IMAGE_LOAD in progress with whether its loads have ended; the operation
on a partition; partitions that start; the reserves by RESERVE entry. -/
structure ImgStore where
  image    : Option Image := none
  patches  : List Image := []
  slots    : SMap (Nat × Image) := []
  loading  : Option (Option Nat × Bool) := none
  op       : Option ImgOp := none
  starts   : List Start := []
  reserves : SMap Reserve := []
  deriving DecidableEq, Repr

/-- Why the machine stops. -/
inductive Fault where
  /-- No meaning raises it: the block has no stop of its own (R24 to R28; every condition is a next state). Safe. -/
  | none
  deriving DecidableEq, Repr

/-- Why a command has no effect the model can give. -/
inductive Refusal where
  /-- Raised only by the dispatcher, for a command that has no meaning yet. Safe. -/
  | notModelled (mnemonic : String)
  deriving DecidableEq, Repr

/-- The state of the block. -/
structure State where
  /-- The commands waiting, first in first out (the model's own field). -/
  pending : List Instr := []
  /-- FCLK cycles since module reset (R31). -/
  cycle : Nat := 0
  /-- How many free values have been drawn (the model's own field, log 2). -/
  fresh : Nat := 1
  /-- The register file: registers with no other home, by device address; unlisted is the reset value (R12, R20). -/
  regs : SMap Word := []
  /-- Read latches and held low writes (R18, R19). -/
  latches : List Latch := []
  /-- The last word each initiator's register read returned. -/
  regResp : List (Initiator × Word) := []
  /-- The logical grains, by grain number (R58). -/
  grains : SMap Grain := []
  /-- The sheaves, by sheaf number (R112). -/
  sheaves : SMap Sheaf := []
  /-- Ear power, by ear number (R109). -/
  ears : SMap EarPw := []
  /-- Reset epochs of local ports, by port number (R733). -/
  epochs : SMap Nat := []
  /-- The halves (R317, R782). -/
  halves : SMap HalfSt := []
  /-- The bypassed columns that RTR_SPARE shows, as each half's last kindling set them: by field, then by row (R323). -/
  spares : SMap (SMap (Nat × Nat)) := []
  /-- Merge counts, by 64 × router + tag (R301). -/
  merges : SMap Merge := []
  /-- Flue route entries, by 1024 × bridge + 512 × direction + index (R325). -/
  flue : SMap FlueEntry := []
  /-- Writes waiting in the Flue's landing buffers for credit, oldest first (R304, R307). -/
  flueWait : List Flight := []
  /-- Writes that near gateways hold until the landing buffer of their link has room, oldest first (R304). -/
  flueNear : List Flight := []
  /-- Packets in flight in the mesh, oldest first. -/
  mesh : List Flight := []
  /-- Requests and writes that await their response. -/
  reqs : List Req := []
  /-- Ergot posts made and not yet applied, oldest first (R168). -/
  posts : List ErgotPost := []
  /-- Abandon notices on their way: partition and sheaves (R242). -/
  notices : List (Nat × List Nat) := []
  /-- Events already raised in this beat where a rule raises one a beat: event code and unit. -/
  onceBeat : List (Nat × Nat) := []
  /-- The Damper log's count of management-ring writes of the standby Damper that were discarded (R51). -/
  standbyWrites : Nat := 0
  /-- Events held for each function's ring, by partition number (R23, R586). -/
  evq : SMap EvQueue := []
  /-- The Damper log, oldest first: ERROR and FATAL events (R23, R745). -/
  log : List EventRec := []
  /-- Cadence time in nanoseconds (R622). -/
  time : Nat := 0
  /-- Beat number (R634). -/
  beat : Nat := 0
  /-- The sheaf maps of the partitions: PRT_MAP's entries, by 16 × partition + entry (R556, R568). -/
  sheafMap : SMap Word := []
  /-- The bins, by number (R486). -/
  bins : SMap BinSt := []
  /-- The crib slots' allocations in force, by slot (R505). -/
  cribs : SMap CribSt := []
  /-- The Granary (R435). -/
  granary : Granary := {}
  /-- The host side: command rings and records (R569). -/
  host : HostIf := {}
  /-- The Draught links, by 4 × port + link (R592). -/
  links : SMap Link := []
  /-- Crib transactions not yet answered, oldest first (R506). -/
  cribTx : List CribTx := []
  /-- The next Draught transaction tag (R597) and the next number of a send, receive or load in progress. -/
  nextTag : Nat := 0
  /-- Send descriptors running (R606). -/
  sends : List SendRun := []
  /-- SENDs relayed and not yet answered, each with the link it left by (R598, R614). -/
  relays : List (Nat × Txn) := []
  /-- Received SENDs not yet answered (R607). -/
  recvs : List RecvRow := []
  /-- The rick (R602). -/
  rick : Rick := {}
  /-- Partitions whose generators the next beat reseeds (R152, R178). -/
  reseeds : List Nat := []
  /-- The Hoppers' request tables, rings and ledgers (R378). -/
  hop : Hopper := {}
  /-- The active Damper's record of each local port, by port number (R735). -/
  record : SMap PortRec := []
  /-- The Dampers' non-volatile store (R531, R549, R722, R726). -/
  store : Store := {}
  /-- Faults and resets under way (R718 to R748). -/
  flt : Faults := {}
  /-- The staging store, the reserves and the image operation in progress (R544 to R565). -/
  img : ImgStore := {}
  /-- Cadence: sources, steps, boundaries (R622 to R642). -/
  cad : Cadence := {}
  /-- Calibration (R643 to R651). -/
  cal : Cal := {}
  /-- Power delivery and the Ember store (R658 to R691). -/
  pwr : Power := {}
  /-- Temperature, throttling and cooling (R692 to R717). -/
  thm : Thermal := {}
  deriving DecidableEq, Repr

/-- The state right after module reset (R20, R730): every field at its reset value. -/
def State.reset : State := {}

end Sys2Proof.Machine
end

