-- ==== Sys2Proof/Machine/Events.lean ====
section
/-!
DEFINITION. The event codes and severities of R750.
-/
namespace Sys2Proof.Machine

/-- The code of each event (R750). -/
def evCode : Ev → Nat
  | .addrFault => 0x101
  | .grainFault => 0x201
  | .ergotThreshold => 0x301
  | .weightPoison => 0x302
  | .mxuIndexFault => 0x401
  | .tallyOverflow => 0x501
  | .creditOverrun => 0x502
  | .spdUncorrectable => 0x503
  | .meshLinkUe => 0x601
  | .creditViolation => 0x602
  | .meshTagFault => 0x603
  | .flueNoRoute => 0x604
  | .flueCreditRefused => 0x605
  | .drainTimeout => 0x606
  | .kvLost => 0x701
  | .winnowFault => 0x702
  | .framePoolEmpty => 0x703
  | .requestStalled => 0x801
  | .reportMalformed => 0x802
  | .hopperPassCut => 0x803
  | .outputRingFull => 0x804
  | .deadlineMissed => 0x805
  | .modelWanted => 0x806
  | .swingChange => 0x807
  | .expertSpillHigh => 0x808
  | .moePendingFull => 0x809
  | .granaryUe => 0x901
  | .modelDegraded => 0x902
  | .loadFault => 0x903
  | .commitSuspended => 0x904
  | .commitExpired => 0x905
  | .granaryTempHold => 0x906
  | .refreshBlocked => 0x907
  | .wearNotice => 0x908
  | .blockRetired => 0x909
  | .wearReadonly => 0x90a
  | .binUe => 0xa01
  | .binHotRefresh => 0xa02
  | .binFailed => 0xa03
  | .cribUe => 0xa04
  | .cribLost => 0xa05
  | .cribReturned => 0xa06
  | .cribRefused => 0xa07
  | .streamFault => 0xa08
  | .imageLoaded => 0xb01
  | .imageFailed => 0xb02
  | .partitionFailed => 0xb03
  | .patchApplied => 0xb04
  | .quiesceTimeout => 0xb05
  | .relocated => 0xb06
  | .relocateFailed => 0xb07
  | .reserveLow => 0xb08
  | .keyChanged => 0xb09
  | .eventsLost => 0xc01
  | .hostPortDown => 0xc02
  | .hostFetchFault => 0xc03
  | .hostWriteFault => 0xc04
  | .linkUp => 0xc05
  | .linkDown => 0xc06
  | .linkFailed => 0xc07
  | .linkRefused => 0xc08
  | .roleConflict => 0xc09
  | .roleDeadlock => 0xc0a
  | .rickChanged => 0xc0b
  | .coordChanged => 0xc0c
  | .sweepIncomplete => 0xc0d
  | .sendFault => 0xc0e
  | .cadenceLocked => 0xd01
  | .cadenceSource => 0xd02
  | .cadenceHoldover => 0xd03
  | .cadenceFreerun => 0xd04
  | .cadenceStep => 0xd05
  | .cadenceOffset => 0xd06
  | .ref10mLost => 0xd07
  | .beatChanged => 0xd08
  | .calDone => 0xd09
  | .calFailed => 0xd0a
  | .feedOutOfRange => 0xe01
  | .feedLost => 0xe02
  | .feedRestored => 0xe03
  | .converterFault => 0xe04
  | .railFault => 0xe05
  | .powerCapped => 0xe06
  | .capUnreachable => 0xe07
  | .crackSuspect => 0xe08
  | .phaseShed => 0xe09
  | .fieldUnderpowered => 0xe0a
  | .inputLost => 0xe0b
  | .emberDisagree => 0xe0c
  | .emberWeak => 0xe0d
  | .emberTestDone => 0xe0e
  | .thermalThrottle => 0xf01
  | .thermalRate => 0xf02
  | .thermalTrip => 0xf03
  | .thermalSensorFault => 0xf04
  | .thermIn => 0xf05
  | .coolantMargin => 0xf06
  | .coolantFlowAbsent => 0xf07
  | .coolantStop => 0xf08
  | .coolantInletHigh => 0xf09
  | .bankingGap => 0xf0a
  | .demandCompliance => 0xf0b
  | .kindlingDone => 0x1001
  | .defectMapChanged => 0x1002
  | .fieldRetired => 0x1003
  | .unitFailed => 0x1004
  | .halfLost => 0x1005
  | .resetDone => 0x1006
  | .fenceMismatch => 0x1007
  | .damperFailover => 0x1008
  | .damperStandbyLost => 0x1009
  | .binderUe => 0x100a
  | .fenceInput => 0x100b
  | .chatter => 0x100c
  | .stuck => 0x100d

/-- The severity of each event (R22, R750): 0 NOTICE, 1 WARNING, 2 ERROR, 3 FATAL. -/
def evSeverity : Ev → Nat
  | .addrFault => 2
  | .grainFault => 2
  | .ergotThreshold => 1
  | .weightPoison => 2
  | .mxuIndexFault => 2
  | .tallyOverflow => 1
  | .creditOverrun => 2
  | .spdUncorrectable => 2
  | .meshLinkUe => 2
  | .creditViolation => 2
  | .meshTagFault => 2
  | .flueNoRoute => 2
  | .flueCreditRefused => 1
  | .drainTimeout => 2
  | .kvLost => 2
  | .winnowFault => 2
  | .framePoolEmpty => 1
  | .requestStalled => 2
  | .reportMalformed => 2
  | .hopperPassCut => 1
  | .outputRingFull => 1
  | .deadlineMissed => 0
  | .modelWanted => 0
  | .swingChange => 0
  | .expertSpillHigh => 1
  | .moePendingFull => 1
  | .granaryUe => 2
  | .modelDegraded => 2
  | .loadFault => 2
  | .commitSuspended => 1
  | .commitExpired => 2
  | .granaryTempHold => 1
  | .refreshBlocked => 1
  | .wearNotice => 1
  | .blockRetired => 0
  | .wearReadonly => 1
  | .binUe => 2
  | .binHotRefresh => 0
  | .binFailed => 2
  | .cribUe => 2
  | .cribLost => 2
  | .cribReturned => 0
  | .cribRefused => 1
  | .streamFault => 2
  | .imageLoaded => 0
  | .imageFailed => 3
  | .partitionFailed => 3
  | .patchApplied => 0
  | .quiesceTimeout => 1
  | .relocated => 0
  | .relocateFailed => 2
  | .reserveLow => 1
  | .keyChanged => 0
  | .eventsLost => 1
  | .hostPortDown => 1
  | .hostFetchFault => 2
  | .hostWriteFault => 2
  | .linkUp => 0
  | .linkDown => 1
  | .linkFailed => 2
  | .linkRefused => 1
  | .roleConflict => 0
  | .roleDeadlock => 1
  | .rickChanged => 0
  | .coordChanged => 0
  | .sweepIncomplete => 1
  | .sendFault => 2
  | .cadenceLocked => 0
  | .cadenceSource => 0
  | .cadenceHoldover => 1
  | .cadenceFreerun => 2
  | .cadenceStep => 0
  | .cadenceOffset => 1
  | .ref10mLost => 1
  | .beatChanged => 0
  | .calDone => 0
  | .calFailed => 1
  | .feedOutOfRange => 1
  | .feedLost => 1
  | .feedRestored => 0
  | .converterFault => 2
  | .railFault => 3
  | .powerCapped => 1
  | .capUnreachable => 2
  | .crackSuspect => 2
  | .phaseShed => 1
  | .fieldUnderpowered => 2
  | .inputLost => 3
  | .emberDisagree => 1
  | .emberWeak => 2
  | .emberTestDone => 0
  | .thermalThrottle => 1
  | .thermalRate => 1
  | .thermalTrip => 3
  | .thermalSensorFault => 2
  | .thermIn => 1
  | .coolantMargin => 1
  | .coolantFlowAbsent => 1
  | .coolantStop => 2
  | .coolantInletHigh => 1
  | .bankingGap => 0
  | .demandCompliance => 1
  | .kindlingDone => 0
  | .defectMapChanged => 0
  | .fieldRetired => 2
  | .unitFailed => 2
  | .halfLost => 3
  | .resetDone => 0
  | .fenceMismatch => 2
  | .damperFailover => 2
  | .damperStandbyLost => 1
  | .binderUe => 2
  | .fenceInput => 2
  | .chatter => 1
  | .stuck => 1

end Sys2Proof.Machine
end

