-- ==== Sys2Proof/Config.lean ====
section
/-!
DEFINITION. The values the spec leaves open, as constants without a body: nothing in Lean can evaluate one, so a
statement about a free value holds for every value of it. Each is applied to a counter of the state or to the
operands it depends on (assumption log 2).
-/
namespace Sys2Proof.Config

/-- An unpredictable 32-bit value (R26), at the given draw. -/
opaque freeWord : Nat → Word
/-- An unpredictable 64-bit value (R26), at the given draw. -/
opaque freeDouble : Nat → BitVec 64
/-- An unpredictable 512-bit vector (R26), at the given draw. -/
opaque freeVec : Nat → BitVec 512
/-- The byte an address reads as in a memory whose contents a reset or a power-down left unpredictable (R26):
the draw made then, and the address. -/
opaque freeByte : Nat → Nat → Byte
/-- An unpredictable flag or choice (R26), at the given draw. -/
opaque freeBool : Nat → Bool
/-- An unpredictable number (R26), at the given draw. -/
opaque freeNat : Nat → Nat

/-- The module's own serial (R600, R621), which each module has of its own. -/
opaque moduleSerial : BitVec 64

end Sys2Proof.Config
end

