-- ==== Sys2Proof/Machine/Maps.lean ====
section
/-!
DEFINITION. The operations on sparse maps. A map lists its keys strictly rising and lists no key whose value is the
default, so equal maps are equal lists.
-/
namespace Sys2Proof.Machine

/-- The value of a key; the default where the key is not listed. -/
def mapGet {α : Type} (d : α) : SMap α → Nat → α
  | [], _ => d
  | (j, v) :: r, k => if j = k then v else mapGet d r k

/-- The value of a key where it is listed. -/
def mapFind {α : Type} : SMap α → Nat → Option α
  | [], _ => none
  | (j, v) :: r, k => if j = k then some v else mapFind r k

/-- The map without a key. -/
def mapErase {α : Type} : SMap α → Nat → SMap α
  | [], _ => []
  | (j, v) :: r, k => if j = k then mapErase r k else (j, v) :: mapErase r k

/-- The map with a key listed at a value, in key order. -/
def mapInsert {α : Type} : SMap α → Nat → α → SMap α
  | [], k, v => [(k, v)]
  | (j, w) :: r, k, v =>
    if k < j then (k, v) :: (j, w) :: r else if j = k then (k, v) :: r else (j, w) :: mapInsert r k v

/-- The map with a key at a value; the default value is not listed. -/
def mapSet {α : Type} [DecidableEq α] (d : α) (m : SMap α) (k : Nat) (v : α) : SMap α :=
  if v = d then mapErase m k else mapInsert m k v

/-- The map with the value of a key changed by a function. -/
def mapMod {α : Type} [DecidableEq α] (d : α) (m : SMap α) (k : Nat) (f : α → α) : SMap α :=
  mapSet d m k (f (mapGet d m k))

/-- The map less every key a test picks. -/
def mapDrop {α : Type} (p : Nat → Bool) (m : SMap α) : SMap α := m.filter (fun e => !p e.1)

/-- The keys rise strictly, each above a bound. -/
def keysAbove : Nat → List Nat → Bool
  | _, [] => true
  | lo, k :: r => decide (lo < k) && keysAbove k r

/-- The keys rise strictly. -/
def keysRise : List Nat → Bool
  | [] => true
  | k :: r => keysAbove k r

/-- The canonical form of a map: keys strictly rising, no entry at the default. -/
def mapWf {α : Type} [DecidableEq α] (d : α) (m : SMap α) : Bool :=
  keysRise (m.map Prod.fst) && m.all (fun e => decide (e.2 ≠ d))

/-- A set of numbers as a rising list: insert. -/
def setAdd : List Nat → Nat → List Nat
  | [], k => [k]
  | j :: r, k => if k < j then k :: j :: r else if j = k then j :: r else j :: setAdd r k

/-- A set of numbers as a rising list: remove. -/
def setDel (m : List Nat) (k : Nat) : List Nat := m.filter (fun j => j != k)

end Sys2Proof.Machine
end

