-- ==== Sys2Proof/Machine/Mem.lean ====
section
/-!
DEFINITION. Byte memories: one read and one write of a byte, and wider accesses built from them, little-endian (R9).
-/
namespace Sys2Proof.Machine

/-- What a byte that is not listed reads as: zero where nothing has written since power-on (DESIGN CHOICE, log 3),
else the free byte of the draw that made the contents unpredictable (R26). -/
def memUnlisted (m : Mem) (a : Nat) : Byte := if m.base = 0 then 0 else Config.freeByte m.base a

/-- Read one byte. -/
def memRead (m : Mem) (a : Nat) : Byte :=
  match mapFind m.cells a with
  | some b => b
  | none => memUnlisted m a

/-- Write one byte; the value an unlisted address reads as is not listed. -/
def memWrite (m : Mem) (a : Nat) (b : Byte) : Mem :=
  if b = memUnlisted m a then { m with cells := mapErase m.cells a }
  else { m with cells := mapInsert m.cells a b }

/-- Read n bytes from an address, as a number, lowest address least significant (R9). -/
def memGet (m : Mem) (a : Nat) : Nat → Nat
  | 0 => 0
  | n + 1 => (memRead m a).toNat + 256 * memGet m (a + 1) n

/-- Write the low n bytes of a number, lowest address least significant (R9). -/
def memPut (m : Mem) (a : Nat) (x : Nat) : Nat → Mem
  | 0 => m
  | n + 1 => memPut (memWrite m a (BitVec.ofNat 8 x)) (a + 1) (x / 256) n

/-- The memory that holds a list of bytes from an address on. -/
def memOfBytes (a : Nat) : List Byte → Mem
  | [] => {}
  | b :: r => memWrite (memOfBytes (a + 1) r) a b

/-- A 16-byte row. -/
def memRow (m : Mem) (a : Nat) : BitVec 128 := BitVec.ofNat 128 (memGet m a 16)

/-- Write a 16-byte row. -/
def memPutRow (m : Mem) (a : Nat) (r : BitVec 128) : Mem := memPut m a r.toNat 16

/-- The contents are unpredictable from now on (R26), named by a draw. -/
def memLose (draw : Nat) : Mem := { cells := [], base := draw }

/-- The canonical form of a memory: addresses strictly rising, no entry equal to what an unlisted address reads as. -/
def memWf (m : Mem) : Bool :=
  keysRise (m.cells.map Prod.fst) && m.cells.all (fun e => decide (e.2 ≠ memUnlisted m e.1))

end Sys2Proof.Machine
end

