-- ==== Sys2Proof/Machine/RegTable.lean ====
section
/-!
DEFINITION. The register maps of the spec as one table: for each register its scope (R48), block (R49), offset,
its repeats, the masks of its fields by access type (R12), its reset value (R20), and the selector fields of a
windowed register. The comment on each row names the rule that holds the map.
-/
namespace Sys2Proof.Machine

/-- One register, or a run of registers with one map (R12, R20): `off + stride * k` for k below `count`. -/
structure RegRow where
  scope  : Nat
  block  : Nat
  off    : Nat
  stride : Nat
  count  : Nat
  rw     : Nat
  w1c    : Nat
  rc     : Nat
  ro     : Nat
  reset  : Nat
  /-- The selector fields (offset in the block, high bit, low bit) that pick the unit a windowed register acts on. -/
  sel    : List (Nat × Nat × Nat) := []
  deriving DecidableEq, Repr

/-- GRN_ registers, sheaf scope. -/
def regsGrnSheaf : List RegRow := [
  ⟨3, 1, 0x0, 0, 1, 0x3, 0x0, 0x0, 0x0, 0x0, []⟩,  -- R125
  ⟨3, 1, 0x4, 0, 1, 0x0, 0x0, 0x0, 0xffffffff, 0x0, []⟩,  -- R125
  ⟨3, 1, 0x8, 0, 1, 0x0, 0x0, 0x0, 0xffff, 0x0, []⟩,  -- R125
  ⟨3, 1, 0xc, 0, 1, 0xffff, 0x0, 0x0, 0x0, 0x0, []⟩,  -- R125
  ⟨3, 1, 0x10, 0, 1, 0x0, 0xffffffff, 0x0, 0x0, 0x0, []⟩,  -- R125
  ⟨3, 1, 0x14, 0, 1, 0x0, 0x0, 0x0, 0xffffffff, 0x0, []⟩,  -- R125
  ⟨3, 1, 0x18, 0, 1, 0xffffffff, 0x0, 0x0, 0x0, 0x0, []⟩,  -- R125
  ⟨3, 1, 0x1c, 0, 1, 0x0, 0x0, 0x0, 0xffffffff, 0x0, []⟩,  -- R125
  ⟨3, 1, 0x20, 4, 8, 0x0, 0x0, 0x0, 0xffff, 0x0, []⟩,  -- R125
  ⟨3, 1, 0x40, 4, 16, 0xffff, 0x0, 0x0, 0x0, 0xffff, []⟩,  -- R125
  ⟨3, 1, 0x80, 4, 16, 0x0, 0x0, 0xffffffff, 0x0, 0x0, []⟩]  -- R222

/-- GRN_ registers, grain scope. -/
def regsGrnGrain : List RegRow := [
  ⟨4, 1, 0x0, 0, 1, 0x0, 0x0, 0x0, 0x1fffff, 0x0, []⟩,  -- R116
  ⟨4, 1, 0x4, 0, 1, 0x3, 0x0, 0x0, 0x0, 0x0, []⟩,  -- R117
  ⟨4, 1, 0x8, 0, 1, 0x0, 0x0, 0x0, 0xfc0f, 0x0, []⟩,  -- R118
  ⟨4, 1, 0xc, 0, 1, 0x0, 0x0, 0x0, 0x3ff, 0x0, []⟩,  -- R119
  ⟨4, 1, 0x10, 0, 1, 0x3ff, 0x0, 0x0, 0x0, 0x0, []⟩,  -- R119
  ⟨4, 1, 0x14, 0, 1, 0x0, 0x1ff, 0x0, 0x0, 0x0, []⟩,  -- R120
  ⟨4, 1, 0x18, 0, 1, 0x0, 0x0, 0x0, 0x800003ff, 0x0, []⟩,  -- R121
  ⟨4, 1, 0x1c, 0, 1, 0x0, 0x0, 0x0, 0x0, 0x0, []⟩,  -- R122
  ⟨4, 1, 0x20, 0, 1, 0x0, 0x0, 0x0, 0xffff000f, 0x0, []⟩,  -- R123
  ⟨4, 1, 0x24, 0, 1, 0x0, 0x0, 0x0, 0xffffffff, 0x0, []⟩,  -- R124
  ⟨4, 1, 0x28, 0, 1, 0x0, 0x0, 0x0, 0xffffffff, 0x0, []⟩,  -- R124
  ⟨4, 1, 0x2c, 0, 1, 0x0, 0x0, 0xffffffff, 0x0, 0x0, []⟩,  -- R124
  ⟨4, 1, 0x30, 0, 1, 0x0, 0x0, 0xffffffff, 0x0, 0x0, []⟩,  -- R124
  ⟨4, 1, 0x34, 0, 1, 0x0, 0x7, 0x0, 0xff00, 0x0, []⟩,  -- R219
  ⟨4, 1, 0x38, 0, 1, 0x0, 0x0, 0x0, 0xffffffff, 0x0, []⟩,  -- R220
  ⟨4, 1, 0x3c, 0, 1, 0x0, 0x0, 0x0, 0xf, 0x0, []⟩,  -- R220
  ⟨4, 1, 0x40, 0, 1, 0x0, 0x0, 0xffffffff, 0x0, 0x0, []⟩,  -- R221
  ⟨4, 1, 0x44, 0, 1, 0x0, 0x0, 0xffffffff, 0x0, 0x0, []⟩,  -- R221
  ⟨4, 1, 0x48, 0, 1, 0x0, 0x0, 0xffffffff, 0x0, 0x0, []⟩,  -- R221
  ⟨4, 1, 0x4c, 0, 1, 0x0, 0x0, 0xffffffff, 0x0, 0x0, []⟩]  -- R221

/-- TLY_ registers, grain scope. -/
def regsTlyGrain : List RegRow := [
  ⟨4, 2, 0x0, 4, 16, 0x0, 0x0, 0x0, 0x3ffff, 0x0, []⟩,  -- R264
  ⟨4, 2, 0x40, 4, 16, 0xc0003fff, 0x0, 0x0, 0x0, 0x0, []⟩,  -- R265
  ⟨4, 2, 0x80, 8, 4, 0x0, 0x0, 0x0, 0xfff0fff, 0x0, []⟩,  -- R266
  ⟨4, 2, 0x84, 8, 4, 0x0, 0x0, 0x0, 0xf0000fff, 0x0, []⟩,  -- R266
  ⟨4, 2, 0xa0, 0, 1, 0x0, 0x3d, 0x0, 0x0, 0x0, []⟩,  -- R267
  ⟨4, 2, 0xa4, 0, 1, 0x0, 0x0, 0x0, 0x80000fff, 0x0, []⟩,  -- R268
  ⟨4, 2, 0xa8, 0, 1, 0x0, 0x0, 0xffffffff, 0x0, 0x0, []⟩,  -- R268
  ⟨4, 2, 0xac, 0, 1, 0xffff, 0x0, 0x0, 0x0, 0x200, []⟩,  -- R269
  ⟨4, 2, 0xb0, 0, 1, 0x0, 0x0, 0xffffffff, 0x0, 0x0, []⟩,  -- R268
  ⟨4, 2, 0xb4, 0, 1, 0x0, 0x0, 0xffffffff, 0x0, 0x0, []⟩,  -- R268
  ⟨4, 2, 0xb8, 0, 1, 0x0, 0x0, 0x0, 0x0, 0x0, []⟩,  -- R270
  ⟨4, 2, 0xbc, 0, 1, 0x0, 0x0, 0x0, 0x0, 0x0, []⟩]  -- R271

/-- RTR_ registers, grain scope. -/
def regsRtrGrain : List RegRow := [
  ⟨4, 3, 0x0, 0, 1, 0x8000003f, 0x0, 0x0, 0x1ff0000, 0x80000000, []⟩,  -- R320
  ⟨4, 3, 0x4, 0, 1, 0x0, 0x1f, 0x0, 0xf00, 0x0, []⟩,  -- R321
  ⟨4, 3, 0x8, 0, 1, 0x0, 0x0, 0xffffffff, 0x0, 0x0, []⟩,  -- R322
  ⟨4, 3, 0xc, 0, 1, 0x0, 0x0, 0xffffffff, 0x0, 0x0, []⟩,  -- R322
  ⟨4, 3, 0x10, 0, 1, 0x0, 0x0, 0xffffffff, 0x0, 0x0, []⟩,  -- R322
  ⟨4, 3, 0x20, 4, 5, 0x0, 0x0, 0xffffffff, 0x0, 0x0, []⟩,  -- R322
  ⟨4, 3, 0x40, 4, 5, 0x0, 0x0, 0xffffffff, 0x0, 0x0, []⟩,  -- R322
  ⟨4, 3, 0x60, 0, 1, 0x0, 0x0, 0x0, 0xff000000, 0x0, []⟩,  -- R323
  ⟨4, 3, 0x100, 4, 64, 0x8fc0071f, 0x0, 0x0, 0x0, 0x0, []⟩]  -- R324

/-- FLU_ registers, die scope. -/
def regsFluDie : List RegRow := [
  ⟨5, 4, 0x0, 0, 1, 0x3, 0x0, 0x0, 0x0, 0x0, []⟩,  -- R325
  ⟨5, 4, 0x4, 0, 1, 0x0, 0x1e, 0x0, 0x20, 0x0, []⟩,  -- R326
  ⟨5, 4, 0x8, 0, 1, 0x3ff, 0x0, 0x0, 0x0, 0x0, []⟩,  -- R327
  ⟨5, 4, 0xc, 0, 1, 0x87efffff, 0x0, 0x0, 0x0, 0x0, [(8, 9, 0)]⟩,  -- R328
  ⟨5, 4, 0x10, 0, 1, 0xc00ff, 0x0, 0x0, 0xdff00000, 0x0, [(8, 9, 0)]⟩,  -- R328
  ⟨5, 4, 0x14, 0, 1, 0x0, 0x0, 0xffffffff, 0x0, 0x0, []⟩,  -- R329
  ⟨5, 4, 0x18, 0, 1, 0x0, 0x0, 0xffffffff, 0x0, 0x0, []⟩,  -- R329
  ⟨5, 4, 0x1c, 0, 1, 0x0, 0x0, 0xffffffff, 0x0, 0x0, []⟩,  -- R329
  ⟨5, 4, 0x20, 0, 1, 0x0, 0x0, 0xffffffff, 0x0, 0x0, []⟩,  -- R329
  ⟨5, 4, 0x24, 0, 1, 0x0, 0x0, 0xffffffff, 0x0, 0x0, []⟩,  -- R329
  ⟨5, 4, 0x28, 0, 1, 0x0, 0x0, 0xffffffff, 0x0, 0x0, []⟩]  -- R329

/-- WNW_ registers, sheaf scope. -/
def regsWnwSheaf : List RegRow := [
  ⟨3, 5, 0x0, 0, 1, 0xf8000000, 0x0, 0x0, 0x0, 0x0, []⟩,  -- R368
  ⟨3, 5, 0x4, 0, 1, 0x0, 0xf, 0x0, 0x30, 0x0, []⟩,  -- R369
  ⟨3, 5, 0x8, 0, 1, 0xf003ffff, 0x0, 0x0, 0x0, 0x0, []⟩,  -- R370
  ⟨3, 5, 0xc, 0, 1, 0x0, 0x0, 0x0, 0xffff, 0x0, []⟩,  -- R370
  ⟨3, 5, 0x10, 0, 1, 0xffff, 0x0, 0x0, 0x0, 0x0, []⟩,  -- R370
  ⟨3, 5, 0x14, 0, 1, 0xf003ffff, 0x0, 0x0, 0x0, 0x0, []⟩,  -- R370
  ⟨3, 5, 0x18, 0, 1, 0x0, 0x0, 0x0, 0xffff, 0x0, []⟩,  -- R370
  ⟨3, 5, 0x1c, 0, 1, 0xffff, 0x0, 0x0, 0x0, 0x0, []⟩,  -- R370
  ⟨3, 5, 0x20, 0, 1, 0xfff00fff, 0x0, 0x0, 0x0, 0x0, []⟩,  -- R371
  ⟨3, 5, 0x24, 0, 1, 0xfff0fff, 0x0, 0x0, 0x0, 0x0, []⟩,  -- R371
  ⟨3, 5, 0x28, 0, 1, 0x3ffff, 0x0, 0x0, 0x0, 0x0, []⟩,  -- R370
  ⟨3, 5, 0x2c, 0, 1, 0xf003ffff, 0x0, 0x0, 0x0, 0x0, []⟩,  -- R370
  ⟨3, 5, 0x30, 0, 1, 0x0, 0x0, 0x0, 0xffff, 0x0, []⟩,  -- R370
  ⟨3, 5, 0x34, 0, 1, 0xffff, 0x0, 0x0, 0x0, 0x0, []⟩,  -- R370
  ⟨3, 5, 0x40, 16, 8, 0xffffffff, 0x0, 0x0, 0x0, 0x82010800, []⟩,  -- R372
  ⟨3, 5, 0x44, 16, 8, 0xffffffff, 0x0, 0x0, 0x0, 0x0, []⟩,  -- R372
  ⟨3, 5, 0x48, 16, 8, 0xfffffe00, 0x0, 0x0, 0x0, 0x0, []⟩,  -- R372
  ⟨3, 5, 0x4c, 16, 8, 0xfff, 0x0, 0x0, 0x0, 0xfff, []⟩,  -- R372
  ⟨3, 5, 0xc0, 0, 1, 0x0, 0x0, 0xffffffff, 0x0, 0x0, []⟩,  -- R373
  ⟨3, 5, 0xc4, 0, 1, 0x0, 0x0, 0xffffffff, 0x0, 0x0, []⟩,  -- R373
  ⟨3, 5, 0xc8, 0, 1, 0x0, 0x0, 0xffffffff, 0x0, 0x0, []⟩,  -- R373
  ⟨3, 5, 0xcc, 0, 1, 0x0, 0x0, 0xffffffff, 0x0, 0x0, []⟩,  -- R373
  ⟨3, 5, 0xd0, 0, 1, 0x0, 0x0, 0xffffffff, 0x0, 0x0, []⟩,  -- R373
  ⟨3, 5, 0xd4, 0, 1, 0x0, 0x0, 0xffffffff, 0x0, 0x0, []⟩,  -- R373
  ⟨3, 5, 0xd8, 0, 1, 0x0, 0x0, 0xffffffff, 0x0, 0x0, []⟩,  -- R373
  ⟨3, 5, 0xe0, 0, 1, 0xffff, 0x0, 0x0, 0x0, 0x0, []⟩,  -- R374
  ⟨3, 5, 0xe4, 0, 1, 0x0, 0x0, 0x0, 0x0, 0x0, []⟩,  -- R374
  ⟨3, 5, 0xe8, 0, 1, 0x0, 0x0, 0x0, 0xf000ffff, 0x0, []⟩,  -- R374
  ⟨3, 5, 0xec, 0, 1, 0x0, 0x0, 0x0, 0xfffff, 0x0, []⟩]  -- R374

/-- GLN_ registers, sheaf scope. -/
def regsGlnSheaf : List RegRow := [
  ⟨3, 6, 0x0, 0, 1, 0x7, 0x0, 0x0, 0x0, 0x0, []⟩,  -- R375
  ⟨3, 6, 0x4, 0, 1, 0xf003ffff, 0x0, 0x0, 0x0, 0x0, []⟩,  -- R375
  ⟨3, 6, 0x8, 0, 1, 0x0, 0x0, 0x0, 0x0, 0x0, []⟩,  -- R376
  ⟨3, 6, 0x10, 0, 1, 0x0, 0x0, 0xffffffff, 0x0, 0x0, []⟩,  -- R377
  ⟨3, 6, 0x14, 0, 1, 0x0, 0x0, 0xffffffff, 0x0, 0x0, []⟩,  -- R377
  ⟨3, 6, 0x18, 0, 1, 0x0, 0x0, 0xffffffff, 0x0, 0x0, []⟩,  -- R377
  ⟨3, 6, 0x1c, 0, 1, 0x0, 0x0, 0xffffffff, 0x0, 0x0, []⟩,  -- R377
  ⟨3, 6, 0x20, 0, 1, 0x0, 0x0, 0xffffffff, 0x0, 0x0, []⟩]  -- R377

/-- HOP_ registers, die scope. -/
def regsHopDie : List RegRow := [
  ⟨5, 7, 0x0, 0, 1, 0x0, 0x0, 0x0, 0xfffffff, 0x0, []⟩,  -- R432
  ⟨5, 7, 0x4, 0, 1, 0x0, 0x0, 0xffffffff, 0x0, 0x0, []⟩]  -- R432

/-- HOP_ registers, partition scope. -/
def regsHopPartition : List RegRow := [
  ⟨6, 7, 0x0, 0, 1, 0xc000ffff, 0x0, 0x0, 0x0, 0x28, []⟩,  -- R428
  ⟨6, 7, 0x4, 0, 1, 0x0, 0x0, 0x0, 0xffffffff, 0x0, []⟩,  -- R428
  ⟨6, 7, 0x8, 0, 1, 0xffffffff, 0x0, 0x0, 0x0, 0xffffffff, []⟩,  -- R429
  ⟨6, 7, 0xc, 0, 1, 0xff, 0x0, 0x0, 0x0, 0xff, []⟩,  -- R429
  ⟨6, 7, 0x10, 0, 1, 0x73fff, 0x0, 0x0, 0x0, 0x0, []⟩,  -- R429
  ⟨6, 7, 0x14, 0, 1, 0xf003ffff, 0x0, 0x0, 0x0, 0x0, []⟩,  -- R429
  ⟨6, 7, 0x18, 0, 1, 0xf, 0x0, 0x0, 0x0, 0x0, []⟩,  -- R429
  ⟨6, 7, 0x1c, 0, 1, 0xfff83fff, 0x0, 0x0, 0x0, 0x8000000, [(24, 3, 0)]⟩,  -- R429
  ⟨6, 7, 0x20, 0, 1, 0xf003ffff, 0x0, 0x0, 0x0, 0x0, [(24, 3, 0)]⟩,  -- R429
  ⟨6, 7, 0x24, 0, 1, 0xffffffff, 0x0, 0x0, 0x0, 0x0, []⟩,  -- R430
  ⟨6, 7, 0x28, 0, 1, 0xffffffff, 0x0, 0x0, 0x0, 0x0, []⟩,  -- R430
  ⟨6, 7, 0x2c, 0, 1, 0x1f, 0x0, 0x0, 0x0, 0x0, []⟩,  -- R430
  ⟨6, 7, 0x30, 0, 1, 0xfffff, 0x0, 0x0, 0x0, 0x0, []⟩,  -- R430
  ⟨6, 7, 0x34, 0, 1, 0x0, 0x0, 0x0, 0xfffff, 0x0, []⟩,  -- R430
  ⟨6, 7, 0x38, 0, 1, 0x0, 0xf, 0x0, 0x0, 0x0, []⟩,  -- R430
  ⟨6, 7, 0x40, 0, 1, 0x0, 0x0, 0xffffffff, 0x0, 0x0, []⟩,  -- R430
  ⟨6, 7, 0x44, 0, 1, 0x0, 0x0, 0xffffffff, 0x0, 0x0, []⟩,  -- R430
  ⟨6, 7, 0x48, 0, 1, 0x0, 0x0, 0xffffffff, 0x0, 0x0, []⟩,  -- R430
  ⟨6, 7, 0x4c, 0, 1, 0x0, 0x0, 0xffffffff, 0x0, 0x0, []⟩,  -- R430
  ⟨6, 7, 0x50, 0, 1, 0x0, 0x0, 0xffffffff, 0x0, 0x0, []⟩,  -- R430
  ⟨6, 7, 0x54, 0, 1, 0x0, 0x0, 0xffffffff, 0x0, 0x0, []⟩,  -- R430
  ⟨6, 7, 0x58, 0, 1, 0x0, 0x0, 0xffffffff, 0x0, 0x0, []⟩,  -- R430
  ⟨6, 7, 0x5c, 0, 1, 0x0, 0x0, 0xffffffff, 0x0, 0x0, []⟩,  -- R430
  ⟨6, 7, 0x60, 0, 1, 0xff, 0x0, 0x0, 0x0, 0x0, []⟩,  -- R431
  ⟨6, 7, 0x64, 0, 1, 0xc000ffff, 0x0, 0x0, 0x0, 0x0, [(96, 7, 0)]⟩,  -- R431
  ⟨6, 7, 0x68, 0, 1, 0xffffffff, 0x0, 0x0, 0x0, 0x0, [(96, 7, 0)]⟩,  -- R431
  ⟨6, 7, 0x6c, 0, 1, 0xffffffff, 0x0, 0x0, 0x0, 0x1, [(96, 7, 0)]⟩,  -- R431
  ⟨6, 7, 0x70, 0, 1, 0xf00fffff, 0x0, 0x0, 0x0, 0x0, [(96, 7, 0)]⟩,  -- R431
  ⟨6, 7, 0x74, 0, 1, 0x0, 0x0, 0x0, 0xffffffff, 0x0, [(96, 7, 0)]⟩,  -- R431
  ⟨6, 7, 0x78, 0, 1, 0x0, 0x0, 0xffffffff, 0x0, 0x0, [(96, 7, 0)]⟩,  -- R431
  ⟨6, 7, 0x80, 0, 1, 0x7fff, 0x0, 0x0, 0x0, 0x0, []⟩,  -- R431
  ⟨6, 7, 0xc0, 4, 16, 0x0, 0x0, 0x0, 0xffffffff, 0x0, [(128, 14, 0)]⟩]  -- R431

/-- SWG_ registers, partition scope. -/
def regsSwgPartition : List RegRow := [
  ⟨6, 8, 0x0, 0, 1, 0xf0ffff00, 0x0, 0x0, 0x0, 0x10010100, []⟩,  -- R433
  ⟨6, 8, 0x4, 0, 1, 0xffffff00, 0x0, 0x0, 0x0, 0x10040800, []⟩,  -- R433
  ⟨6, 8, 0x8, 0, 1, 0x0, 0x0, 0x0, 0xff, 0x0, []⟩,  -- R433
  ⟨6, 8, 0xc, 0, 1, 0x0, 0x0, 0x0, 0xffffffff, 0x0, []⟩,  -- R433
  ⟨6, 8, 0x10, 0, 1, 0x0, 0x0, 0x0, 0xffff, 0x0, []⟩,  -- R433
  ⟨6, 8, 0x14, 0, 1, 0x3ffff, 0x0, 0x0, 0x0, 0x0, []⟩,  -- R433
  ⟨6, 8, 0x18, 0, 1, 0xf, 0x0, 0x0, 0x0, 0x0, []⟩,  -- R433
  ⟨6, 8, 0x1c, 0, 1, 0xffffffc0, 0x0, 0x0, 0x0, 0x0, [(24, 3, 0)]⟩,  -- R433
  ⟨6, 8, 0x20, 0, 1, 0xff0c0000, 0x0, 0x0, 0xf3ffff, 0x80080000, [(24, 3, 0)]⟩,  -- R433
  ⟨6, 8, 0x24, 0, 1, 0x0, 0x0, 0xffffffff, 0x0, 0x0, []⟩]  -- R433

/-- MOE_ registers, partition scope. -/
def regsMoePartition : List RegRow := [
  ⟨6, 9, 0x0, 0, 1, 0x8000ffff, 0x0, 0x0, 0x0, 0x0, []⟩,  -- R434
  ⟨6, 9, 0x4, 0, 1, 0x3ff, 0x0, 0x0, 0x0, 0x0, []⟩,  -- R434
  ⟨6, 9, 0x8, 0, 1, 0x0, 0x0, 0xffffffff, 0x0, 0x0, [(4, 9, 0)]⟩,  -- R434
  ⟨6, 9, 0xc, 0, 1, 0x0, 0x0, 0x0, 0xffffffff, 0x0, [(4, 9, 0)]⟩,  -- R434
  ⟨6, 9, 0x10, 0, 1, 0x0, 0x0, 0xffffffff, 0x0, 0x0, [(4, 9, 0)]⟩,  -- R434
  ⟨6, 9, 0x14, 0, 1, 0x0, 0x0, 0xffffffff, 0x0, 0x0, [(4, 9, 0)]⟩,  -- R434
  ⟨6, 9, 0x18, 0, 1, 0x0, 0x0, 0xffffffff, 0x0, 0x0, [(4, 9, 0)]⟩,  -- R434
  ⟨6, 9, 0x1c, 0, 1, 0x0, 0x2, 0x0, 0x1, 0x1, []⟩,  -- R434
  ⟨6, 9, 0x20, 0, 1, 0x0, 0x0, 0xffffffff, 0x0, 0x0, [(4, 9, 0)]⟩,  -- R434
  ⟨6, 9, 0x24, 0, 1, 0x0, 0x0, 0xffffffff, 0x0, 0x0, [(4, 9, 0)]⟩]  -- R434

/-- GRY_ registers, module scope. -/
def regsGryModule : List RegRow := [
  ⟨0, 10, 0x0, 0, 1, 0x8000ffff, 0x0, 0x0, 0x0, 0x384, []⟩,  -- R485
  ⟨0, 10, 0x4, 0, 1, 0x0, 0x0, 0x0, 0x7, 0x0, []⟩,  -- R485
  ⟨0, 10, 0x8, 4, 2, 0x0, 0x0, 0x0, 0xffff0000, 0x0, []⟩,  -- R485
  ⟨0, 10, 0x10, 0, 1, 0xffff001f, 0x0, 0x0, 0x0, 0x183c001a, []⟩,  -- R485
  ⟨0, 10, 0x14, 0, 1, 0xff, 0x0, 0x0, 0x0, 0xe, []⟩,  -- R485
  ⟨0, 10, 0x18, 0, 1, 0x800003ff, 0x0, 0x0, 0x0, 0x0, []⟩,  -- R485
  ⟨0, 10, 0x20, 0, 1, 0xff, 0x0, 0x0, 0x0, 0x0, []⟩,  -- R485
  ⟨0, 10, 0x24, 0, 1, 0x0, 0x0, 0x0, 0x87ffffff, 0x0, [(32, 7, 0)]⟩,  -- R485
  ⟨0, 10, 0x28, 0, 1, 0x0, 0x0, 0x0, 0xfffff, 0x0, [(32, 7, 0)]⟩,  -- R485
  ⟨0, 10, 0x2c, 0, 1, 0x0, 0x0, 0xffffffff, 0x0, 0x0, []⟩]  -- R485

/-- GRY_ registers, field scope. -/
def regsGryField : List RegRow := [
  ⟨2, 10, 0x0, 0, 1, 0x0, 0x1, 0x0, 0xe, 0x0, []⟩,  -- R483
  ⟨2, 10, 0x4, 0, 1, 0x0, 0x0, 0x0, 0x1fff1fff, 0x0, []⟩,  -- R483
  ⟨2, 10, 0x8, 0, 1, 0x0, 0x0, 0x0, 0xffffffff, 0x0, []⟩,  -- R483
  ⟨2, 10, 0xc, 0, 1, 0x0, 0x0, 0xff, 0x0, 0x0, []⟩,  -- R483
  ⟨2, 10, 0x10, 0, 1, 0x0, 0x0, 0xffffffff, 0x0, 0x0, []⟩,  -- R483
  ⟨2, 10, 0x14, 0, 1, 0x0, 0x0, 0xffffffff, 0x0, 0x0, []⟩,  -- R483
  ⟨2, 10, 0x18, 0, 1, 0x0, 0x0, 0xffffffff, 0x0, 0x0, []⟩,  -- R483
  ⟨2, 10, 0x1c, 0, 1, 0x0, 0x0, 0xffffffff, 0x0, 0x0, []⟩,  -- R483
  ⟨2, 10, 0x20, 0, 1, 0x0, 0x0, 0xffffffff, 0x0, 0x0, []⟩,  -- R483
  ⟨2, 10, 0x24, 0, 1, 0x0, 0x0, 0xffffffff, 0x0, 0x0, []⟩,  -- R483
  ⟨2, 10, 0x40, 0, 1, 0x7, 0x0, 0x0, 0x0, 0x0, []⟩,  -- R484
  ⟨2, 10, 0x44, 0, 1, 0xf003ffff, 0x0, 0x0, 0x0, 0x0, [(64, 2, 0)]⟩,  -- R484
  ⟨2, 10, 0x48, 0, 1, 0x8000003f, 0x0, 0x0, 0x0, 0x0, [(64, 2, 0)]⟩,  -- R484
  ⟨2, 10, 0x4c, 0, 1, 0x0, 0x0, 0x0, 0xffff, 0x0, [(64, 2, 0)]⟩,  -- R484
  ⟨2, 10, 0x50, 0, 1, 0xffff, 0x0, 0x0, 0x0, 0x0, [(64, 2, 0)]⟩,  -- R484
  ⟨2, 10, 0x54, 0, 1, 0x0, 0x0, 0x0, 0xf000ffff, 0x0, [(64, 2, 0)]⟩]  -- R484

/-- BIN_ registers, die scope. -/
def regsBinDie : List RegRow := [
  ⟨5, 11, 0x0, 0, 1, 0x1, 0x0, 0x0, 0x0, 0x1, []⟩,  -- R518
  ⟨5, 11, 0x4, 0, 1, 0x0, 0x7, 0x0, 0xe0, 0x0, []⟩,  -- R518
  ⟨5, 11, 0x8, 0, 1, 0xff000000, 0x0, 0x0, 0x0, 0x18000000, []⟩,  -- R518
  ⟨5, 11, 0xc, 0, 1, 0x0, 0x0, 0x0, 0xffffffc0, 0x0, []⟩,  -- R518
  ⟨5, 11, 0x10, 0, 1, 0x0, 0x0, 0x0, 0x8000000f, 0x0, []⟩,  -- R518
  ⟨5, 11, 0x14, 0, 1, 0x0, 0x0, 0xffffffff, 0x0, 0x0, []⟩,  -- R518
  ⟨5, 11, 0x18, 0, 1, 0x0, 0x0, 0xffffffff, 0x0, 0x0, []⟩,  -- R518
  ⟨5, 11, 0x1c, 0, 1, 0x0, 0x0, 0xffffffff, 0x0, 0x0, []⟩,  -- R518
  ⟨5, 11, 0x20, 0, 1, 0x0, 0x0, 0xffffffff, 0x0, 0x0, []⟩,  -- R518
  ⟨5, 11, 0x24, 0, 1, 0x0, 0x0, 0xffffffff, 0x0, 0x0, []⟩,  -- R518
  ⟨5, 11, 0x28, 0, 1, 0x0, 0x0, 0xffffffff, 0x0, 0x0, []⟩,  -- R518
  ⟨5, 11, 0x2c, 0, 1, 0x0, 0x0, 0xffffffff, 0x0, 0x0, []⟩,  -- R518
  ⟨5, 11, 0x40, 0, 1, 0xf, 0x0, 0x0, 0x0, 0x0, []⟩,  -- R518
  ⟨5, 11, 0x44, 0, 1, 0xff80ffff, 0x0, 0x0, 0x400000, 0x0, [(64, 3, 0)]⟩]  -- R518

/-- CRB_ registers, module scope. -/
def regsCrbModule : List RegRow := [
  ⟨0, 12, 0x0, 0, 1, 0xfffff000, 0x0, 0x0, 0x0, 0x143000, []⟩,  -- R519
  ⟨0, 12, 0x4, 0, 1, 0x0, 0x1ff00, 0x0, 0xff, 0x0, []⟩,  -- R519
  ⟨0, 12, 0x8, 0, 1, 0x7, 0x0, 0x0, 0x0, 0x0, []⟩,  -- R519
  ⟨0, 12, 0xc, 0, 1, 0x0, 0x0, 0x0, 0xfffe0000, 0x0, [(8, 2, 0)]⟩,  -- R519
  ⟨0, 12, 0x10, 0, 1, 0x0, 0x0, 0x0, 0xffffffff, 0x0, [(8, 2, 0)]⟩,  -- R519
  ⟨0, 12, 0x14, 0, 1, 0x0, 0x0, 0x0, 0xffffffff, 0x0, [(8, 2, 0)]⟩,  -- R519
  ⟨0, 12, 0x18, 0, 1, 0x0, 0x0, 0x0, 0x0, 0x0, [(8, 2, 0)]⟩,  -- R519
  ⟨0, 12, 0x1c, 0, 1, 0xf, 0x0, 0x0, 0x0, 0x0, []⟩,  -- R519
  ⟨0, 12, 0x20, 0, 1, 0xff83ffff, 0x0, 0x0, 0x400000, 0x0, [(8, 2, 0), (28, 3, 0)]⟩,  -- R519
  ⟨0, 12, 0x24, 0, 1, 0x0, 0x0, 0xffffffff, 0x0, 0x0, [(8, 2, 0)]⟩,  -- R519
  ⟨0, 12, 0x28, 0, 1, 0x0, 0x0, 0xffffffff, 0x0, 0x0, [(8, 2, 0)]⟩,  -- R519
  ⟨0, 12, 0x2c, 0, 1, 0x0, 0x0, 0xffffffff, 0x0, 0x0, [(8, 2, 0)]⟩,  -- R519
  ⟨0, 12, 0x30, 0, 1, 0x0, 0x0, 0xffffffff, 0x0, 0x0, [(8, 2, 0)]⟩,  -- R519
  ⟨0, 12, 0x34, 0, 1, 0x0, 0x0, 0xffffffff, 0x0, 0x0, [(8, 2, 0)]⟩]  -- R519

/-- IMG_ registers, module scope. -/
def regsImgModule : List RegRow := [
  ⟨0, 13, 0x0, 0, 1, 0x0, 0x0, 0x0, 0xf0ff0f, 0x0, []⟩,  -- R567
  ⟨0, 13, 0x4, 0, 1, 0x0, 0x0, 0x0, 0xffffffff, 0x0, []⟩,  -- R567
  ⟨0, 13, 0x8, 0, 1, 0x0, 0x0, 0x0, 0xffffffff, 0x0, []⟩,  -- R567
  ⟨0, 13, 0xc, 0, 1, 0x0, 0x0, 0x0, 0x8000ffff, 0x0, []⟩,  -- R567
  ⟨0, 13, 0x10, 0, 1, 0x0, 0x0, 0x0, 0x800000ff, 0x0, []⟩,  -- R567
  ⟨0, 13, 0x14, 0, 1, 0x0, 0x0, 0x0, 0xffffffff, 0x0, []⟩,  -- R567
  ⟨0, 13, 0x18, 0, 1, 0x0, 0x0, 0x0, 0xffffffff, 0x0, []⟩,  -- R567
  ⟨0, 13, 0x1c, 0, 1, 0x0, 0x0, 0x0, 0xffffffff, 0x0, []⟩,  -- R567
  ⟨0, 13, 0x20, 0, 1, 0x0, 0x0, 0x0, 0xffffffff, 0x0, []⟩,  -- R567
  ⟨0, 13, 0x24, 0, 1, 0xff, 0x0, 0x0, 0x0, 0x8, []⟩,  -- R567
  ⟨0, 13, 0x28, 0, 1, 0x0, 0x0, 0x0, 0xffffffff, 0x0, []⟩,  -- R567
  ⟨0, 13, 0x2c, 0, 1, 0xff, 0x0, 0x0, 0x0, 0x0, []⟩,  -- R567
  ⟨0, 13, 0x30, 0, 1, 0x0, 0x0, 0x0, 0xff801fff, 0x0, [(44, 7, 0)]⟩,  -- R567
  ⟨0, 13, 0x34, 0, 1, 0x7, 0x0, 0x0, 0x0, 0x0, []⟩,  -- R567
  ⟨0, 13, 0x38, 0, 1, 0x0, 0x0, 0x0, 0xff000000, 0x0, [(52, 2, 0)]⟩,  -- R567
  ⟨0, 13, 0x3c, 0, 1, 0x0, 0x0, 0x0, 0xffffffff, 0x0, []⟩]  -- R567

/-- PRT_ registers, partition scope. -/
def regsPrtPartition : List RegRow := [
  ⟨6, 14, 0x0, 0, 1, 0x0, 0x0, 0x0, 0x7f, 0x0, []⟩,  -- R568
  ⟨6, 14, 0x4, 0, 1, 0x0, 0x0, 0x0, 0xffffffc0, 0x0, []⟩,  -- R568
  ⟨6, 14, 0x8, 0, 1, 0x0, 0x0, 0x0, 0xf, 0x0, []⟩,  -- R568
  ⟨6, 14, 0xc, 0, 1, 0x38ff, 0x0, 0x0, 0x0, 0x4, []⟩,  -- R568
  ⟨6, 14, 0x10, 0, 1, 0x3ffff, 0x0, 0x0, 0x0, 0x0, []⟩,  -- R568
  ⟨6, 14, 0x14, 0, 1, 0x800000ff, 0x0, 0x0, 0x0, 0x0, []⟩,  -- R568
  ⟨6, 14, 0x18, 0, 1, 0x0, 0x0, 0x0, 0x800000ff, 0x0, []⟩,  -- R568
  ⟨6, 14, 0x1c, 0, 1, 0xf, 0x0, 0x0, 0x0, 0x0, []⟩,  -- R568
  ⟨6, 14, 0x20, 0, 1, 0x0, 0x0, 0x0, 0xffffffff, 0x0, [(28, 3, 0)]⟩,  -- R568
  ⟨6, 14, 0x24, 0, 1, 0x0, 0x0, 0x0, 0xffffffff, 0x0, []⟩,  -- R568
  ⟨6, 14, 0x28, 0, 1, 0x0, 0x0, 0x0, 0xffff, 0x0, []⟩]  -- R568

/-- HST_ registers, die scope. -/
def regsHstDie : List RegRow := [
  ⟨5, 15, 0x0, 0, 1, 0x0, 0x0, 0x0, 0xfff0003f, 0x0, []⟩,  -- R618
  ⟨5, 15, 0x4, 0, 1, 0x0, 0x0, 0xffffffff, 0x0, 0x0, []⟩,  -- R618
  ⟨5, 15, 0x8, 0, 1, 0x0, 0x0, 0xffffffff, 0x0, 0x0, []⟩]  -- R618

/-- HST_ registers, partition scope. -/
def regsHstPartition : List RegRow := [
  ⟨6, 15, 0x0, 0, 1, 0xc000000f, 0x0, 0x0, 0x0, 0x0, []⟩,  -- R615
  ⟨6, 15, 0x4, 0, 1, 0x0, 0x7, 0x0, 0x0, 0x0, []⟩,  -- R615
  ⟨6, 15, 0x8, 0, 1, 0x7, 0x0, 0x0, 0x0, 0x0, []⟩,  -- R615
  ⟨6, 15, 0xc, 0, 1, 0xc1ff0000, 0x0, 0x0, 0x0, 0x400000, [(8, 2, 0)]⟩,  -- R615
  ⟨6, 15, 0x10, 0, 1, 0xffffffff, 0x0, 0x0, 0x0, 0x0, [(8, 2, 0)]⟩,  -- R615
  ⟨6, 15, 0x14, 0, 1, 0xffffffff, 0x0, 0x0, 0x0, 0x0, [(8, 2, 0)]⟩,  -- R615
  ⟨6, 15, 0x18, 0, 1, 0xffffffff, 0x0, 0x0, 0x0, 0x0, [(8, 2, 0)]⟩,  -- R615
  ⟨6, 15, 0x1c, 0, 1, 0xffffffff, 0x0, 0x0, 0x0, 0x0, [(8, 2, 0)]⟩,  -- R615
  ⟨6, 15, 0x20, 0, 1, 0x0, 0x0, 0x0, 0xffff, 0x0, [(8, 2, 0)]⟩,  -- R615
  ⟨6, 15, 0x24, 0, 1, 0x0, 0x0, 0x0, 0xffff, 0x0, [(8, 2, 0)]⟩,  -- R615
  ⟨6, 15, 0x28, 0, 1, 0xffff, 0x0, 0x0, 0x0, 0x0, [(8, 2, 0)]⟩,  -- R615
  ⟨6, 15, 0x2c, 0, 1, 0xffffffff, 0x0, 0x0, 0x0, 0x0, []⟩,  -- R615
  ⟨6, 15, 0x30, 0, 1, 0xffffffff, 0x0, 0x0, 0x0, 0x0, []⟩,  -- R615
  ⟨6, 15, 0x34, 0, 1, 0x800001ff, 0x0, 0x0, 0x0, 0x40, []⟩,  -- R615
  ⟨6, 15, 0x38, 0, 1, 0xffff, 0x0, 0x0, 0x0, 0x0, []⟩,  -- R615
  ⟨6, 15, 0x3c, 0, 1, 0x0, 0x0, 0x0, 0xffff, 0x0, []⟩,  -- R615
  ⟨6, 15, 0x40, 0, 1, 0x0, 0x0, 0xffffffff, 0x0, 0x0, []⟩,  -- R615
  ⟨6, 15, 0x44, 0, 1, 0xffff, 0x0, 0x0, 0x0, 0x0, []⟩,  -- R615
  ⟨6, 15, 0x80, 4, 16, 0xfc3fffff, 0x0, 0x0, 0x0, 0x0, []⟩,  -- R615
  ⟨6, 15, 0xc0, 4, 16, 0xfc3fffff, 0x0, 0x0, 0x0, 0x0, []⟩]  -- R615

/-- DRT_ registers, die scope. -/
def regsDrtDie : List RegRow := [
  ⟨5, 16, 0x0, 0, 1, 0x80000003, 0x0, 0x0, 0x0, 0x0, []⟩,  -- R619
  ⟨5, 16, 0x4, 0, 1, 0x3, 0x0, 0x0, 0x0, 0x0, []⟩,  -- R619
  ⟨5, 16, 0x8, 0, 1, 0x0, 0x0, 0x0, 0xfffff800, 0x0, [(4, 1, 0)]⟩,  -- R619
  ⟨5, 16, 0xc, 0, 1, 0x0, 0x0, 0x0, 0xffffffff, 0x0, [(4, 1, 0)]⟩,  -- R619
  ⟨5, 16, 0x10, 0, 1, 0x0, 0x0, 0x0, 0xffffffff, 0x0, [(4, 1, 0)]⟩,  -- R619
  ⟨5, 16, 0x14, 0, 1, 0x1, 0x0, 0x0, 0x0, 0x0, [(4, 1, 0)]⟩,  -- R619
  ⟨5, 16, 0x18, 0, 1, 0x0, 0x0, 0x0, 0xffff, 0x0, [(4, 1, 0)]⟩,  -- R619
  ⟨5, 16, 0x20, 0, 1, 0x0, 0x0, 0xffffffff, 0x0, 0x0, [(4, 1, 0)]⟩,  -- R619
  ⟨5, 16, 0x24, 0, 1, 0x0, 0x0, 0xffffffff, 0x0, 0x0, [(4, 1, 0)]⟩,  -- R619
  ⟨5, 16, 0x28, 0, 1, 0x0, 0x0, 0xffffffff, 0x0, 0x0, [(4, 1, 0)]⟩,  -- R619
  ⟨5, 16, 0x2c, 0, 1, 0x0, 0x0, 0xffffffff, 0x0, 0x0, [(4, 1, 0)]⟩,  -- R619
  ⟨5, 16, 0x30, 0, 1, 0x0, 0x0, 0xffffffff, 0x0, 0x0, [(4, 1, 0)]⟩,  -- R619
  ⟨5, 16, 0x40, 0, 1, 0x3f, 0x0, 0x0, 0x0, 0x0, []⟩,  -- R620
  ⟨5, 16, 0x44, 0, 1, 0xfff8ffff, 0x0, 0x0, 0x0, 0x0, [(64, 5, 0)]⟩,  -- R620
  ⟨5, 16, 0x60, 4, 8, 0xffffffff, 0x0, 0x0, 0x0, 0x0, [(64, 5, 0)]⟩,  -- R620
  ⟨5, 16, 0x80, 0, 1, 0x7, 0x0, 0x0, 0x0, 0x0, []⟩,  -- R620
  ⟨5, 16, 0x84, 0, 1, 0xf003ffff, 0x0, 0x0, 0x0, 0x0, [(128, 2, 0)]⟩,  -- R620
  ⟨5, 16, 0x88, 0, 1, 0x80003fff, 0x0, 0x0, 0x0, 0x0, [(128, 2, 0)]⟩,  -- R620
  ⟨5, 16, 0x8c, 0, 1, 0x0, 0x0, 0x0, 0xffff, 0x0, [(128, 2, 0)]⟩,  -- R620
  ⟨5, 16, 0x90, 0, 1, 0xffff, 0x0, 0x0, 0x0, 0x0, [(128, 2, 0)]⟩,  -- R620
  ⟨5, 16, 0x100, 0, 1, 0xc000ffff, 0x0, 0x0, 0x0, 0x3e8, []⟩,  -- R621
  ⟨5, 16, 0x104, 0, 1, 0xffffffff, 0x0, 0x0, 0x0, 0x0, []⟩,  -- R621
  ⟨5, 16, 0x108, 0, 1, 0xffffffff, 0x0, 0x0, 0x0, 0x0, []⟩,  -- R621
  ⟨5, 16, 0x10c, 0, 1, 0x0, 0x0, 0x0, 0xff80ffff, 0x0, []⟩,  -- R621
  ⟨5, 16, 0x110, 0, 1, 0x0, 0x0, 0x0, 0xffffffff, 0x0, []⟩,  -- R621
  ⟨5, 16, 0x114, 0, 1, 0x0, 0x0, 0x0, 0xffffffff, 0x0, []⟩,  -- R621
  ⟨5, 16, 0x118, 0, 1, 0x0, 0x0, 0x0, 0xffffffff, 0x0, []⟩,  -- R621
  ⟨5, 16, 0x11c, 0, 1, 0x0, 0x0, 0x0, 0xffffffff, 0x0, []⟩]  -- R621

/-- CAD_ registers, module scope. -/
def regsCadModule : List RegRow := [
  ⟨0, 17, 0x0, 0, 1, 0xff80ffff, 0x0, 0x0, 0x0, 0x40000e10, []⟩,  -- R656
  ⟨0, 17, 0x4, 0, 1, 0x0, 0x3000, 0x0, 0x80000f3f, 0x0, []⟩,  -- R656
  ⟨0, 17, 0x8, 0, 1, 0x0, 0x0, 0x0, 0xffffffff, 0x0, []⟩,  -- R656
  ⟨0, 17, 0xc, 0, 1, 0x0, 0x0, 0x0, 0xffffffff, 0x0, []⟩,  -- R656
  ⟨0, 17, 0x10, 0, 1, 0x0, 0x0, 0x0, 0xffffffff, 0x0, []⟩,  -- R656
  ⟨0, 17, 0x14, 0, 1, 0x0, 0x0, 0x0, 0xffffffff, 0x0, []⟩,  -- R656
  ⟨0, 17, 0x18, 0, 1, 0x0, 0x0, 0x0, 0x3fff, 0xfa, []⟩,  -- R656
  ⟨0, 17, 0x1c, 0, 1, 0x0, 0x0, 0x0, 0xffffffff, 0x0, []⟩,  -- R656
  ⟨0, 17, 0x20, 0, 1, 0x0, 0x0, 0x0, 0xffffffff, 0x0, []⟩,  -- R656
  ⟨0, 17, 0x24, 0, 1, 0x0, 0x0, 0x0, 0xffffffff, 0x0, []⟩,  -- R656
  ⟨0, 17, 0x28, 0, 1, 0x37f, 0x0, 0x0, 0x0, 0x100, []⟩,  -- R656
  ⟨0, 17, 0x2c, 0, 1, 0xff00ffff, 0x0, 0x0, 0x0, 0x14, []⟩,  -- R656
  ⟨0, 17, 0x30, 0, 1, 0xffffffff, 0x0, 0x0, 0x0, 0x3e803e8, []⟩,  -- R656
  ⟨0, 17, 0x34, 0, 1, 0xffff, 0x0, 0x0, 0x0, 0xa, []⟩]  -- R656

/-- CAL_ registers, module scope. -/
def regsCalModule : List RegRow := [
  ⟨0, 18, 0x0, 0, 1, 0x0, 0x0, 0x0, 0xffff007f, 0x0, []⟩,  -- R657
  ⟨0, 18, 0x4, 0, 1, 0x0, 0x0, 0x0, 0xffffffff, 0x0, []⟩,  -- R657
  ⟨0, 18, 0x8, 0, 1, 0x0, 0x0, 0x0, 0xffffffff, 0x0, []⟩,  -- R657
  ⟨0, 18, 0xc, 0, 1, 0x0, 0x0, 0x0, 0xffffffff, 0x0, []⟩,  -- R657
  ⟨0, 18, 0x10, 0, 1, 0xffffffff, 0x0, 0x0, 0x0, 0xf00fa, []⟩,  -- R657
  ⟨0, 18, 0x14, 0, 1, 0xffffffff, 0x0, 0x0, 0x0, 0x640096, []⟩,  -- R657
  ⟨0, 18, 0x18, 0, 1, 0xffff, 0x0, 0x0, 0x0, 0x28, []⟩,  -- R657
  ⟨0, 18, 0x1c, 0, 1, 0xffff, 0x0, 0x0, 0x0, 0x8, []⟩,  -- R657
  ⟨0, 18, 0x20, 0, 1, 0x701ff, 0x0, 0x0, 0x0, 0x0, []⟩,  -- R657
  ⟨0, 18, 0x24, 0, 1, 0x0, 0x0, 0x0, 0xffffffff, 0x0, [(32, 18, 16), (32, 8, 0)]⟩,  -- R657
  ⟨0, 18, 0x28, 0, 1, 0x0, 0x0, 0x0, 0xffffffff, 0x0, []⟩]  -- R657

/-- PWR_ registers, module scope. -/
def regsPwrModule : List RegRow := [
  ⟨0, 19, 0x0, 0, 1, 0x80ffffff, 0x0, 0x0, 0x0, 0x800b6590, []⟩,  -- R689
  ⟨0, 19, 0x4, 0, 1, 0x0, 0xf, 0x0, 0xfe000000, 0x0, []⟩,  -- R689
  ⟨0, 19, 0x8, 0, 1, 0x0, 0x0, 0x0, 0xffffffff, 0x0, []⟩,  -- R689
  ⟨0, 19, 0xc, 0, 1, 0x0, 0x0, 0x0, 0xffffffff, 0x0, []⟩,  -- R689
  ⟨0, 19, 0x10, 0, 1, 0x0, 0x0, 0x0, 0xffff, 0x0, []⟩,  -- R689
  ⟨0, 19, 0x14, 0, 1, 0x0, 0x0, 0x0, 0xffffffff, 0x0, []⟩,  -- R689
  ⟨0, 19, 0x18, 0, 1, 0x0, 0x0, 0x0, 0xff, 0xff, []⟩,  -- R689
  ⟨0, 19, 0x1c, 0, 1, 0xffffffff, 0x0, 0x0, 0x0, 0xbf0305dc, []⟩,  -- R689
  ⟨0, 19, 0x20, 0, 1, 0x0, 0x0, 0xffffffff, 0x0, 0x0, []⟩,  -- R689
  ⟨0, 19, 0x24, 0, 1, 0x0, 0x0, 0xffffffff, 0x0, 0x0, []⟩,  -- R689
  ⟨0, 19, 0x28, 0, 1, 0x0, 0x0, 0xffffffff, 0x0, 0x0, []⟩]  -- R689

/-- PWR_ registers, half scope. -/
def regsPwrHalf : List RegRow := [
  ⟨1, 19, 0x0, 0, 1, 0x7f, 0x0, 0x0, 0x0, 0x0, []⟩,  -- R690
  ⟨1, 19, 0x4, 0, 1, 0x0, 0x0, 0x0, 0xe003ffff, 0x40000000, [(0, 6, 0)]⟩,  -- R690
  ⟨1, 19, 0x8, 0, 1, 0x0, 0x0, 0x0, 0xffffffff, 0x0, [(0, 6, 0)]⟩,  -- R690
  ⟨1, 19, 0xc, 0, 1, 0x0, 0x0, 0x0, 0xffffffff, 0x0, [(0, 6, 0)]⟩,  -- R690
  ⟨1, 19, 0x10, 0, 1, 0x0, 0x0, 0x0, 0xffffffff, 0x0, [(0, 6, 0)]⟩,  -- R690
  ⟨1, 19, 0x14, 0, 1, 0x0, 0x0, 0x0, 0xffff, 0x0, [(0, 6, 0)]⟩,  -- R690
  ⟨1, 19, 0x18, 0, 1, 0x0, 0x0, 0x0, 0xffffff00, 0x3fffff00, [(0, 6, 0)]⟩,  -- R690
  ⟨1, 19, 0x1c, 0, 1, 0x0, 0x0, 0xffffffff, 0x0, 0x0, [(0, 6, 0)]⟩,  -- R690
  ⟨1, 19, 0x20, 0, 1, 0x0, 0x0, 0xffffffff, 0x0, 0x0, [(0, 6, 0)]⟩,  -- R690
  ⟨1, 19, 0x24, 0, 1, 0x0, 0x0, 0xffffffff, 0x0, 0x0, [(0, 6, 0)]⟩,  -- R690
  ⟨1, 19, 0x28, 0, 1, 0x0, 0x0, 0xffffffff, 0x0, 0x0, [(0, 6, 0)]⟩]  -- R690

/-- EMB_ registers, module scope. -/
def regsEmbModule : List RegRow := [
  ⟨0, 20, 0x0, 0, 1, 0xffff, 0x0, 0x0, 0x0, 0x1e3c, []⟩,  -- R691
  ⟨0, 20, 0x4, 0, 1, 0x0, 0x7, 0x0, 0xfc000000, 0x0, []⟩,  -- R691
  ⟨0, 20, 0x8, 0, 1, 0x0, 0x0, 0x0, 0xffff, 0x0, []⟩,  -- R691
  ⟨0, 20, 0xc, 0, 1, 0x0, 0x0, 0x0, 0xffffffff, 0x0, []⟩,  -- R691
  ⟨0, 20, 0x10, 0, 1, 0x0, 0x0, 0x0, 0xffff, 0x0, []⟩,  -- R691
  ⟨0, 20, 0x14, 0, 1, 0x0, 0x0, 0x0, 0xffffffff, 0x0, []⟩,  -- R691
  ⟨0, 20, 0x18, 0, 1, 0x0, 0x0, 0xffffffff, 0x0, 0x0, []⟩,  -- R691
  ⟨0, 20, 0x1c, 0, 1, 0x0, 0x0, 0xffffffff, 0x0, 0x0, []⟩]  -- R691

/-- THM_ registers, module scope. -/
def regsThmModule : List RegRow := [
  ⟨0, 21, 0x0, 0, 1, 0x8003ffff, 0x0, 0x0, 0x0, 0x0, []⟩,  -- R717
  ⟨0, 21, 0x4, 0, 1, 0x0, 0x0, 0x0, 0xfe00ffff, 0x0, []⟩,  -- R717
  ⟨0, 21, 0x8, 0, 1, 0x0, 0x0, 0x0, 0xffff, 0x0, []⟩,  -- R717
  ⟨0, 21, 0xc, 0, 1, 0xff, 0x0, 0x0, 0x0, 0x0, []⟩,  -- R717
  ⟨0, 21, 0x10, 0, 1, 0x0, 0x0, 0x0, 0xfffff800, 0x0, [(12, 7, 0)]⟩,  -- R717
  ⟨0, 21, 0x14, 0, 1, 0x0, 0x0, 0xffff, 0xffff0000, 0x0, [(12, 7, 0)]⟩,  -- R717
  ⟨0, 21, 0x18, 0, 1, 0x0, 0x0, 0xffffffff, 0x0, 0x0, [(12, 7, 0)]⟩,  -- R717
  ⟨0, 21, 0x1c, 0, 1, 0x0, 0x0, 0x0, 0xff, 0xff, [(12, 7, 0)]⟩,  -- R717
  ⟨0, 21, 0x20, 0, 1, 0x0, 0x0, 0x0, 0xff80ffff, 0x0, []⟩,  -- R717
  ⟨0, 21, 0x24, 0, 1, 0xffffffff, 0x0, 0x0, 0x0, 0x258141e, []⟩,  -- R717
  ⟨0, 21, 0x28, 0, 1, 0x0, 0x0, 0x0, 0xffff0000, 0x0, []⟩,  -- R717
  ⟨0, 21, 0x2c, 0, 1, 0x0, 0x0, 0x0, 0xffffffff, 0x0, []⟩,  -- R717
  ⟨0, 21, 0x30, 0, 1, 0xffffffff, 0x0, 0x0, 0x0, 0xe28100f, []⟩,  -- R717
  ⟨0, 21, 0x34, 0, 1, 0x0, 0x0, 0x0, 0xffffffff, 0x0, []⟩,  -- R717
  ⟨0, 21, 0x38, 0, 1, 0x8000ffff, 0x0, 0x0, 0x0, 0x2ee0, []⟩,  -- R717
  ⟨0, 21, 0x3c, 0, 1, 0x0, 0x4, 0x0, 0x3, 0x0, []⟩,  -- R717
  ⟨0, 21, 0x40, 0, 1, 0x0, 0x0, 0xffffffff, 0x0, 0x0, []⟩,  -- R717
  ⟨0, 21, 0x44, 0, 1, 0x0, 0x0, 0xffffffff, 0x0, 0x0, []⟩,  -- R717
  ⟨0, 21, 0x48, 0, 1, 0x0, 0x0, 0x0, 0xffffffff, 0x0, []⟩]  -- R717

/-- FLT_ registers, module scope. -/
def regsFltModule : List RegRow := [
  ⟨0, 22, 0x0, 0, 1, 0x8000ff00, 0x0, 0x0, 0x0, 0x800, []⟩,  -- R751
  ⟨0, 22, 0x4, 0, 1, 0x0, 0x7, 0x0, 0xc0000000, 0x0, []⟩,  -- R751
  ⟨0, 22, 0x8, 0, 1, 0x3, 0x0, 0x0, 0x0, 0x0, []⟩,  -- R751
  ⟨0, 22, 0xc, 0, 1, 0x0, 0x0, 0xffff, 0xf0000000, 0x0, [(8, 1, 0)]⟩,  -- R751
  ⟨0, 22, 0x10, 0, 1, 0x0, 0x0, 0xffffffff, 0x0, 0x0, []⟩,  -- R751
  ⟨0, 22, 0x14, 0, 1, 0xffff, 0x0, 0x0, 0x0, 0x1000, []⟩,  -- R751
  ⟨0, 22, 0x18, 0, 1, 0x0, 0x0, 0x0, 0xffffffff, 0x0, []⟩,  -- R751
  ⟨0, 22, 0x1c, 0, 1, 0x0, 0x0, 0x0, 0x1ffffff, 0x0, []⟩]  -- R751

/-- FLT_ registers, partition scope. -/
def regsFltPartition : List RegRow := [
  ⟨6, 22, 0x0, 0, 1, 0x0, 0x0, 0xffffffff, 0x0, 0x0, []⟩,  -- R752
  ⟨6, 22, 0x4, 0, 1, 0x0, 0x0, 0x0, 0xffff0000, 0x0, []⟩]  -- R752

/-- RST_ registers, module scope. -/
def regsRstModule : List RegRow := [
  ⟨0, 23, 0x0, 0, 1, 0x0, 0x0, 0x0, 0xf0000000, 0x0, []⟩,  -- R753
  ⟨0, 23, 0x4, 0, 1, 0x0, 0x0, 0x0, 0xff, 0x1, []⟩,  -- R753
  ⟨0, 23, 0x8, 0, 1, 0x0, 0x0, 0x0, 0xffffffff, 0x1, []⟩,  -- R753
  ⟨0, 23, 0xc, 0, 1, 0x0, 0x0, 0xffffffff, 0x0, 0x0, []⟩]  -- R753

/-- RST_ registers, partition scope. -/
def regsRstPartition : List RegRow := [
  ⟨6, 23, 0x0, 0, 1, 0x0, 0x0, 0xffffffff, 0x0, 0x0, []⟩,  -- R753
  ⟨6, 23, 0x4, 0, 1, 0x0, 0x0, 0x0, 0xffffffff, 0x0, []⟩]  -- R753

/-- KDL_ registers, half scope. -/
def regsKdlHalf : List RegRow := [
  ⟨1, 24, 0x0, 0, 1, 0x0, 0x0, 0x0, 0xffc07f7f, 0x0, []⟩,  -- R754
  ⟨1, 24, 0x4, 0, 1, 0x0, 0x0, 0x0, 0xffff, 0x0, []⟩,  -- R754
  ⟨1, 24, 0x8, 0, 1, 0x7f, 0x0, 0x0, 0x0, 0x0, []⟩,  -- R754
  ⟨1, 24, 0xc, 0, 1, 0x0, 0x0, 0x0, 0xfffff800, 0x0, [(8, 6, 0)]⟩,  -- R754
  ⟨1, 24, 0x10, 0, 1, 0x7f, 0x0, 0x0, 0x0, 0x0, []⟩,  -- R754
  ⟨1, 24, 0x14, 0, 1, 0x0, 0x0, 0x0, 0x3fff, 0x0, [(8, 6, 0), (16, 6, 0)]⟩,  -- R754
  ⟨1, 24, 0x18, 0, 1, 0x7f, 0x0, 0x0, 0x0, 0x0, []⟩,  -- R754
  ⟨1, 24, 0x1c, 0, 1, 0x0, 0x0, 0x0, 0xf0001fff, 0x0, [(24, 6, 0)]⟩]  -- R754

/-- ERG_ registers, partition scope. -/
def regsErgPartition : List RegRow := [
  ⟨6, 25, 0x0, 0, 1, 0x1, 0x0, 0x0, 0x0, 0x1, []⟩,  -- R177
  ⟨6, 25, 0x4, 0, 1, 0xffffffff, 0x0, 0x0, 0x0, 0x0, []⟩,  -- R178
  ⟨6, 25, 0x8, 0, 1, 0x0, 0x0, 0x0, 0x0, 0x0, []⟩,  -- R178
  ⟨6, 25, 0xc, 0, 1, 0x800fffff, 0x0, 0x0, 0x0, 0x0, []⟩,  -- R179
  ⟨6, 25, 0x10, 0, 1, 0xfff, 0x0, 0x0, 0x0, 0x0, []⟩,  -- R180
  ⟨6, 25, 0x14, 0, 1, 0x0, 0x0, 0xffffffff, 0x0, 0x0, [(16, 11, 0)]⟩,  -- R181
  ⟨6, 25, 0x18, 0, 1, 0x0, 0x0, 0xffffffff, 0x0, 0x0, [(16, 11, 0)]⟩,  -- R181
  ⟨6, 25, 0x1c, 0, 1, 0x0, 0x0, 0xffffffff, 0x0, 0x0, [(16, 11, 0)]⟩,  -- R181
  ⟨6, 25, 0x20, 0, 1, 0x0, 0x0, 0xffffffff, 0x0, 0x0, [(16, 11, 0)]⟩,  -- R181
  ⟨6, 25, 0x24, 0, 1, 0x0, 0x0, 0xffffffff, 0x0, 0x0, [(16, 11, 0)]⟩,  -- R182
  ⟨6, 25, 0x28, 0, 1, 0x0, 0x0, 0xffffffff, 0x0, 0x0, [(16, 11, 0)]⟩,  -- R182
  ⟨6, 25, 0x2c, 0, 1, 0xfffff, 0x0, 0x0, 0x0, 0xfffff, [(16, 11, 0)]⟩,  -- R183
  ⟨6, 25, 0x30, 0, 1, 0xffff, 0x0, 0x0, 0x0, 0xffff, [(16, 11, 0)]⟩,  -- R184
  ⟨6, 25, 0x34, 0, 1, 0x0, 0x0, 0xffff0000, 0x1f, 0x10, [(16, 11, 0)]⟩,  -- R185
  ⟨6, 25, 0x38, 0, 1, 0x0, 0x0, 0xffffffff, 0x0, 0x0, []⟩]  -- R186

/-- Every register of the module. -/
def regTable : List RegRow :=
  regsGrnSheaf ++
  regsGrnGrain ++
  regsTlyGrain ++
  regsRtrGrain ++
  regsFluDie ++
  regsWnwSheaf ++
  regsGlnSheaf ++
  regsHopDie ++
  regsHopPartition ++
  regsSwgPartition ++
  regsMoePartition ++
  regsGryModule ++
  regsGryField ++
  regsBinDie ++
  regsCrbModule ++
  regsImgModule ++
  regsPrtPartition ++
  regsHstDie ++
  regsHstPartition ++
  regsDrtDie ++
  regsCadModule ++
  regsCalModule ++
  regsPwrModule ++
  regsPwrHalf ++
  regsEmbModule ++
  regsThmModule ++
  regsFltModule ++
  regsFltPartition ++
  regsRstModule ++
  regsRstPartition ++
  regsKdlHalf ++
  regsErgPartition

end Sys2Proof.Machine
end

