-- ==== Sys2Proof/Machine/Regs.lean ====
section
/-!
DEFINITION. The register file (R12 to R20): where a register is, its map, its value, and how hardware changes it.
-/
namespace Sys2Proof.Machine

/-- What a meaning answers. -/
abbrev Out := Host.Outcome State Fault Refusal

/-- Where a register is: scope and unit index of R48, block of R49, offset, and the selector value of a windowed
register (0 where the register has no selector). -/
structure RegLoc where
  scope : Nat
  unit  : Nat
  blk   : Nat
  off   : Nat
  sel   : Nat := 0
  deriving DecidableEq, Repr

/-- The device address of a register (R47). -/
def regAddr (l : RegLoc) : Nat :=
  8 * 2 ^ 44 + l.scope * 2 ^ 40 + l.unit * 2 ^ 18 + l.blk * 2 ^ 12 + l.off

/-- The key of a register in the register file: its address, and above it its selector value. -/
def regKey (l : RegLoc) : Nat := l.sel * 2 ^ 48 + regAddr l

/-- The unit index of a half (R48). -/
def halfUnit (h : Nat) : Nat := h * 2 ^ 21
/-- The unit index of a field (R48). -/
def fieldUnit (f : Nat) : Nat := f / 80 * 2 ^ 21 + f % 80 * 2 ^ 14
/-- The unit index of a sheaf (R48). -/
def sheafUnit (sh : Nat) : Nat := fieldUnit (sh / 36) + sh % 36 * 2 ^ 8
/-- The unit index of a grain (R48). -/
def grainUnit (g : Nat) : Nat := sheafUnit (g / 256) + g % 256

/-- A register of a grain. -/
def rGrain (g blk off : Nat) : RegLoc := ⟨4, grainUnit g, blk, off, 0⟩
/-- A register of a sheaf. -/
def rSheaf (sh blk off : Nat) : RegLoc := ⟨3, sheafUnit sh, blk, off, 0⟩
/-- A register of a field. -/
def rField (f blk off : Nat) (sel : Nat := 0) : RegLoc := ⟨2, fieldUnit f, blk, off, sel⟩
/-- A register of a half. -/
def rHalf (h blk off : Nat) (sel : Nat := 0) : RegLoc := ⟨1, halfUnit h, blk, off, sel⟩
/-- A register of the module. -/
def rModule (blk off : Nat) (sel : Nat := 0) : RegLoc := ⟨0, 0, blk, off, sel⟩
/-- A register of a companion die. -/
def rDie (d blk off : Nat) (sel : Nat := 0) : RegLoc := ⟨5, d, blk, off, sel⟩
/-- A register of a partition. -/
def rPart (p blk off : Nat) (sel : Nat := 0) : RegLoc := ⟨6, p, blk, off, sel⟩

/-- True when a row of the table holds an offset of a block at a scope. -/
def rowHas (r : RegRow) (scope blk off : Nat) : Bool :=
  r.scope == scope && r.block == blk &&
    (if r.stride == 0 then off == r.off
     else r.off ≤ off && (off - r.off) % r.stride == 0 && (off - r.off) / r.stride < r.count)

/-- The map of a register; none for an undefined offset (R16). -/
def regRow (scope blk off : Nat) : Option RegRow := regTable.find? (fun r => rowHas r scope blk off)

/-- The map of a register of a unit: the module-wide registers of the DRT_ block, from 0x100 on, are at P0 alone (R16, R621). -/
def regRowAt (l : RegLoc) : Option RegRow :=
  if l.scope = 5 ∧ l.blk = 0x10 ∧ 0x100 ≤ l.off ∧ l.unit ≠ 0x18 then none else regRow l.scope l.blk l.off

/-- The reset value of a register (R20). Window 0 of each function selects its own partition scope (R574). -/
def regReset (l : RegLoc) : Word :=
  if l.scope = 6 ∧ l.blk = 0xF ∧ (l.off = 0x80 ∨ l.off = 0xC0) then word (2 ^ 31 + 6 * 2 ^ 26 + l.unit)
  else
  match regRowAt l with
  | some r => word r.reset
  | none => 0

/-- The stored value of a register. -/
def reg (s : State) (l : RegLoc) : Word := mapGet (regReset l) s.regs (regKey l)

/-- Hardware or a write stores a value. -/
def setReg (s : State) (l : RegLoc) (v : Word) : State :=
  { s with regs := mapSet (regReset l) s.regs (regKey l) v }

/-- A field of a register. -/
def regF (s : State) (l : RegLoc) (hi lo : Nat) : Nat := bits (reg s l) hi lo

/-- A bit of a register. -/
def regBit (s : State) (l : RegLoc) (i : Nat) : Bool := bit (reg s l) i

/-- Hardware sets a field of a register. -/
def setRegF (s : State) (l : RegLoc) (hi lo v : Nat) : State := setReg s l (setBits (reg s l) hi lo v)

/-- Hardware sets bits of a register. -/
def orReg (s : State) (l : RegLoc) (m : Nat) : State := setReg s l (reg s l ||| word m)

/-- Hardware counts in a 32-bit counter, which saturates (R124, R221, R268, R322). -/
def incReg (s : State) (l : RegLoc) (n : Nat := 1) : State := setReg s l (satInc (reg s l) n)

/-- Hardware counts in the field hi..lo of a register, saturating at the field's full width. -/
def incRegF (s : State) (l : RegLoc) (hi lo : Nat) (n : Nat := 1) : State :=
  setRegF s l hi lo (satAdd (hi + 1 - lo) (regF s l hi lo) n)

/-- Registers whose key a test picks take their reset values (R20). -/
def resetRegs (s : State) (p : Nat → Bool) : State := { s with regs := mapDrop p s.regs }

/-- A key's scope, unit index, block and offset (R47). -/
def keyScope (k : Nat) : Nat := nbits k 43 40
def keyUnit (k : Nat) : Nat := nbits k 39 18
def keyBlk (k : Nat) : Nat := nbits k 17 12
def keyOff (k : Nat) : Nat := nbits k 11 0

/-- Events of severity ERROR and FATAL are recorded in the Damper log, which keeps the newest 65 536 (R23, R745). -/
def logAdd (s : State) (e : EventRec) : State :=
  if evSeverity e.ev < 2 then s
  else { s with log := (s.log ++ [e]).drop ((s.log.length + 1) - 65536) }

/-- An event is held for its function's ring, 256 at most; the others are counted as lost by severity, in HST_EVT_LOST
and for the next EVENTS_LOST record (R23, R586, log 23). -/
def hold (s : State) (e : EventRec) : State :=
  let f := e.part.getD 0
  let q := mapGet {} s.evq f
  let q' : EvQueue :=
    if q.held.length < 256 then { q with held := q.held ++ [e] }
    else { q with lost := q.lost.set! (evSeverity e.ev) (satAdd 8 (q.lost.getD (evSeverity e.ev) 0) 1) }
  let sv := evSeverity e.ev
  let s1 := if q.held.length < 256 then s else incRegF s (rPart f 0xF 0x40) (8 * sv + 7) (8 * sv)
  { s1 with evq := mapSet {} s1.evq f q' }

/-- The partition's event counts and the code of its last ERROR or FATAL event (R752). -/
def countEvent (s : State) (e : EventRec) : State :=
  match e.part with
  | none => s
  | some p =>
    let sv := evSeverity e.ev
    let s := incRegF s (rPart p 0x16 0) (8 * sv + 7) (8 * sv)
    if sv < 2 then s else setReg s (rPart p 0x16 4) (word (evCode e.ev * 2 ^ 16))

/-- Raise an event (R21 to R24, R584, R585): the partition that owns the affected resource (none: the owner's), the
raising unit, and the detail fields in the order the raising chapter lists them, each with its width (log 10). -/
def raise (s : State) (ev : Ev) (part : Option Nat) (scope unit : Nat) (fields : List (Nat × Nat)) : State :=
  let e : EventRec := ⟨ev, part, scope, unit, s.time, BitVec.ofNat 128 (packFields fields)⟩
  countEvent (hold (logAdd s e) e) e

/-- Raise an event only the first time in a beat for a key, where a rule says so. -/
def raiseOnceAt (s : State) (key : Nat) (ev : Ev) (part : Option Nat) (scope unit : Nat) (fields : List (Nat × Nat)) : State :=
  if s.onceBeat.contains (evCode ev, key) then s
  else raise { s with onceBeat := (evCode ev, key) :: s.onceBeat } ev part scope unit fields

/-- Raise an event only the first time in a beat for a unit, where a rule says so. -/
def raiseOnce (s : State) (ev : Ev) (part : Option Nat) (scope unit : Nat) (fields : List (Nat × Nat)) : State :=
  raiseOnceAt s unit ev part scope unit fields

/-- Draw the next free value's number (log 2). -/
def draw (s : State) : Nat × State := (s.fresh, { s with fresh := s.fresh + 1 })

end Sys2Proof.Machine
end

