-- ==== Sys2Proof/Machine/Ops.lean ====
section
/-!
DEFINITION. The named operations over units: their records, scalar registers and predicates (R59), partitions, fault
flags (R67, R120, R121), the program counter and its loops (R74), and issue (R67 to R70).
-/
namespace Sys2Proof.Machine

/-- The grain of a number, as an issuer. -/
def ug (g : Nat) : Issuer := .grain (Fin.ofNat 1474560 g)
/-- The binder of a sheaf number, as an issuer. -/
def ub (sh : Nat) : Issuer := .binder (Fin.ofNat 5760 sh)

/-- A half as a whole. -/
def halfSt (s : State) (h : Nat) : HalfSt := mapGet {} s.halves h
/-- A memory that its half's last reset left unpredictable (R26, R730): the k-th of the draw; as at manufacture for none. -/
def halfMem (x : HalfSt) (k : Nat) : Mem := if x.draw = 0 then {} else { base := x.draw + k }
/-- A grain that nothing has changed since its half's last reset (R730). -/
def grain0 (s : State) (g : Nat) : Grain :=
  let x := halfSt s (halfOfGrain g)
  { core := { cycle0 := x.since }, code := halfMem x g, mem := halfMem x (1474560 + g) }
/-- A sheaf that nothing has changed since its half's last reset (R730). -/
def sheaf0 (s : State) (sh : Nat) : Sheaf :=
  let x := halfSt s (halfOfSheaf sh)
  { core := { cycle0 := x.since }, bmem := halfMem x (2949120 + sh), rot := halfMem x (2954880 + sh) }
/-- A grain. -/
def grain (s : State) (g : Nat) : Grain := mapGet (grain0 s g) s.grains g
/-- Replace a grain. -/
def setGrain (s : State) (g : Nat) (x : Grain) : State := { s with grains := mapSet (grain0 s g) s.grains g x }
/-- A sheaf. -/
def sheaf (s : State) (sh : Nat) : Sheaf := mapGet (sheaf0 s sh) s.sheaves sh
/-- Replace a sheaf. -/
def setSheaf (s : State) (sh : Nat) (x : Sheaf) : State := { s with sheaves := mapSet (sheaf0 s sh) s.sheaves sh x }
/-- An ear's power record. -/
def ear (s : State) (e : Nat) : EarPw := mapGet {} s.ears e

/-- The shared part of a grain or binder. -/
def core (s : State) : Issuer → Core
  | .grain g => (grain s g).core
  | .binder sh => (sheaf s sh).core

/-- Replace the shared part of a grain or binder. -/
def setCore (s : State) (u : Issuer) (c : Core) : State :=
  match u with
  | .grain g => setGrain s g { grain s g with core := c }
  | .binder sh => setSheaf s sh { sheaf s sh with core := c }

/-- True for a binder. -/
def isBinder : Issuer → Bool
  | .grain _ => false
  | .binder _ => true

/-- The sheaf of a grain or binder. -/
def sheafOf : Issuer → Nat
  | .grain g => sheafOfGrain g
  | .binder sh => sh

/-- The router a grain or binder sends from: its own, or the sheaf port (R277, R293). -/
def routerOf : Issuer → Nat
  | .grain g => g
  | .binder sh => sheafPort sh

/-- The partition a router's local port belongs to (R318, R320). -/
def grainPart (s : State) (g : Nat) : Nat := regF s (rGrain g 3 0) 5 0
/-- The partition of a sheaf: that of its port router. -/
def sheafPart (s : State) (sh : Nat) : Nat := grainPart s (sheafPort sh)
/-! ### The sheaf map (R534, R556) -/

/-- Column and row of a sheaf on the module-wide grid of 120 by 48 (R534). -/
def sheafCol (sh : Nat) : Nat := 60 * halfOfSheaf sh + 6 * (sh / 36 % 80 % 10) + sh % 36 % 6
def sheafRow (sh : Nat) : Nat := 6 * (sh / 36 % 80 / 10) + sh % 36 / 6
/-- The sheaf at a column and row of the grid (R534). -/
def sheafAt (col row : Nat) : Nat := grainAt (col / 60) (16 * (col % 60)) (16 * row) / 256
/-- An entry of a partition's sheaf map: the sheaf it maps from and the one it maps to, when VALID (R556). -/
def mapPair (s : State) (p i : Nat) : Option (Nat × Nat) :=
  let e := mapGet 0 s.sheafMap (16 * p + i)
  if bit e 31 then some (sheafAt (bits e 30 24) (bits e 23 18), sheafAt (bits e 17 11) (bits e 10 5)) else none
/-- The entries of a partition's sheaf map in force. -/
def mapPairs (s : State) (p : Nat) : List (Nat × Nat) := (List.range 16).filterMap (mapPair s p)
/-- Where an image sheaf of a partition is (R556). -/
def xlatSheaf (s : State) (p sh : Nat) : Nat := (((mapPairs s p).find? (fun e => e.1 == sh)).map Prod.snd).getD sh
/-- The image sheaf that a sheaf stands for in a partition (R540). -/
def imageSheaf (s : State) (p sh : Nat) : Nat := (((mapPairs s p).find? (fun e => e.2 == sh)).map Prod.fst).getD sh
/-- Where an image grain of a partition is (R556). -/
def xlatGrain (s : State) (p g : Nat) : Nat := xlatSheaf s p (g / 256) * 256 + g % 256
/-- A coordinate word translated; one that names no grain stands (R556). -/
def xlatCoord (s : State) (p : Nat) (c : BitVec 21) : BitVec 21 :=
  if coordOk c.toNat then BitVec.ofNat 21 (coordOf (xlatGrain s p (grainOfCoord c.toNat))) else c
/-- A number whose sheaf fields (half at bit hb, field from hb - 7, sheaf from lo) are replaced by another sheaf's. -/
def withSheaf (x hb fb sb sh : Nat) : Nat :=
  let keep := x - nbits x hb hb * 2 ^ hb - nbits x (fb + 6) fb * 2 ^ fb - nbits x (sb + 5) sb * 2 ^ sb
  keep + halfOfSheaf sh * 2 ^ hb + sh / 36 % 80 * 2 ^ fb + sh % 36 * 2 ^ sb
/-- A device address translated: fabric addresses, and registers of sheaf and grain scope, whose sheaf exists (R556). -/
def xlatAddr (s : State) (p a : Nat) : Nat :=
  let rg := nbits a 47 44
  if rg = 0 ∧ nbits a 36 30 < 80 ∧ nbits a 29 24 < 36 then
    withSheaf a 37 30 24 (xlatSheaf s p ((nbits a 37 37 * 80 + nbits a 36 30) * 36 + nbits a 29 24))
  else if rg = 8 ∧ (nbits a 43 40 = 3 ∨ nbits a 43 40 = 4) ∧ nbits a 38 32 < 80 ∧ nbits a 31 26 < 36 then
    withSheaf a 39 32 26 (xlatSheaf s p ((nbits a 39 39 * 80 + nbits a 38 32) * 36 + nbits a 31 26))
  else a
/-- A lock handle translated (R98, R556). -/
def xlatLock (s : State) (p : Nat) (h : Word) : Word :=
  if bits h 19 13 < 80 ∧ bits h 12 7 < 36 then
    word (withSheaf h.toNat 20 13 7 (xlatSheaf s p ((bits h 20 20 * 80 + bits h 19 13) * 36 + bits h 12 7)))
  else h

/-- A register of a partition's PRT_ block (R568). -/
def rPrt (p off : Nat) : RegLoc := rPart p 0xE off
/-- PRT_STATE (R568): 0 ABSENT, 1 STARTING, 2 RUNNING, 3 QUIESCING, 4 RESTING, 5 FAILED, 6 RESETTING. -/
def prtState (s : State) (p : Nat) : Nat := regF s (rPrt p 8) 3 0
/-- The image sheaves of a partition's rectangle (R526, R534), row by row. -/
def rectSheaves (s : State) (p : Nat) : List Nat :=
  let g := reg s (rPrt p 4)
  (List.range (bits g 11 6)).flatMap (fun y => (List.range (bits g 18 12)).map (fun x => sheafAt (bits g 31 25 + x) (bits g 24 19 + y)))
/-- The current sheaves of a partition (R537): its rectangle, less the image sheaves relocated away, plus the reserves they
were relocated to. -/
def curSheaves (s : State) (p : Nat) : List Nat := (rectSheaves s p).map (xlatSheaf s p)
/-- The partition that owns a grain (R23, R52, R320, R537): the one that PART names, where that partition is present and the
grain lies in one of its current sheaves. A free reserve, and a sheaf that a partition has left, belong to none. -/
def grainOwner (s : State) (g : Nat) : Option Nat :=
  let p := grainPart s g
  if prtState s p != 0 && (curSheaves s p).contains (sheafOfGrain g) then some p else none
/-- The partition that owns a sheaf: that of its port router. -/
def sheafOwner (s : State) (sh : Nat) : Option Nat := grainOwner s (sheafPort sh)
/-- The partition that owns a grain or binder. -/
def unitOwner (s : State) (u : Issuer) : Option Nat := grainOwner s (routerOf u)
/-- True while a current sheaf of a partition lies in a half. -/
def partInHalf (s : State) (p h : Nat) : Bool := (curSheaves s p).any (fun sh => halfOfSheaf sh == h)
/-- The partition a sheaf is a current sheaf of. -/
def ownerOf (s : State) (sh : Nat) : Option Nat := (List.range 64).find? (fun p => prtState s p != 0 && (curSheaves s p).contains sh)

/-! ### Retired fields (R722, R724) -/

/-- A field's record in the defect map. -/
def fieldRec (s : State) (f : Nat) : FieldRec := mapGet {} s.store.fields f
/-- True for a retired field. -/
def retired (s : State) (f : Nat) : Bool := (fieldRec s f).status == 2

/-- The partition of a grain or binder. -/
def partOf (s : State) (u : Issuer) : Nat := grainPart s (routerOf u)

/-- Local port fenced, so in drain mode (R312). -/
def fenced (s : State) (g : Nat) : Bool := regBit s (rGrain g 3 0) 31

/-- The number of a local port: grains first, then sheaf ports, companion dies and Granary read ports. -/
def portKey : Port → Nat
  | .grain g => g
  | .sheaf sh => 1474560 + sh
  | .die d => 1480320 + d
  | .granary f => 1480352 + f

/-- The reset epoch of a local port (R733). -/
def epochOf (s : State) (p : Port) : Nat := mapGet 0 s.epochs (portKey p)

/-- The local port of a grain or binder. -/
def portOf : Issuer → Port
  | .grain g => .grain g
  | .binder sh => .sheaf sh

/-- True while an ear is ON and not in transition (R109, R111). -/
def earOn (s : State) (e : Nat) : Bool := (ear s e).now == .on && (ear s e).goal.isNone

/-- GRN_CTRL, or GRN_BND_CTRL for a binder (R117, R125). -/
def rCtrl : Issuer → RegLoc
  | .grain g => rGrain g 1 0x004
  | .binder sh => rSheaf sh 1 0x000
/-- GRN_START_PC (R119, R125). -/
def rStart : Issuer → RegLoc
  | .grain g => rGrain g 1 0x010
  | .binder sh => rSheaf sh 1 0x00C
/-- GRN_FAULT (R120, R125). -/
def rFault : Issuer → RegLoc
  | .grain g => rGrain g 1 0x014
  | .binder sh => rSheaf sh 1 0x010
/-- GRN_FAULT_PC (R121, R125). -/
def rFaultPc : Issuer → RegLoc
  | .grain g => rGrain g 1 0x018
  | .binder sh => rSheaf sh 1 0x014

/-- The scope code and unit index of a grain or binder, as events name it (R584). -/
def scopeOf : Issuer → Nat
  | .grain _ => 4
  | .binder _ => 3
def unitOf : Issuer → Nat
  | .grain g => grainUnit g
  | .binder sh => sheafUnit sh

/-- s[i]: s0 reads as zero (R59). -/
def sGet (c : Core) (i : Nat) : Word := if i = 0 then 0 else c.s.getD i 0
/-- s[i] := v; a write to s0 is discarded (R59). -/
def sSet (c : Core) (i : Nat) (v : Word) : Core := if i = 0 then c else { c with s := c.s.set! i v }
/-- p[i]: p0 reads as one (R59). -/
def pGet (c : Core) (i : Nat) : Bool := if i = 0 then true else c.p.getD i false
/-- p[i] := b; a write to p0 is discarded (R59). -/
def pSet (c : Core) (i : Nat) (b : Bool) : Core := if i = 0 then c else { c with p := c.p.set! i b }

/-- The guard of an instruction: p[guard] XOR negate (R69, R75). -/
def guardOk (c : Core) (i : Ins) : Bool := pGet c i.guard != i.neg

/-- Words a unit can address with its program counter (R60, R112). -/
def codeWords (u : Issuer) : Nat := if isBinder u then 65536 else 1024

/-- The instruction word at a word index: code store of a grain, memory of a binder (R60, R112). -/
def fetchWord (s : State) (u : Issuer) (i : Nat) : Nat :=
  match u with
  | .grain g => memGet (grain s g).code (4 * i) 4
  | .binder sh => memGet (sheaf s sh).bmem (4 * i) 4

/-- Set bits of GRN_FAULT; the first to be set after it was all zero records the instruction's address (R120, R121). -/
def setFault (s : State) (u : Issuer) (mask pc : Nat) : State :=
  let s1 := if reg s (rFault u) = 0 then setReg s (rFaultPc u) (word (2 ^ 31 + pc % (if isBinder u then 65536 else 1024))) else s
  orReg s1 (rFault u) mask

/-- Put the value a mismatch or an abandonment gives in every lane (R107). -/
def earNan (fn : EarFn) : BitVec 512 :=
  let w : Nat := match fn with | .isum => 0x80000000 | _ => 0x7FC00000
  BitVec.ofNat 512 (packFields (List.replicate 16 (32, w)))

/-- End of a loop level: at the end word with a count above 1 the body repeats, else the level ends (R74). -/
def loopEnd (c : Core) (lvl last : Nat) : Option Core × Core :=
  let l := c.loops.getD lvl {}
  if l.active && l.stop.toNat == last then
    if l.count.toNat > 1 then
      (some { c with loops := c.loops.set! lvl { l with count := l.count - 1 }, pc := l.start.toNat }, c)
    else (none, { c with loops := c.loops.set! lvl { l with active := false } })
  else (none, c)

/-- The level whose body lies inside the other's: the one that starts later, level 1 when they start together. -/
def innerLevel (c : Core) : Nat :=
  if (c.loops.getD 0 {}).start.toNat > (c.loops.getD 1 {}).start.toNat then 0 else 1

/-- The program counter after the word `last`: loops closed at it repeat or end, inner level first (R74). -/
def pcAfter (c : Core) (last : Nat) : Core :=
  let a := innerLevel c
  match loopEnd c a last with
  | (some c1, _) => c1
  | (none, c1) =>
    match loopEnd c1 (1 - a) last with
    | (some c2, _) => c2
    | (none, c2) => { c2 with pc := last + 1 }

/-- Advance past the instruction at the program counter. -/
def advance (c : Core) (len : Nat) : Core := pcAfter c (c.pc + len - 1)

/-- A taken branch to a target: loops whose body it leaves end (R74). -/
def jumpTo (c : Core) (target : Nat) : Core :=
  let keep := fun (l : LoopLevel) =>
    if l.active && (target < l.start.toNat || l.stop.toNat < target) then { l with active := false } else l
  { c with loops := c.loops.map keep, pc := target }

/-- The grains of an ear that its mask names and that have power (R103, R111). -/
def participants (s : State) (e : Nat) : List Nat :=
  if earOn s e then
    ((List.range 16).filter (fun i => bit (reg s (rSheaf (e / 16) 1 (0x40 + 4 * (e % 16)))) i)).map (fun i => 16 * e + i)
  else []

/-- A waiting participant of an ear operation ends with the values of R107 and EAR_ABANDON; EARBAR keeps vd (R108). -/
def earAbandonOne (s : State) (h : Nat) : State :=
  let x := grain s h
  match x.core.wait with
  | .ear fn _ vd =>
    let v := match fn with | .bar => x.v | _ => x.v.set! vd (earNan fn)
    let c := { advance x.core 1 with state := .running, wait := .none }
    setFault (setGrain s h { x with core := c, v := v }) (ug h) (2 ^ 6) x.core.pc
  | _ => s

/-- A participant leaves RUNNING while others wait: the waiting ones end (R108). -/
def earLeave (s : State) (g : Nat) : State :=
  let ps := participants s (earOfGrain g)
  if ps.contains g then (ps.filter (· != g)).foldl earAbandonOne s else s

/-- Leave RUNNING, for a grain (R108); a binder takes part in no ear. -/
def leave (s : State) (u : Issuer) : State :=
  match u with
  | .grain g => earLeave s g
  | .binder _ => s

/-- An illegal encoding (bit 0) or a program counter that leaves the code store (bit 1): FAULTED, the instruction has
no effect, its address recorded, GRAIN_FAULT raised once (R67, R126). -/
def coreFault (s : State) (u : Issuer) (b : Nat) : State :=
  let c := core s u
  let s1 := setFault (setCore s u { c with state := .faulted, wait := .none }) u (2 ^ b) c.pc
  let s2 := raise s1 .grainFault (unitOwner s u) (scopeOf u) (unitOf u)
    [(21, coordOf (routerOf u)), (32, (reg s1 (rFault u)).toNat), (32, (reg s1 (rFaultPc u)).toNat)]
  leave s2 u

/-- Scalar registers an instruction of a binder reads or writes (R70, R77). -/
def touches (i : Ins) : List Nat :=
  match i.op with
  | .nop | .halt | .brk | .pand | .por | .pxor | .pandn | .fenceL | .fenceS | .fenceG => []
  | .rdcyc | .rdid | .li | .lih | .p2s | .br | .beatw => [i.rd]
  | .pcmp | .wait | .stoke | .gsigStart | .gsigHalt => [i.ra, i.rb]
  | .pcmpi | .s2p | .loop => [i.ra]
  | .clz | .popc | .addi | .andi | .ori | .xori | .shi | .jr
  | .lw | .lhu | .lbu | .lh | .lb | .sw | .sh | .sb
  | .tcRd | .tcSet | .tcSub | .tcAdd | .tcClrerr => [i.rd, i.ra]
  | .dmaRead | .dmaWrite => [i.ra, i.rb, i.imm]
  | _ => [i.rd, i.ra, i.rb]

/-- MXU operations that hold a queue entry: those not begun, and the one that runs (R201). An operation that a later one
followed has left the queue and drains. -/
def mxuDepth (x : Grain) : Nat :=
  (x.mxuQ.filter (fun o => !o.begun)).length + bnat (x.mxuQ.any (fun o => o.begun))

/-- True while an MXU operation on a tile is queued, running or draining (R200). -/
def tileBusy (x : Grain) (t : Nat) : Bool := x.mxuQ.any (fun o => mxuTile o.imm == t)

/-- True when the instruction cannot issue yet: a register awaits a register read (R70), a full MXU or DMA queue
(R72), a tile with operations outstanding (R200), or 63 multicast writes outstanding on a tag (R302). -/
def stalls (s : State) (u : Issuer) (i : Ins) : Bool :=
  let c := core s u
  c.regReads.any (fun r => (touches i).contains r) ||
  (guardOk c i &&
    (match i.op, u with
     | .vacc, .grain g | .vaccz, .grain g => tileBusy (grain s g) i.ra
     | .mxu, .grain g => mxuDepth (grain s g) ≥ 2
     | .dmaRead, _ | .dmaWrite, _ => c.dmaQ.length ≥ 4
     | .put, .grain g =>
       let h := sGet c i.ra
       bit h 27 && (s.reqs.filter (fun q => q.who == .mput g (bits h 26 21))).length ≥ 63
     | _, _ => false))

/-- True while the instruction at a RUNNING unit's program counter is held back (R70, R72, R124). -/
def issueBlocked (s : State) (u : Issuer) : Bool :=
  let c := core s u
  c.state == .running && decide (c.pc < codeWords u) &&
    (decodeIns (isBinder u) (fetchWord s u c.pc) (fetchWord s u (c.pc + 1))).any (stalls s u)

/-- True when a binder's fetch meets a poisoned word of its memory (R743). -/
def fetchPoisoned (s : State) (u : Issuer) (pc : Nat) : Bool :=
  match u with
  | .grain _ => false
  | .binder sh => (sheaf s sh).bpoison.contains (pc / 2)

/-- Issue of the instruction at the program counter, for the command that names one operation (R67 to R70): a
program counter or an encoding that R67 faults, faults; a word of another operation is not this command's event; an
instruction that cannot issue yet stalls (`stalls`); a false guard takes the issue cycle and no more;
else the effect. -/
def issue (op : Op) (u : Issuer) (s : State) (k : Ins → State → State) : State :=
  let c := core s u
  if c.state ≠ .running then s
  else if c.pc ≥ codeWords u then coreFault s u 1
  else if fetchPoisoned s u c.pc then coreFault s u 0
  else
    let n0 := fetchWord s u c.pc
    if isLong n0 && c.pc + 1 ≥ codeWords u then coreFault s u 1
    else
      match decodeIns (isBinder u) n0 (fetchWord s u (c.pc + 1)) with
      | none => coreFault s u 0
      | some i =>
        if i.op ≠ op then s
        else if stalls s u i then s
        else
          let s1 := match u with
            | .grain g => incReg s (rGrain g 1 0x02C)
            | .binder _ => s
          let s2 := setCore s1 u { core s1 u with lastPc := c.pc }
          if guardOk c i then k i s2
          else setCore s2 u (advance (core s2 u) (insLen op))

/-- Move past the instruction just issued. -/
def next1 (s : State) (u : Issuer) (len : Nat := 1) : State := setCore s u (advance (core s u) len)

/-- An instruction whose effect is on the shared part of its issuer alone, and that moves on. -/
def coreIns (op : Op) (u : Issuer) (s : State) (f : Ins → Core → Core) : State :=
  issue op u s (fun i s => setCore s u (advance (f i (core s u)) (insLen op)))

/-- An instruction of a grain whose effect is on the grain's record, and that moves on; at a binder it is illegal and
`issue` has faulted it. -/
def grainIns (op : Op) (u : Issuer) (s : State) (f : Ins → Grain → Grain) : State :=
  issue op u s (fun i s =>
    match u with
    | .grain g => next1 (setGrain s g (f i (grain s g))) u (insLen op)
    | .binder _ => s)

/-- The image coordinate of a grain: that of the grain at the same place in the image sheaf its sheaf stands for
(R540). -/
def imageCoord (s : State) (g : Nat) : Nat := coordOf (imageSheaf s (grainPart s g) (sheafOfGrain g) * 256 + g % 256)

/-- A cycle counter: FCLK cycles since the unit's reset (R58, R785). -/
def cycleCount (s : State) (c : Core) : Nat := s.cycle - c.cycle0

end Sys2Proof.Machine
end

