-- ==== Sys2Proof/Machine/Spd.lean ====
section
/-!
DEFINITION. Access to a grain's scratchpad (R78, R223 to R228, R259 to R263): code checks, poison, faults.
-/
namespace Sys2Proof.Machine

/-- Bytes in a scratchpad (R223). -/
def spdSize : Nat := 0xC000

/-- What the code check finds at a word, among a command's findings. -/
def finding (fs : EccFinds) (w : Nat) : Ecc :=
  match fs.find? (fun e => e.1 == w) with
  | some e => e.2
  | none => .ok

/-- A grain's uncorrectable words of the last hour of cadence time, each with its time (R725). -/
def ueFound (s : State) (g w : Nat) : State :=
  let old := (mapGet [] s.flt.ueWords g).filter (fun e => e.1 != w && s.time < e.2 + 3600000000000)
  { s with flt := { s.flt with ueWords := mapSet [] s.flt.ueWords g (old ++ [(w, s.time)]) } }

/-- What a poisoned word that is read tells: TLY_STATUS.UE, TLY_UE_ROW if not VALID, and SPD_UNCORRECTABLE with the reader:
1 load, 2 MXU, 3 DMA or remote read, 4 scrub (R261, R263, R268). -/
def spdSay (s : State) (g w reader : Nat) : State :=
  let s1 := ueFound s g w
  let s2 := orReg s1 (rGrain g 2 0xA0) (2 ^ 5)
  let s3 := if regBit s2 (rGrain g 2 0xA4) 31 then s2 else setReg s2 (rGrain g 2 0xA4) (word (2 ^ 31 + w / 2))
  raise s3 .spdUncorrectable (grainOwner s g) 4 (grainUnit g) [(21, coordOf g), (12, w / 2), (4, reader)]

/-- The first read of a poisoned word, which is then told (R261). -/
def spdTell (s : State) (g w reader : Nat) : State :=
  let x := grain s g
  if x.told.contains w then s
  else spdSay (setGrain s g { x with told := setAdd x.told w, poison := setAdd x.poison w }) g w reader

/-- Read one 8-byte word: a corrected read counts; an uncorrectable or poisoned word is told (R260, R261). -/
def spdCheck (fs : EccFinds) (reader g : Nat) (s : State) (w : Nat) : State :=
  if (grain s g).poison.contains w then spdTell s g w reader
  else
    match finding fs w with
    | .ok => s
    | .corrected => incReg s (rGrain g 2 0xA8)
    | .uncorrectable => spdTell s g w reader

/-- The 8-byte words an access of n bytes at an offset touches. -/
def wordsOf (a n : Nat) : List Nat := (List.range ((a + n - 1) / 8 - a / 8 + 1)).map (fun i => a / 8 + i)

/-- Check every word of an access. -/
def spdChecks (fs : EccFinds) (reader g : Nat) (a n : Nat) (s : State) : State :=
  (wordsOf a n).foldl (spdCheck fs reader g) s

/-- n bytes of a scratchpad, bytes of poisoned words reading as 0 (R261). -/
def spdBytes (x : Grain) (a : Nat) : Nat → Nat
  | 0 => 0
  | n + 1 => (if x.poison.contains (a / 8) then 0 else (memRead x.mem a).toNat) + 256 * spdBytes x (a + 1) n

/-- The marks of a row's two words: bits 0 and 1 poisoned, 2 and 3 told (R261). -/
def rowMarks (x : Grain) (row : Nat) : Nat :=
  bnat (x.poison.contains (2 * row)) + 2 * bnat (x.poison.contains (2 * row + 1)) + 4 * bnat (x.told.contains (2 * row)) +
    8 * bnat (x.told.contains (2 * row + 1))

/-- A queued or running MXU operation keeps the earlier contents of rows that an access changes, each as it was before (R217). -/
def mxuKeep (x : Grain) (rows : List Nat) : Grain :=
  { x with mxuQ := x.mxuQ.map (fun o =>
      { o with old := o.old ++ rows.eraseDups.map (fun r => (r, memRow x.mem (16 * r), rowMarks x r)) }) }

/-- The rows that n bytes at an offset lie in. -/
def rowsAt (a n : Nat) : List Nat := (List.range ((a + n - 1) / 16 - a / 16 + 1)).map (fun k => a / 16 + k)

/-- Write n bytes within one 8-byte word: a write of all 8 clears poison, a narrower one to a poisoned word is
discarded; a pending scrub write-back of the row is dropped (R261, R263). -/
def spdPutIn (x : Grain) (a n v : Nat) : Grain :=
  let w := a / 8
  let fix := if x.scrubFix = some (a / 16) then none else x.scrubFix
  if n = 8 then
    { x with mem := memPut x.mem a v 8, poison := setDel x.poison w, told := setDel x.told w, scrubFix := fix }
  else if x.poison.contains w then x
  else { x with mem := memPut x.mem a v n, scrubFix := fix }

/-- Write n bytes at an aligned offset; n is 1, 2, 4 or a multiple of 8. -/
def spdPutRaw (x : Grain) (a n v : Nat) : Grain :=
  if n ≤ 8 then spdPutIn x a n v
  else (List.range (n / 8)).foldl (fun x k => spdPutIn x (a + 8 * k) 8 (v / 256 ^ (8 * k) % 256 ^ 8)) x

/-- Pieces of n bytes that one access writes (R217): offset and value of each. -/
def spdPuts (x : Grain) (n : Nat) (l : List (Nat × Nat)) : Grain :=
  l.foldl (fun y e => spdPutRaw y e.1 n e.2) (mxuKeep x (l.flatMap (fun e => rowsAt e.1 n)))

/-- An access that writes n bytes at an offset. -/
def spdPut (x : Grain) (a n v : Nat) : Grain := spdPuts x n [(a, v)]

/-- Write one row with its poison mark (R261, R274). -/
def spdPutRow (x : Grain) (row : Nat) (r : BitVec 128 × Bool) : Grain :=
  let y := spdPut x (16 * row) 16 r.1.toNat
  if r.2 then { y with poison := setAdd (setAdd y.poison (2 * row)) (2 * row + 1) } else y

/-- One row as a DMA or remote read sends it: its bytes, and a poison mark when it holds a poisoned word (R261). -/
def spdSendRow (x : Grain) (row : Nat) : BitVec 128 × Bool :=
  (memRow x.mem (16 * row), x.poison.contains (2 * row) || x.poison.contains (2 * row + 1))

/-- ADDR_FAULT (R53, R54): the address, the initiator and the reason, to the issuing partition. -/
def addrFault (s : State) (u : Issuer) (addr reason : Nat) : State :=
  raise s .addrFault (unitOwner s u) (scopeOf u) (unitOf u) [(48, addr), (22, coordOf (routerOf u)), (8, reason)]

/-- The device address of an offset in a grain's scratchpad, or in a binder's memory (R40, R42). -/
def localAddr (u : Issuer) (off : Nat) : Nat :=
  match u with
  | .grain g => (g.val / 737280) * 2 ^ 37 + (g.val / 9216 % 80) * 2 ^ 30 + (g.val / 256 % 36) * 2 ^ 24 + g.val % 256 * 2 ^ 16 + off
  | .binder sh => 2 ^ 38 + (sh.val / 2880) * 2 ^ 37 + (sh.val / 36 % 80) * 2 ^ 30 + (sh.val % 36) * 2 ^ 24 + off

/-- A local access fault: ADDR_FAULT UNMAPPED; a store also sets GRN_FAULT.LOCAL_ADDR (R78). -/
def localFault (s : State) (u : Issuer) (store : Bool) (off : Nat) : State :=
  let s1 := if store then setFault s u (2 ^ 2) (core s u).pc else s
  addrFault s1 u (localAddr u off) 2

/-- The address of a scalar memory instruction, its low bits below the access size ignored (R78, R112, R783). -/
def scalarAddr (u : Issuer) (c : Core) (i : Ins) (n : Nat) : Nat :=
  let m := if isBinder u then 2 ^ 18 else 2 ^ 16
  ((sGet c i.ra + (BitVec.ofNat 12 i.imm).signExtend 32).toNat % m) / n * n

/-- The first finding of an uncorrectable word of binder memory poisons it and raises BINDER_UE with the reader: 1
instruction fetch, 2 binder load or fabric read, 3 Winnow or Gleaner, 4 Hopper, 5 loader, stream engine or send ring,
0 the scrubber (R743, R585). -/
def bmemTell (s : State) (sh w reader : Nat) : State :=
  let x := sheaf s sh
  if x.bpoison.contains w then s
  else
    raise (setSheaf s sh { x with bpoison := setAdd x.bpoison w }) .binderUe (sheafOwner s sh) 3 (sheafUnit sh)
      [(6, sheafPart s sh), (14, sheafCode sh), (32, 8 * w), (4, reader), (4, if reader = 0 then 2 else 1)]

/-- Check the words of an access to binder memory (R743). -/
def bmemChecks (fs : EccFinds) (reader sh a n : Nat) (s : State) : State :=
  (wordsOf a n).foldl (fun s w => if finding fs w = .uncorrectable then bmemTell s sh w reader else s) s

/-- True when an access to binder memory meets a poisoned word (R743). -/
def bmemPoisoned (s : State) (sh a n : Nat) : Bool := (wordsOf a n).any (fun w => (sheaf s sh).bpoison.contains w)

/-- n bytes of binder memory, bytes of poisoned words reading as 0 (R743). -/
def bmemBytes (x : Sheaf) (a : Nat) : Nat → Nat
  | 0 => 0
  | n + 1 => (if x.bpoison.contains (a / 8) then 0 else (memRead x.bmem a).toNat) + 256 * bmemBytes x (a + 1) n

/-- Write n bytes within one 8-byte word of binder memory: a write of all 8 clears poison; a narrower one to a poisoned
word is discarded, under the rule of R261 (R743). -/
def bmemPutIn (x : Sheaf) (a n v : Nat) : Sheaf :=
  let w := a / 8
  if n = 8 then { x with bmem := memPut x.bmem a v 8, bpoison := setDel x.bpoison w, scrubFix := if x.scrubFix = some (a / 16) then none else x.scrubFix }
  else if x.bpoison.contains w then x
  else { x with bmem := memPut x.bmem a v n, scrubFix := if x.scrubFix = some (a / 16) then none else x.scrubFix }

/-- Write n bytes at an aligned offset of binder memory; n is 1, 2, 4 or a multiple of 8. -/
def bmemPut (x : Sheaf) (a n v : Nat) : Sheaf :=
  if n ≤ 8 then bmemPutIn x a n v
  else (List.range (n / 8)).foldl (fun x k => bmemPutIn x (a + 8 * k) 8 (v / 256 ^ (8 * k) % 256 ^ 8)) x

/-- A unit of the sheaf writes its binder memory. -/
def bmemWrite (s : State) (sh a n v : Nat) : State := setSheaf s sh (bmemPut (sheaf s sh) a n v)

/-- A unit other than the scrubber reads binder memory: what it reads and the state after the code check. -/
def bmemRead (s : State) (sh a n : Nat) (fs : EccFinds := []) (reader : Nat := 2) : Nat × State :=
  let s1 := bmemChecks fs reader sh a n s
  (bmemBytes (sheaf s1 sh) a n, s1)

/-- The data of a scalar load of n bytes, and the state after its checks; a fault reads as zero (R53, R78). -/
def scalarRead (u : Issuer) (fs : EccFinds) (s : State) (a n : Nat) : Nat × State :=
  match u with
  | .grain g =>
    if a ≥ spdSize then (0, localFault s u false (a / 16 * 16))
    else
      let s1 := spdCheck fs 1 g s (a / 8)
      (spdBytes (grain s1 g) a n, s1)
  | .binder sh => bmemRead s sh a n fs

/-- A scalar load: s[rd] := ext of the n bytes (R78). -/
def loadOp (op : Op) (n : Nat) (ext : Nat → Word) (u : Issuer) (fs : EccFinds) (s : State) : State :=
  issue op u s (fun i s =>
    let (v, s1) := scalarRead u fs s (scalarAddr u (core s u) i n) n
    setCore s1 u (advance (sSet (core s1 u) i.rd (ext v)) 1))

/-- A scalar store of the low n bytes of s[rd] (R78, R783). -/
def storeOp (op : Op) (n : Nat) (u : Issuer) (s : State) : State :=
  issue op u s (fun i s =>
    let c := core s u
    let a := scalarAddr u c i n
    let v := (sGet c i.rd).toNat % 256 ^ n
    match u with
    | .grain g =>
      if a ≥ spdSize then next1 (localFault s u true (a / 16 * 16)) u
      else next1 (setGrain s g (spdPut (grain s g) a n v)) u
    | .binder sh => next1 (bmemWrite s sh a n v) u)

end Sys2Proof.Machine
end

