-- ==== Sys2Proof/Machine/Net.lean ====
section
/-!
DEFINITION. Traffic on the mesh (R272 to R284, R303, R308, R317): routes, sending, requests and their answers, drain
mode (R312 to R315, R782), the merge of multicast answers (R297, R301), tallies (R236 to R240) and credit windows
(R245 to R252).
-/
namespace Sys2Proof.Machine

/-! ### Routes -/

/-- Column and row of a coordinate, and its half. -/
def cX (c : BitVec 21) : Nat := bits c 9 0
def cY (c : BitVec 21) : Nat := bits c 19 10
def cH (c : BitVec 21) : Nat := bits c 20 20
/-- The coordinate word of a router. -/
def coordV (g : Nat) : BitVec 21 := BitVec.ofNat 21 (coordOf g)
/-- The router a coordinate names. -/
def atCoord (c : BitVec 21) : Nat := grainAt (cH c) (cX c) (cY c)

/-- The hops from one router to another of a half, along the row and then along the column (R281): each router left
and the port it is left by. N is towards row 0, and W towards column 0. -/
def hops (h x0 y0 x1 y1 : Nat) : List (Nat × Nat) :=
  (List.range (x1 - x0)).map (fun k => (grainAt h (x0 + k) y0, 1)) ++
  (List.range (x0 - x1)).map (fun k => (grainAt h (x0 - k) y0, 3)) ++
  (List.range (y1 - y0)).map (fun k => (grainAt h x1 (y0 + k), 2)) ++
  (List.range (y0 - y1)).map (fun k => (grainAt h x1 (y0 - k), 0))

/-- The port at the other end of a link. -/
def oppo (p : Nat) : Nat := if p < 4 then (p + 2) % 4 else 4

/-- The neighbour of a router on a port, within its half (R272, R291). -/
def neighbour (r p : Nat) : Option Nat :=
  let h := halfOfGrain r
  let x := grainX r
  let y := grainY r
  match p with
  | 0 => if y = 0 then none else some (grainAt h x (y - 1))
  | 1 => if x = 959 then none else some (grainAt h (x + 1) y)
  | 2 => if y = 767 then none else some (grainAt h x (y + 1))
  | 3 => if x = 0 then none else some (grainAt h (x - 1) y)
  | _ => none

/-- True when a port of a router is its Flue port (R293). -/
def fluePort (r p : Nat) : Bool :=
  grainY r % 2 == 0 && ((halfOfGrain r == 0 && grainX r == 959 && p == 1) || (halfOfGrain r == 1 && grainX r == 0 && p == 3))

/-- Flits of a packet (R276). -/
def flits (p : Packet) : Nat := 1 + p.body.length

/-- Count a packet's flits on the output ports of a route (R322). -/
def countHops (s : State) (n : Nat) (l : List (Nat × Nat)) : State :=
  l.foldl (fun s e => incReg s (rGrain e.1 3 (0x20 + 4 * e.2)) n) s

/-- A packet listed where it arrives, counted along its route. -/
def carryOn (s : State) (p : Packet) (src dst : Nat) : State :=
  let l := hops (halfOfGrain src) (grainX src) (grainY src) (grainX dst) (grainY dst)
  let inPort := match l.getLast? with
    | some e => oppo e.2
    | none => 4
  let s1 := countHops s (flits p) (l ++ [(dst, 4)])
  { s1 with mesh := s1.mesh ++ [⟨p, Fin.ofNat 1474560 dst, Fin.ofNat 5 inPort⟩] }

/-- Response types travel on virtual channel 1 (R278). -/
def isResponse : PktType → Bool
  | .write | .readReq | .lockReq | .creditReq | .regReq | .notify => false
  | _ => true

/-- A response to a packet, from its destination (R277, R278): the requester's identifier and epoch are echoed. -/
def mkResp (p : Packet) (ty : PktType) (status addr : Nat) (body : List (BitVec 128 × Bool)) : Packet :=
  { type := ty, mc := false, tag := p.tag, dst := p.src, src := p.dst, epoch := p.epoch, part := p.part
    len := BitVec.ofNat 3 body.length, tally := if ty = .readData then p.tally else 0, cw := p.cw, status := BitVec.ofNat 2 status
    addr := BitVec.ofNat 48 addr, body := body }

/-- The hop of a route that would enter a retired field, with the hops before it (R724). -/
def retiredHop (s : State) (dst : Nat) (l : List (Nat × Nat)) : Option (Nat × List (Nat × Nat)) :=
  if s.store.fields.isEmpty then none
  else
    ((l.zipIdx.find? (fun e =>
      let n := ((l[e.2 + 1]?).map Prod.fst).getD dst
      fieldOfGrain n != fieldOfGrain e.1.1 && retired s (fieldOfGrain n)))).map (fun e => (e.1.1, l.take e.2))

/-- A register of a Flue bridge (R325 to R329). -/
def rFlue (b off : Nat) : RegLoc := rDie (0x10 + b) 4 off

/-- True while a half's routers serve: from the end of its kindling to the start of its next reset (R317, R782). -/
def halfUp (s : State) (h : Nat) : Bool := (halfSt s h).kindled && !(halfSt s h).draining

/-- A packet that a retired field stops, at the last router before it (R724): a response is dropped; a request is answered with
GONE, whose sending `k` is. -/
def retiredStop (k : State → Packet → State) (s : State) (p : Packet) (e : Nat × List (Nat × Nat)) : State :=
  let s1 := countHops s (flits p) e.2
  if isResponse p.type then incReg s1 (rGrain e.1 3 0x008)
  else k (incReg s1 (rGrain e.1 3 0x00C)) { mkResp p .gone 0 (epochOf s (.grain (atCoord p.dst)) % 512) [] with src := coordV e.1 }

/-- A packet on its way to a router of its half. Where its route would enter a retired field, the router at the edge answers
a request with GONE and drops a response (R724). -/
def carryWith (k : State → Packet → State) (s : State) (p : Packet) (src dst : Nat) : State :=
  match retiredHop s dst (hops (halfOfGrain src) (grainX src) (grainY src) (grainX dst) (grainY dst)) with
  | none => carryOn s p src dst
  | some e => retiredStop k s p e

/-- True at a gateway's landing buffer: a WRITE that has crossed the Flue (R303, R305). -/
def atGateway (f : Flight) : Bool :=
  f.pkt.type == .write && !f.pkt.mc && fluePort f.at_ f.port && cH f.pkt.src != cH f.pkt.dst

/-- Flits that a link's landing buffer holds of WRITEs, those on the link counted (R304). -/
def landed (s : State) (far : Nat) : Nat :=
  (((s.mesh ++ s.flueWait).filter (fun f => atGateway f && f.at_.val == far)).map (fun f => flits f.pkt)).foldl (· + ·) 0

/-- A WRITE at the near gateway of its link crosses while the landing buffer has room for it and none waits before it, else it
waits there (R304). -/
def flueCross (s : State) (f : Flight) : State :=
  if landed s f.at_ + flits f.pkt ≤ 80 ∧ !s.flueNear.any (fun w => w.at_ == f.at_) then { s with mesh := s.mesh ++ [f] }
  else { s with flueNear := s.flueNear ++ [f] }

/-- The landing buffer of a link has room again: the WRITEs that wait at its near gateway cross, in order (R304). -/
def flueAdmit (s : State) (far : Nat) : State :=
  (s.flueNear.filter (fun w => w.at_.val == far)).foldl flueCross { s with flueNear := s.flueNear.filter (fun w => w.at_.val != far) }

/-- Send a unicast packet (R281, R282, R304, R308, R317, R325). A WRITE for the other half is listed at its far gateway
(R305); where the Flue's direction carries no traffic, the near gateway answers a request with GONE and drops a
response. Answers that the route itself makes are sent by `k`. -/
def sendWith (k : State → Packet → State) (s : State) (p : Packet) : State :=
  let src := atCoord p.src
  let dst := atCoord p.dst
  let h := cH p.src
  if h = cH p.dst then carryWith k s p src dst
  else
    let east := h == 0
    let gy := cY p.src / 2 * 2
    let b := gy / 96
    let near := grainAt h (if east then 959 else 0) gy
    let far := grainAt (1 - h) (if east then 0 else 959) gy
    let l1 := hops h (grainX src) (grainY src) (grainX near) gy
    match retiredHop s near l1 with
    | some e => retiredStop k s p e
    | none =>
    let s1 := countHops s (flits p) l1
    if !regBit s1 (rFlue b 0) (if east then 0 else 1) || !halfUp s1 (1 - h) || retired s (fieldOfGrain far) ||
        retired s (fieldOfGrain near) then
      if isResponse p.type then incReg s1 (rFlue b 0x24)
      else k (incReg s1 (rFlue b 0x28)) { mkResp p .gone 0 (epochOf s1 (.grain dst) % 512) [] with src := coordV near }
    else
      let s2 := countHops s1 (flits p) [(near, if east then 1 else 3)]
      let s3 := incReg s2 (rFlue b (if east then 0x14 else 0x18)) (flits p)
      if p.type = .write then flueCross s3 ⟨p, Fin.ofNat 1474560 far, if east then 3 else 1⟩ else carryWith k s3 p far dst

/-- The near gateway of the link that ends at a far gateway: the link's end in the other half (R302). -/
def nearOf (far : Nat) : Nat := grainAt (1 - halfOfGrain far) (if halfOfGrain far = 1 then 959 else 0) (grainY far)

/-- A response takes its route, and is dropped and counted where it can go no further (R315, R317, R724). -/
def sendResp (s : State) (p : Packet) : State := sendWith (fun s _ => s) s p

/-- Send a unicast packet (R281, R282): a GONE that the route answers with takes its own route to the requester. -/
def sendPkt (s : State) (p : Packet) : State := sendWith sendResp s p

/-- What near gateways hold for a half whose reset begins, or that is lost, is answered with GONE (R317, R734). -/
def nearGone (s : State) (h : Nat) : State :=
  (s.flueNear.filter (fun w => halfOfGrain w.at_ == h)).foldl (fun s w =>
      sendPkt (incReg s (rFlue (grainY w.at_ / 96) 0x28))
        { mkResp w.pkt .gone 0 (epochOf s (.grain w.at_) % 512) [] with src := coordV (nearOf w.at_) })
    { s with flueNear := s.flueNear.filter (fun w => halfOfGrain w.at_ != h) }

/-- A packet on its way to a router of its half. -/
def carry (s : State) (p : Packet) (src dst : Nat) : State := carryWith sendResp s p src dst

/-- A packet that arrives leaves the list of those in flight. -/
def unlist (s : State) (f : Flight) : State := { s with mesh := s.mesh.erase f }

/-! ### Requests and their answers -/

/-- The first identifier free at a router (R277); 63 again when all are in use (log 15). -/
def freeRid (s : State) (r : Nat) : Nat :=
  ((List.range 64).find? (fun k => !s.reqs.any (fun q => q.at_ == r && q.rid == k))).getD 63

/-- Send a request or write from a router for a requester, whose answer is awaited. -/
def request (s : State) (who : Requester) (port : Port) (ty : PktType) (r dst part len addr : Nat)
    (body : List (BitVec 128 × Bool)) (tally : Nat := 0) (cw : Nat := 0) (quiet : Bool := false) : State :=
  let rid := freeRid s r
  let p : Packet :=
    { type := ty, mc := false, tag := BitVec.ofNat 6 rid, dst := coordV dst, src := coordV r
      epoch := BitVec.ofNat 9 (epochOf s port), part := BitVec.ofNat 6 part, len := BitVec.ofNat 3 len
      tally := BitVec.ofNat 4 tally, cw := BitVec.ofNat 2 cw, status := 0, addr := BitVec.ofNat 48 addr, body := body, quiet := quiet }
  sendPkt { s with reqs := s.reqs ++ [⟨r, rid, who⟩] } p

/-- The oldest request of a router with an identifier. -/
def findReq (s : State) (r rid : Nat) : Option Req := s.reqs.find? (fun q => q.at_ == r && q.rid == rid)

/-- A request is no longer awaited. -/
def dropReq (s : State) (q : Req) : State := { s with reqs := s.reqs.erase q }

/-- The port a requester's answer comes to. -/
def reqPort : Requester → Port
  | .put g _ => .grain g
  | .mput g _ => .grain g
  | .dma u _ _ _ _ => portOf u
  | .lock u _ _ => portOf u
  | .reg sh _ => .sheaf sh
  | .flue b _ _ _ _ => .die (0x10 + b)
  | .loader f _ _ _ _ => .granary f
  | .host p _ _ _ => .die (0x18 + p)
  | .winnow sh _ _ => .sheaf sh
  | .recv d _ _ _ => .die (0x18 + d)
  | .sendRead d _ _ _ => .die (0x18 + d)

/-- The half of a companion die's attachment (R30): bins 0 to 7, port dies P0, P2 and P4 and the Damper DA in half 0. -/
def dieHalf (d : Nat) : Nat :=
  if d < 0x10 then d / 8 else if d < 0x18 then 0 else d % 2

/-- A sheaf port is in drain mode exactly while the grains of its sheaf are (R782). -/
def sheafDrains (s : State) (sh : Nat) : Bool := (List.range 256).all (fun i => fenced s (256 * sh + i))

/-- True for a reset that covers a field (R730 to R732). -/
def resetsField (f : Nat) (d : Domain) : Bool :=
  match d with
  | .field x => x == f
  | .half h => h == f / 80
  | _ => false

/-- Drain mode of a local port (R312, R782): an attachment from the reset of its half to the end of that half's kindling, a bin
until BIN_STATUS.INIT_DONE is 1 and while it has failed (R491, R492), a Granary read port while its field is reset or retired
(R724, R732), a Damper while it is held in reset (R702, R739). -/
def drains (s : State) : Port → Bool
  | .grain g => fenced s g
  | .sheaf sh => sheafDrains s sh
  | .die d =>
    if 0x10 ≤ d ∧ d < 0x18 then false
    else
      !halfUp s (dieHalf d) || (d < 0x10 && (!regBit s (rDie d 0xB 4) 5 || regBit s (rDie d 0xB 4) 7)) ||
        (0x1E ≤ d && (s.thm.latched || s.flt.damper.lost || (bnat s.flt.damper.db != d - 0x1E && !s.flt.damper.standby)))
  | .granary f => !halfUp s (f / 80) || retired s f || s.flt.resets.any (fun r => resetsField f r.dom)

/-- The GONE response of a port in drain mode, or of a unit that owed a reply (R313, R314). -/
def sendGone (s : State) (r : Nat) (port : Port) (p : Packet) : State :=
  sendPkt (incReg s (rGrain r 3 0x00C)) { mkResp p .gone 0 (epochOf s port % 512) [] with src := coordV r }

/-- Send a response to a packet from a router. -/
def reply (s : State) (r : Nat) (p : Packet) (ty : PktType) (status addr : Nat) (body : List (BitVec 128 × Bool)) : State :=
  sendPkt s { mkResp p ty status addr body with src := coordV r }

/-- A response dropped at a port that drains, or that carries an epoch that is not the port's (R315). -/
def orphaned (s : State) (port : Port) (p : Packet) : Bool :=
  drains s port || p.epoch != BitVec.ofNat 9 (epochOf s port)

/-- Drop a response and count it (R315, R322). -/
def orphan (s : State) (r : Nat) : State := incReg s (rGrain r 3 0x008)

/-! ### Tallies -/

/-- Increment a tally counter (R237, R238). -/
def tallyInc (s : State) (g k n : Nat) : State :=
  let x := grain s g
  let t := x.tc.getD k {}
  if t.value.toNat + n ≤ 0xFFFF then setGrain s g { x with tc := x.tc.set! k { t with value := BitVec.ofNat 16 (t.value.toNat + n) } }
  else
    let s1 := setGrain s g { x with tc := x.tc.set! k { t with value := 0xFFFF, overflow := true } }
    if t.overflow then s1
    else raise s1 .tallyOverflow (grainOwner s g) 4 (grainUnit g) [(21, coordOf g), (4, k)]

/-- Set a counter's error bit (R93, R242, R248). -/
def tallyErr (s : State) (g k : Nat) : State :=
  let x := grain s g
  setGrain s g { x with tc := x.tc.set! k { x.tc.getD k {} with error := true } }

/-- Increment a notify counter of a binder, which saturates (R112, R113). -/
def ncInc (s : State) (sh k n : Nat) : State :=
  let x := sheaf s sh
  setSheaf s sh { x with nc := x.nc.set! k (BitVec.ofNat 16 (satAdd 16 (x.nc.getD k 0).toNat n)) }

/-- A completion increments the counter of its grain, or the notify counter of its binder (R91, R113). -/
def countDone (s : State) (u : Issuer) (k : Nat) : State :=
  match u with
  | .grain g => tallyInc s g k 1
  | .binder sh => if k < 8 then ncInc s sh k 1 else s

/-- A completion that failed sets the error bit (R93); a notify counter has none (R113). -/
def errDone (s : State) (u : Issuer) (k : Nat) : State :=
  match u with
  | .grain g => tallyErr s g k
  | .binder _ => s

/-! ### Fences -/

/-- True for a packet of a descriptor that a stream placed: the unit did not issue it (R95, R512). -/
def streamed (s : State) (u : Issuer) (id : Nat) : Bool := (core s u).dmaQ.any (fun d => d.id == id && d.stream.isSome)
/-- A request that a fence of its scope awaits (R95, R96): of its own sheaf's targets for FENCE.S, any for FENCE.G. -/
def awaited (s : State) (k : FenceKind) (u : Issuer) (w : Requester) : Bool :=
  match k, w with
  | .local_, _ => false
  | _, .put g own => u == ug g && (k == .global || own)
  | _, .mput g _ => u == ug g
  | _, .dma v id _ _ own => u == v && (k == .global || own) && !streamed s u id
  | _, .lock v own _ => u == v && (k == .global || own)
  | _, _ => false

/-- The remote address of a transfer row (R90). -/
def dmaRemote (d : Desc) (k : Nat) : Nat := (d.remote + k * d.stride) / 16 * 16 % 2 ^ 48
/-- True for a WRITE of the unit's own that has yet to send a row whose target lies in its own sheaf (R95). -/
def ownWrite (s : State) (u : Issuer) (d : Desc) : Bool :=
  d.stream.isNone && !d.read && !d.hiBad && d.reason.isNone &&
    ((List.range d.rows).drop d.nextRow).any (fun k =>
      nbits (dmaRemote d k) 47 44 == 0 && winSheaf (xlatAddr s (partOf s u) (dmaRemote d k)) == sheafOf u)

/-- True when every earlier operation of a fence's scope has completed (R95). -/
def fenceDone (s : State) (u : Issuer) (k : FenceKind) : Bool :=
  !s.reqs.any (fun q => awaited s k u q.who) &&
    (match k with
     | .local_ => true
     | .sheaf => !(core s u).dmaQ.any (ownWrite s u)
     | .global => !(core s u).dmaQ.any (fun d => d.stream.isNone))

/-- The lock function and handle of a LOCK request (R98, R254, R278). -/
def lockAddr (fn : Nat) (handle : Word) : Nat := bits handle 20 0 + fn * 2 ^ 24

/-- The sheaf a lock handle names (R98). -/
def lockSheaf (h : Word) : Nat := (bits h 20 20 * 80 + bits h 19 13) * 36 + bits h 12 7

/-- Send a lock request (R98, R253). -/
def lockSend (s : State) (u : Issuer) (fn : Nat) (handle : Word) : State :=
  let sh := lockSheaf handle
  request s (.lock u (decide (sh = sheafOf u)) true) (portOf u) .lockReq (routerOf u) (sheafPort sh) (partOf s u) 0
    (lockAddr fn handle) []

/-- A waiting fence whose operations have completed releases issue; a LOCK.REL then sends its request (R95, R101). -/
def fenceCheck (s : State) (u : Issuer) : State :=
  let c := core s u
  match c.wait with
  | .fence k =>
    if fenceDone s u k then setCore s u { advance c 1 with state := .running, wait := .none } else s
  | .relFence k h rd =>
    if fenceDone s u k then lockSend (setCore s u { c with wait := .lock 2 h rd none none }) u 2 h else s
  | _ => s

/-- LOCK ends with a status: s[rd], and GRN_FAULT.LOCK for statuses 3 to 5 (R98, R102). -/
def lockEnd (s : State) (u : Issuer) (rd status : Nat) : State :=
  let c := core s u
  let s1 := if status ≥ 3 then setFault s u (2 ^ 5) c.pc else s
  setCore s1 u { advance (sSet c rd (word status)) 1 with state := .running, wait := .none }

/-- Cycles that ACQ of a unit waits before it tries again (R100): 32 + (g mod 8), g the grain's number within its sheaf; a binder
has no such number and waits 32 (log 99). -/
def lockBackoff (u : Issuer) : Nat :=
  match u with
  | .grain g => 32 + g.val % 8
  | .binder _ => 32
/-- True when a cycle lies at or after a deadline. -/
def pastDeadline (dl : Option Nat) (t : Nat) : Bool :=
  match dl with
  | none => false
  | some d => d ≤ t

/-- The answer of a LOCK attempt that its instruction still waits for (R98 to R100): ACQ backs off after BUSY, or returns BUSY at
once where its deadline is past. -/
def lockAnswer (s : State) (u : Issuer) (status : Nat) : State :=
  let c := core s u
  match c.wait with
  | .lock fn h rd dl none =>
    if fn = 1 ∧ status = 2 ∧ !pastDeadline dl s.cycle then setCore s u { c with wait := .lock fn h rd dl (some (s.cycle + lockBackoff u)) }
    else lockEnd s u rd status
  | _ => s

/-- A unit's LOCK instruction no longer waits: the status of its attempt, when it comes, is discarded (R64). -/
def lockForget (s : State) (u : Issuer) : State :=
  { s with reqs := s.reqs.map (fun q =>
      match q.who with
      | .lock v own true => if v == u then { q with who := .lock v own false } else q
      | _ => q) }

/-! ### DMA rows -/

/-- Change a descriptor of a unit's queue. -/
def modDesc (s : State) (u : Issuer) (id : Nat) (f : Desc → Desc) : State :=
  let c := core s u
  setCore s u { c with dmaQ := c.dmaQ.map (fun d => if d.id = id then f d else d) }

/-- One packet of a transfer row answered: well, or with the reason that ends the descriptor (R91, R93). -/
def pieceDone (row : Nat) (bad : Option Nat) (d : Desc) : Desc :=
  let d := { d with reason := match d.reason with | some r => some r | none => bad
                    waiting := d.waiting && bad.isNone }
  match d.openRows.find? (fun e => e.1 == row) with
  | none => d
  | some e =>
    let failed := e.2.2 || bad.isSome
    if e.2.1 ≤ 1 then
      { d with openRows := d.openRows.filter (fun e => e.1 != row)
               doneRows := if failed then d.doneRows else d.doneRows + 1 }
    else { d with openRows := d.openRows.map (fun e => if e.1 = row then (row, e.2.1 - 1, failed) else e) }


/-! ### Credit windows -/

/-- A window. -/
def window (s : State) (g w : Nat) : Window := (grain s g).cw.getD w {}
/-- Replace a window. -/
def setWindow (s : State) (g w : Nat) (x : Window) : State :=
  setGrain s g { grain s g with cw := (grain s g).cw.set! w x }

/-- The refusal of a request for n credits (R247): CLOSED 1, TOO_LARGE 2, BUSY 3; none when it may be served. -/
def cwRefusal (x : Window) (n : Nat) : Option Nat :=
  if !x.isOpen then some 1 else if n = 0 ∨ n > x.limit then some 2 else if x.queue.length ≥ 4 then some 3 else none

/-- True when a request for n credits is granted at once (R246). -/
def cwFits (x : Window) (n : Nat) : Bool := x.queue.isEmpty && n ≤ x.avail

/-- A grant of n credits (R246). -/
def cwGrant (x : Window) (n : Nat) : Window := { x with avail := x.avail - n, inFlight := x.inFlight + n }

/-- A credit request of a remote sender reaches a window (R246, R247). -/
def cwRequest (s : State) (g w n : Nat) (p : Packet) : State :=
  let x := window s g w
  match cwRefusal x n with
  | some st => reply s g p .creditGrant st 0 []
  | none =>
    if cwFits x n then reply (setWindow s g w (cwGrant x n)) g p .creditGrant 0 n []
    else setWindow s g w { x with queue := x.queue ++ [(n, .remote p)] }

/-- CW.SET (R249): whether it applies, and the window after it. -/
def cwSetOk (x : Window) : Bool := x.inFlight == 0 && x.queue.isEmpty
def cwSet (n : Nat) : Window := { isOpen := true, limit := n, avail := n }

/-- CW.RET of n rows (R249, R250). -/
def cwReturn (s : State) (g w n : Nat) : State :=
  let x := window s g w
  let room := x.limit - x.avail - x.inFlight
  let s1 := setWindow s g w { x with avail := x.avail + min n room }
  if n > room then orReg s1 (rGrain g 2 0xA0) (2 ^ 3) else s1

/-- A waiting request is refused CLOSED: a remote one is answered, and an own descriptor ends with reason 0x9 (R247,
R249). -/
def cwTurnAway (g : Nat) (s : State) (e : Nat × CreditWho) : State :=
  match e.2 with
  | .remote p => reply s g p .creditGrant 1 0 []
  | .own id => modDesc s (ug g) id (fun d => { d with waiting := false, reason := some (d.reason.getD 9) })

/-- CW.CLOSE (R249). -/
def cwClose (s : State) (g w : Nat) : State :=
  let x := window s g w
  x.queue.foldl (cwTurnAway g) (setWindow s g w { x with isOpen := false, queue := [] })

/-- A descriptor of a grain that has ended no longer waits in a window's queue (R93). -/
def cwLeave (s : State) (g id : Nat) : State :=
  setGrain s g { grain s g with cw := (grain s g).cw.map (fun x => { x with queue := x.queue.filter (fun e => e.2 != .own id) }) }

/-- A packet of a descriptor's row is answered; a reason that ends the descriptor takes it out of its window's queue. -/
def dmaPiece (s : State) (u : Issuer) (id row : Nat) (bad : Option Nat) : State :=
  let s1 := modDesc s u id (pieceDone row bad)
  match u, bad with
  | .grain g, some _ => cwLeave s1 g id
  | _, _ => s1

/-- CREDIT_OVERRUN of a credited row (R248): the flag, and the event once a beat. The sender is named by the coordinate its packets
carry; for a die, that of the router it injects through (R277, log 100). -/
def cwOverrun (s : State) (g w : Nat) (src : BitVec 21) : State :=
  raiseOnce (orReg s (rGrain g 2 0xA0) (2 ^ 4)) .creditOverrun (grainOwner s g) 4 (grainUnit g)
    [(21, coordOf g), (2, w), (22, src.toNat)]

/-- One credited row arrives (R248): whether it is dropped. -/
def cwArrive (s : State) (g w : Nat) (src : BitVec 21) : State × Bool :=
  let x := window s g w
  if x.inFlight = 0 then (cwOverrun s g w src, true)
  else (setWindow s g w { x with inFlight := x.inFlight - 1 }, false)

/-- n credited rows arrive: which are dropped. -/
def cwArrivals (s : State) (g w : Nat) (src : BitVec 21) : Nat → State × List Bool
  | 0 => (s, [])
  | n + 1 =>
    let (s1, d) := cwArrive s g w src
    let (s2, l) := cwArrivals s1 g w src n
    (s2, d :: l)

/-! ### Multicast trees -/

/-- A route-tag entry (R324). -/
def rTag (r tag : Nat) : RegLoc := rGrain r 3 (0x100 + 4 * tag)

/-- Ports of an entry's mask that the router takes for a packet arriving on a port, and whether it ignores any bit of
the mask (R297). -/
def effMask (s : State) (r tag inPort : Nat) : List Nat × Bool :=
  let m := reg s (rTag r tag)
  let set_ := (List.range 5).filter (fun p => bit m p)
  let ok := fun p => p != inPort && !((p == 1 || p == 3) && (inPort == 0 || inPort == 2)) && !fluePort r p
  (set_.filter ok, set_.any (fun p => !ok p))

/-- Send a packet on a port of a router to the neighbour there; on port 4 it is listed at the router itself. -/
def sendPort (s : State) (r p : Nat) (q : Packet) : State :=
  let s1 := countHops s (flits q) [(r, p)]
  match if p = 4 then some r else neighbour r p with
  | none => s1
  | some n => { s1 with mesh := s1.mesh ++ [⟨q, Fin.ofNat 1474560 n, Fin.ofNat 5 (oppo p)⟩] }

/-- A merged response of a tree: MC is 1 and its destination fields 0 (R277, R301). Its source is the root of the tree, which every
branch's answer carries up to it (log 101). -/
def mergedPkt (tag : Nat) (a : MergeAns) (st : Nat) : Packet :=
  { type := if st = 4 then .gone else .ack, mc := true, tag := BitVec.ofNat 6 tag, dst := 0, src := a.root
    epoch := a.epoch, part := a.part, len := 0, tally := 0, cw := 0
    status := BitVec.ofNat 2 (if st = 4 then 0 else st), addr := 0, body := [] }

/-- An answer of one branch merges; when every port of the effective mask has one, the merged response leaves on the
entry's IN port (R301): GONE if any branch returned GONE, else the highest status. -/
def mergeAdd (s : State) (r tag port : Nat) (a : MergeAns) : State :=
  let e := reg s (rTag r tag)
  if !bit e 31 then s
  else
    let key := 64 * r + tag
    let m := mapGet {} s.merges key
    let ports := m.ports.set! port (m.ports.getD port [] ++ [a])
    let inP := bits e 10 8
    let mask := (effMask s r tag inP).1
    if mask.all (fun p => !(ports.getD p []).isEmpty) then
      let heads := mask.filterMap (fun p => (ports.getD p []).head?)
      let st := heads.foldl (fun k b => max k b.st) 0
      let rest := mask.foldl (fun (v : Vector (List MergeAns) 5) p => v.set! p (v.getD p []).tail) ports
      sendPort { s with merges := mapSet {} s.merges key ⟨rest⟩ } r inP (mergedPkt tag a st)
    else { s with merges := mapSet {} s.merges key ⟨ports⟩ }

end Sys2Proof.Machine
end

