-- ==== Sys2Proof/Machine/Access.lean ====
section
/-!
DEFINITION. Who may reach which register (R51, R52, R539, R574), and the fault of an access that may not (R53, R54).
-/
namespace Sys2Proof.Machine

/-- The sheaf of a sheaf-scope or grain-scope unit index (R48). -/
def sheafOfUnit (u : Nat) : Nat := (u / 2 ^ 21 * 80 + u / 2 ^ 14 % 128) * 36 + u / 2 ^ 8 % 64
/-- The field of a unit index (R48). -/
def fieldOfUnit (u : Nat) : Nat := u / 2 ^ 21 * 80 + u / 2 ^ 14 % 128
/-- The grain of a grain-scope unit index (R48). -/
def grainOfUnit (u : Nat) : Nat := sheafOfUnit u * 256 + u % 256

/-! ### Register addresses (R47 to R49, R54) -/

/-- The register a 48-bit address names (R47). -/
def locOf (a : Nat) : RegLoc := ⟨keyScope a, keyUnit a, keyBlk a, keyOff a, 0⟩

/-- True when the bits of a unit index that its scope does not use are 0 (R48). -/
def unitBitsOk (scope u : Nat) : Bool :=
  match scope with
  | 0 => u == 0
  | 1 => u % 2 ^ 21 == 0
  | 2 => u % 2 ^ 14 == 0
  | 3 => u % 2 ^ 8 == 0
  | 4 => true
  | _ => u < 2 ^ 8

/-- True when the unit exists (R41, R48). -/
def unitExists (scope u : Nat) : Bool :=
  match scope with
  | 2 => u / 2 ^ 14 % 128 < 80
  | 3 | 4 => u / 2 ^ 14 % 128 < 80 && u / 2 ^ 8 % 64 < 36
  | _ => true

/-- True when a block exists at a scope; at companion-die scope, for that die; at partition scope, for partitions 0 to 63 (R48,
R49). -/
def blockAt (scope u blk : Nat) : Bool :=
  match scope with
  | 0 => [0x0A, 0x0C, 0x0D, 0x11, 0x12, 0x13, 0x14, 0x15, 0x16, 0x17].contains blk
  | 1 => blk == 0x13 || blk == 0x18
  | 2 => blk == 0x0A
  | 3 => [1, 5, 6].contains blk
  | 4 => [1, 2, 3].contains blk
  | 5 =>
    (u < 0x10 && blk == 0x0B) || (0x10 ≤ u && u < 0x18 && blk == 4) || ((u == 0x18 || u == 0x19) && (blk == 0x0F || blk == 7)) ||
      (0x18 ≤ u && u < 0x1E && blk == 0x10)
  | 6 => u < 64 && [7, 8, 9, 0x0E, 0x0F, 0x16, 0x17, 0x19].contains blk
  | _ => false

/-- A reserved region, a reserved address bit, or a reserved scope code (R39, R40, R44, R45, R48, R54). -/
def addrReserved (a : Nat) : Bool :=
  match nbits a 47 44 with
  | 0 => nbits a 43 39 != 0
  | 1 => nbits a 43 40 != 0
  | 2 => nbits a 43 42 != 0
  | 3 => false
  | 8 => decide (keyScope a > 6) || !unitBitsOk (keyScope a) (keyUnit a)
  | _ => true

/-! ### Permissions -/

/-- True when a partition's window shows a register: its own partition scope, and the sheaves it holds with their grains
(R539). -/
def windowShows (s : State) (p : Nat) (l : RegLoc) : Bool :=
  (l.scope == 6 && l.unit == p) || ((l.scope == 3 || l.scope == 4) && sheafOwner s (sheafOfUnit l.unit) == some p)

/-- The request table that holds a partition's segment (R379, R428). -/
def segTable (s : State) (p : Nat) : Nat := regF s (rPart p 7 4) 31 31

/-- True when an initiator may reach a register (R52, R539). The table has no column for a Hopper: it reaches what a partition whose
segment it holds reaches (R380, log 109). -/
def regAllowed (s : State) (i : Initiator) (l : RegLoc) : Bool :=
  match i with
  | .grain g => l.scope == 4 && l.unit == grainUnit g && 1 ≤ l.blk && l.blk ≤ 3
  | .binder sh | .sheafDma sh =>
    (l.scope == 3 && l.unit == sheafUnit sh) || (l.scope == 4 && l.unit / 256 == sheafUnit sh / 256)
  | .hopper t => (List.range 64).any (fun p => segTable s p == t.val && windowShows s p l)
  | .host fn _ => fn.val == 0 || windowShows s fn l
  | .damper _ => true

/-- The partition whose sheaf map translates an initiator's addresses (R556); none: they are not translated. -/
def iniPart (s : State) (i : Initiator) : Option Nat :=
  match i with
  | .grain g => some (grainPart s g)
  | .binder sh | .sheafDma sh => some (sheafPart s sh)
  | .host fn _ => if fn.val = 0 then none else some fn
  | _ => none

/-- The partition an initiator issues its accesses for (R53): that which owns the unit; none: the owner. A command that a Hopper sends
for a register names no partition, and its fault goes to the owner (log 109). -/
def iniOwner (s : State) (i : Initiator) : Option Nat :=
  match i with
  | .grain g => grainOwner s g
  | .binder sh | .sheafDma sh => sheafOwner s sh
  | .host fn _ => if fn.val = 0 then none else some fn
  | _ => none

/-- The die a Damper command comes from: the active one is DB after a takeover, and the standby is the other (R48, R738, log 120). -/
def damperFrom (s : State) (standby : Bool) : Nat := 0x1E + bnat (standby != s.flt.damper.db)

/-- An initiator as an event names it (R585); a Damper by its die (log 120). -/
def iniCode (s : State) (i : Initiator) : Nat :=
  match i with
  | .grain g => coordOf g
  | .binder sh | .sheafDma sh => coordOf (sheafPort sh)
  | .hopper t => 2 ^ 21 + 0x18 + t.val
  | .host _ p => 2 ^ 21 + 0x18 + p.val
  | .damper standby => 2 ^ 21 + damperFrom s standby

/-- The scope and unit of an initiator as an event names them (R584). -/
def iniUnit (s : State) (i : Initiator) : Nat × Nat :=
  match i with
  | .grain g => (4, grainUnit g)
  | .binder sh | .sheafDma sh => (3, sheafUnit sh)
  | .hopper t => (5, 0x18 + t.val)
  | .host _ p => (5, 0x18 + p.val)
  | .damper standby => (5, damperFrom s standby)

/-- ADDR_FAULT of an initiator's register access (R53, R54). -/
def regFault (s : State) (i : Initiator) (addr reason : Nat) : State :=
  raise s .addrFault (iniOwner s i) (iniUnit s i).1 (iniUnit s i).2 [(48, addr), (22, iniCode s i), (8, reason)]

/-- True for an initiator whose access to a register does not come to the unit's local port: the management ring's, and the unit's
own (R50). -/
def atHome (i : Initiator) (l : RegLoc) : Bool :=
  match i with
  | .damper _ => true
  | .grain g => l.scope == 4 && l.unit == grainUnit g
  | .binder sh | .sheafDma sh => l.scope == 3 && l.unit == sheafUnit sh
  | .hopper t => l.scope == 5 && l.unit == 0x18 + t.val
  | .host _ port => l.scope == 5 && l.unit == 0x18 + port.val

/-- True while a half is being reset or is lost (R317, R734). -/
def halfGone (s : State) (h : Nat) : Bool := (halfSt s h).draining || (halfSt s h).inReset || (halfSt s h).lost

/-- True when a register access meets the gone response of its unit (R56, R111, R313): a grain of an ear that is not ON, a grain or
sheaf whose port drains, a field, bin or port die of a half that is being reset or is lost. A router answers for its own block
while the grain's port drains (R316). The response gives no value: a read returns 0 and a write does nothing (log 105). -/
def unitGone (s : State) (i : Initiator) (l : RegLoc) : Bool :=
  match l.scope with
  | 2 => halfGone s (fieldOfUnit l.unit / 80) && !atHome i l
  | 3 => sheafDrains s (sheafOfUnit l.unit) && !atHome i l
  | 4 =>
    !earOn s (earOfGrain (grainOfUnit l.unit)) || (l.blk != 3 && fenced s (grainOfUnit l.unit) && !atHome i l)
  | 5 => (l.unit < 0x10 || 0x18 ≤ l.unit) && halfGone s (dieHalf l.unit) && !atHome i l
  | _ => false

/-- A write of a register that has a command of its own: the standby Damper's is discarded and counted (R51), one not
permitted faults (R52, R53), one to a unit that is gone is answered GONE (R56), and any other acts. -/
def regCommand (i : Initiator) (l : RegLoc) (s : State) (k : State → State) : State :=
  match i with
  | .damper true => { s with standbyWrites := s.standbyWrites + 1 }
  | _ => if !regAllowed s i l then regFault s i (regAddr l) 3 else if unitGone s i l then s else k s

end Sys2Proof.Machine
end

