-- ==== Sys2Proof/Machine/Scalar.lean ====
section
/-!
DEFINITION. The meanings of the system, scalar, predicate and branch instructions (R66, R74, R77, R79, R80, R783 to
R785), for grains and binders (R112).
-/
namespace Sys2Proof.Machine

/-- An immediate of w bits sign-extended to 32 (R783). -/
def sext (w imm : Nat) : Word := (BitVec.ofNat w imm).signExtend 32

/-- s[rd] := f s[ra] s[rb]. -/
def alu (op : Op) (f : Word → Word → Word) (u : Issuer) (s : State) : Out :=
  .next (coreIns op u s (fun i c => sSet c i.rd (f (sGet c i.ra) (sGet c i.rb))))

/-- s[rd] := f s[ra] imm. -/
def aluImm (op : Op) (f : Word → Nat → Word) (u : Issuer) (s : State) : Out :=
  .next (coreIns op u s (fun i c => sSet c i.rd (f (sGet c i.ra) i.imm)))

/-- p[rd] := f p[ra] p[rb] (R80). -/
def predOp (op : Op) (f : Bool → Bool → Bool) (u : Issuer) (s : State) : Out :=
  .next (coreIns op u s (fun i c => pSet c i.rd (f (pGet c i.ra) (pGet c i.rb))))

/-- Number of leading zeros, counted over the low k bits from the top (R785). -/
def lzc : Nat → Nat → Nat
  | 0, _ => 0
  | k + 1, x => if x / 2 ^ k % 2 = 1 then 0 else 1 + lzc k x

/-- The comparison a PCMP function selects (R79). -/
def pcmpFn (fn : Nat) (a b : Word) : Bool :=
  match fn with
  | 0 => a == b
  | 1 => a != b
  | 2 => decide (a.toInt < b.toInt)
  | 3 => decide (b.toInt ≤ a.toInt)
  | 4 => decide (a.toNat < b.toNat)
  | _ => decide (b.toNat ≤ a.toNat)

/-- Stop issue after the instruction at the program counter: HALTED, RUN reads 0 (R66). -/
def haltCore (s : State) (u : Issuer) : State :=
  let c := advance (core s u) 1
  leave (setRegF (setCore s u { c with state := .halted }) (rCtrl u) 0 0 0) u

/-- p7 to p0 in bits [7:0] (R80). -/
def predBits (c : Core) : Nat := packFields ((List.range 8).map (fun i => (1, bnat (pGet c i))))

/-- Take a branch to a target that may lie outside the code (R67): the link is written, loops left behind end. -/
def branchTo (u : Issuer) (i : Ins) (target : Int) (s : State) : State :=
  let c := core s u
  if target < 0 ∨ (codeWords u : Int) ≤ target then coreFault s u 1
  else setCore s u (jumpTo (sSet c i.rd (word (c.pc + 1))) target.toNat)

/-- The target of JR: s[ra] at the width of the program counter, plus the offset; in a binder modulo 2^16 (R77, R112). -/
def jrTarget (u : Issuer) (c : Core) (i : Ins) : Int :=
  if isBinder u then (((bits (sGet c i.ra) 15 0 : Nat) : Int) + sgn 12 i.imm) % 65536
  else ((bits (sGet c i.ra) 9 0 : Nat) : Int) + sgn 12 i.imm

/-- The end word of a LOOP: in a binder bits [15:10] are those of the LOOP's own word (R112). -/
def loopStop (u : Issuer) (pc imm : Nat) : Nat := if isBinder u then pc / 1024 * 1024 + imm else imm

/-- Start, replace or skip a hardware loop (R74). -/
def loopStart (u : Issuer) (i : Ins) (s : State) : State :=
  let c := core s u
  let stop := loopStop u c.pc i.imm
  if stop < c.pc + 1 then coreFault s u 0
  else
    let n := sGet c i.ra
    if n = 0 then setCore s u (pcAfter { c with loops := c.loops.set! i.rd {} } stop)
    else
      let l : LoopLevel := ⟨true, n, BitVec.ofNat 16 (c.pc + 1), BitVec.ofNat 16 stop⟩
      setCore s u (advance { c with loops := c.loops.set! i.rd l } 1)

/-- NOP (R77). -/
def execNop (u : Issuer) (s : State) : Out := .next (coreIns .nop u s (fun _ c => c))

/-- HALT (R66). -/
def execHalt (u : Issuer) (s : State) : Out := .next (issue .halt u s (fun _ s => haltCore s u))

/-- BREAK: as HALT when BREAK_EN is 1, else a NOP (R66, R117). -/
def execBrk (u : Issuer) (s : State) : Out :=
  .next (issue .brk u s (fun _ s => if regBit s (rCtrl u) 1 then haltCore s u else next1 s u))

/-- RDCYC: the low 32 bits of the cycle counter (R785, R112). -/
def execRdcyc (u : Issuer) (s : State) : Out :=
  .next (issue .rdcyc u s (fun i s =>
    let c := core s u
    setCore s u (advance (sSet c i.rd (word (cycleCount s c))) 1)))

/-- RDID: the image coordinate of the grain, or of the sheaf's port router (R540, R785, R112). -/
def execRdid (u : Issuer) (s : State) : Out :=
  .next (issue .rdid u s (fun i s =>
    setCore s u (advance (sSet (core s u) i.rd (word (imageCoord s (routerOf u)))) 1)))

/-- ADD (R77). -/
def execAdd (u : Issuer) (s : State) : Out := alu .add (fun a b => a + b) u s

/-- SUB (R77). -/
def execSub (u : Issuer) (s : State) : Out := alu .sub (fun a b => a - b) u s

/-- AND (R77). -/
def execAndd (u : Issuer) (s : State) : Out := alu .andd (fun a b => a &&& b) u s

/-- OR (R77). -/
def execOrr (u : Issuer) (s : State) : Out := alu .orr (fun a b => a ||| b) u s

/-- XOR (R77). -/
def execXor (u : Issuer) (s : State) : Out := alu .xor (fun a b => a ^^^ b) u s

/-- SLL: the amount is s[rb] modulo 32 (R785). -/
def execSll (u : Issuer) (s : State) : Out := alu .sll (fun a b => a <<< (b.toNat % 32)) u s

/-- SRL: logical, the amount is s[rb] modulo 32 (R785). -/
def execSrl (u : Issuer) (s : State) : Out := alu .srl (fun a b => a >>> (b.toNat % 32)) u s

/-- SRA: arithmetic, the amount is s[rb] modulo 32 (R785). -/
def execSra (u : Issuer) (s : State) : Out := alu .sra (fun a b => a.sshiftRight (b.toNat % 32)) u s

/-- SLT: signed (R77). -/
def execSlt (u : Issuer) (s : State) : Out := alu .slt (fun a b => if a.toInt < b.toInt then 1 else 0) u s

/-- SLTU: unsigned (R77). -/
def execSltu (u : Issuer) (s : State) : Out := alu .sltu (fun a b => if a.toNat < b.toNat then 1 else 0) u s

/-- MIN: signed (R785). -/
def execMinS (u : Issuer) (s : State) : Out := alu .minS (fun a b => if b.toInt < a.toInt then b else a) u s

/-- MAX: signed (R785). -/
def execMaxS (u : Issuer) (s : State) : Out := alu .maxS (fun a b => if a.toInt < b.toInt then b else a) u s

/-- MUL: the low 32 bits (R77). -/
def execMul (u : Issuer) (s : State) : Out := alu .mul (fun a b => a * b) u s

/-- MULH: the high 32 bits of the signed product (R77). -/
def execMulh (u : Issuer) (s : State) : Out := alu .mulh (fun a b => BitVec.ofInt 32 (a.toInt * b.toInt / 2 ^ 32)) u s

/-- CLZ: 32 for zero (R785). -/
def execClz (u : Issuer) (s : State) : Out := alu .clz (fun a _ => word (lzc 32 a.toNat)) u s

/-- POPC (R785). -/
def execPopc (u : Issuer) (s : State) : Out := alu .popc (fun a _ => word (popc 32 a.toNat)) u s

/-- The shift SHI's kind selects (R77). -/
def shiBy (a : Word) (kind n : Nat) : Word :=
  if kind = 0 then a <<< n else if kind = 1 then a >>> n else a.sshiftRight n

/-- ADDI: imm12 sign-extended (R783). -/
def execAddi (u : Issuer) (s : State) : Out := aluImm .addi (fun a k => a + sext 12 k) u s

/-- ANDI: imm12 zero-extended (R783). -/
def execAndi (u : Issuer) (s : State) : Out := aluImm .andi (fun a k => a &&& word k) u s

/-- ORI: imm12 zero-extended (R783). -/
def execOri (u : Issuer) (s : State) : Out := aluImm .ori (fun a k => a ||| word k) u s

/-- XORI: imm12 zero-extended (R783). -/
def execXori (u : Issuer) (s : State) : Out := aluImm .xori (fun a k => a ^^^ word k) u s

/-- SHI: the kind in imm[11:10], the amount in imm[4:0] (R77). -/
def execShi (u : Issuer) (s : State) : Out := aluImm .shi (fun a k => shiBy a (nbits k 11 10) (nbits k 4 0)) u s

/-- LI: the sign-extended imm17 (R77). -/
def execLi (u : Issuer) (s : State) : Out := aluImm .li (fun _ k => sext 17 k) u s

/-- LIH: imm17[15:0] into the upper half of s[rd] (R77). -/
def execLih (u : Issuer) (s : State) : Out :=
  .next (coreIns .lih u s (fun i c => sSet c i.rd (setBits (sGet c i.rd) 31 16 i.imm)))

/-- PCMP (R79). -/
def execPcmp (u : Issuer) (s : State) : Out :=
  .next (coreIns .pcmp u s (fun i c => pSet c i.rd (pcmpFn i.fn (sGet c i.ra) (sGet c i.rb))))

/-- PCMPI: the predicate is rd[2:0], the condition rd[4:3] (R79, R783). -/
def execPcmpi (u : Issuer) (s : State) : Out :=
  .next (coreIns .pcmpi u s (fun i c => pSet c (i.rd % 8) (pcmpFn (i.rd / 8) (sGet c i.ra) (sext 12 i.imm))))

/-- PAND (R80). -/
def execPand (u : Issuer) (s : State) : Out := predOp .pand (fun a b => a && b) u s

/-- POR (R80). -/
def execPor (u : Issuer) (s : State) : Out := predOp .por (fun a b => a || b) u s

/-- PXOR (R80). -/
def execPxor (u : Issuer) (s : State) : Out := predOp .pxor (fun a b => a != b) u s

/-- PANDN: pa AND NOT pb (R80). -/
def execPandn (u : Issuer) (s : State) : Out := predOp .pandn (fun a b => a && !b) u s

/-- P2S: p7 to p0 in bits [7:0], zeros above (R80). -/
def execP2s (u : Issuer) (s : State) : Out :=
  .next (coreIns .p2s u s (fun i c => sSet c i.rd (word (predBits c))))

/-- S2P: 1 when s[ra] is not 0 (R80). -/
def execS2p (u : Issuer) (s : State) : Out :=
  .next (coreIns .s2p u s (fun i c => pSet c i.rd (sGet c i.ra != 0)))

/-- BR: to PC + imm12, the PC being the word index of the BR itself (R77, R784). -/
def execBr (u : Issuer) (s : State) : Out :=
  .next (issue .br u s (fun i s => branchTo u i (((core s u).pc : Int) + sgn 12 i.imm) s))

/-- JR: to s[ra] + imm12 (R77, R784, R112). -/
def execJr (u : Issuer) (s : State) : Out :=
  .next (issue .jr u s (fun i s => branchTo u i (jrTarget u (core s u) i) s))

/-- LOOP (R74, R112). -/
def execLoop (u : Issuer) (s : State) : Out := .next (issue .loop u s (fun i s => loopStart u i s))

end Sys2Proof.Machine
end

