-- ==== Sys2Proof/Machine/Life.lean ====
section
/-!
DEFINITION. The life cycle of grains and binders (R61 to R66, R114, R115): loading the code store, starting, halting.
-/
namespace Sys2Proof.Machine

/-- The program counter a start begins at (R63, R119, R125). -/
def startPc (s : State) (u : Issuer) : Nat := regF s (rStart u) (if isBinder u then 15 else 9) 0

/-- True while a grain is copying its code store. -/
def loading (c : Core) : Bool := c.state == .loading

/-- Hold or cancel a start during a copy (R65). -/
def holdStart (s : State) (u : Issuer) (h : Bool) : State :=
  match u with
  | .grain g => setGrain s g { grain s g with copy := (grain s g).copy.map (fun k => { k with held := h }) }
  | .binder _ => s

/-- RUN := 1 (R63, R65): starts a unit that is HALTED or FAULTED, is held while it is LOADING, and else has no effect. -/
def runStart (s : State) (u : Issuer) : State :=
  let s1 := setRegF s (rCtrl u) 0 0 1
  let c := core s1 u
  match c.state with
  | .halted | .faulted => setCore s1 u { c with state := .running, wait := .none, pc := startPc s1 u }
  | .loading => holdStart s1 u true
  | _ => s1

/-- RUN := 0 in one unit (R64, R65): stops issue and abandons a waiting instruction, whose status, if a LOCK's, is discarded when
it comes; during a copy it cancels a held start. -/
def runStop (s : State) (u : Issuer) : State :=
  let s1 := setRegF s (rCtrl u) 0 0 0
  let c := core s1 u
  match c.state with
  | .halted | .faulted => s1
  | .loading => holdStart s1 u false
  | _ => setCore (lockForget s1 u) u { core (lockForget s1 u) u with state := .halted, wait := .none }

/-- True when RUN := 0 would make a unit leave RUNNING and its waits (R64, R108). -/
def stoppable (s : State) (u : Issuer) : Bool :=
  match (core s u).state with
  | .halted | .faulted | .loading => false
  | _ => true

/-- RUN := 0 (R64, R65, R108). -/
def runHalt (s : State) (u : Issuer) : State := if stoppable s u then leave (runStop s u) u else runStop s u

/-- RUN := 0 in several units in one cycle (R64, R108, R114): all of them stop, and only then do the ears they were in see it. -/
def runHaltAll (s : State) (us : List Issuer) : State :=
  (us.filter (stoppable s)).foldl leave (us.foldl runStop s)

/-- The cycle of a write of RUN := 0 is kept: a GSIG START that reaches the unit in the same cycle leaves RUN at 0 (R115). -/
def markHalt (s : State) (u : Issuer) : State := setCore s u { core s u with haltAt := some s.cycle }
/-- GSIG START in one unit (R114, R115). -/
def sigStart (s : State) (u : Issuer) : State := if (core s u).haltAt == some s.cycle then s else runStart s u

/-- GRN_RUN_START: a write of GRN_CTRL with RUN 1 (R63, R117). -/
def execGrnRunStart (ini : Initiator) (u : Issuer) (value : Word) (s : State) : Out :=
  .next (regCommand ini (rCtrl u) s (fun s =>
    if bit value 0 then runStart (setRegF s (rCtrl u) 1 1 (bits value 1 1)) u else s))

/-- GRN_RUN_HALT: a write of GRN_CTRL with RUN 0 (R64, R117). -/
def execGrnRunHalt (ini : Initiator) (u : Issuer) (value : Word) (s : State) : Out :=
  .next (regCommand ini (rCtrl u) s (fun s =>
    if bit value 0 then s else markHalt (runHalt (setRegF s (rCtrl u) 1 1 (bits value 1 1)) u) u))

/-- A code load a grain refuses (R61): its state, or words that do not fit the store or the scratchpad. -/
def loadBad (x : Grain) (src dst n : Nat) : Bool :=
  (x.core.state != .halted && x.core.state != .faulted) || dst + n > 1024 || 16 * src + 4 * n > spdSize

/-- CODE_LOAD: a write of GRN_CODE_LOAD (R61, R122). -/
def execCodeLoad (ini : Initiator) (g : GrainId) (value : Word) (s : State) : Out :=
  .next (regCommand ini (rGrain g 1 0x1C) s (fun s =>
    let x := grain s g
    let src := bits value 31 20
    let dst := bits value 19 10
    let n := bits value 9 0 + 1
    if loadBad x src dst n then setFault s (.grain g) (2 ^ 8) x.core.lastPc
    else setGrain s g { x with copy := some ⟨src, dst, n, x.core.state, false⟩, core := { x.core with state := .loading } }))

/-- The code store after a copy (R60, R61). -/
def copyWords (x : Grain) (k : CodeCopy) : Mem :=
  (List.range k.count).foldl (fun m i => memPut m (4 * (k.dst + i)) (spdBytes x (16 * k.src + 4 * i) 4) 4) x.code

/-- CODE_LOAD_DONE: the copy ends; a held start takes effect, else the grain returns to its state before (R65). -/
def execCodeLoadDone (g : GrainId) (s : State) : Out :=
  .next (
    let x := grain s g
    match x.copy with
    | none => s
    | some k =>
      let x1 := { x with code := copyWords x k, copy := none, core := { x.core with state := k.prior } }
      let s1 := setGrain s g x1
      if k.held then runStart s1 (.grain g) else s1)

end Sys2Proof.Machine
end

