-- ==== Sys2Proof/Machine/Sync.lean ====
section
/-!
DEFINITION. Synchronisation: WAIT (R82 to R86), the tally operations (R239, R240), the credit operations (R249, R250),
LOCK (R98 to R102), FENCE (R95 to R97), PUT and NOTIFY (R87 to R89), and the binder's own instructions but STOKE (R114).
-/
namespace Sys2Proof.Machine

/-- The value a WAIT compares and the error bit it sees (R82, R86): a tally counter, or a notify counter of a binder,
which has no flags (R113). -/
def waitView (s : State) (u : Issuer) (k : Nat) : Nat × Bool :=
  match u with
  | .grain g =>
    let t := (grain s g).tc.getD k {}
    (if t.overflow then 0xFFFF else t.value.toNat, t.error)
  | .binder sh => (((sheaf s sh).nc.getD k 0).toNat, false)

/-- WAIT ends with a result (R85). -/
def waitEnd (s : State) (u : Issuer) (pred : Nat) (r : Bool) : State :=
  let c := core s u
  setCore s u { advance (pSet c pred r) 1 with state := .running, wait := .none }

/-- WAIT's condition holds (R82). -/
def waitHolds (s : State) (u : Issuer) (k thr : Nat) : Bool :=
  let w := waitView s u k
  decide (thr ≤ w.1) || w.2

/-- WAIT (R82 to R86): it ends at once when its condition holds at issue. -/
def execWait (u : Issuer) (s : State) : Out :=
  .next (issue .wait u s (fun i s =>
    let c := core s u
    let thr := bits (sGet c i.ra) 15 0
    let t := (sGet c i.rb).toNat
    if waitHolds s u i.rd thr then waitEnd s u i.imm (!(waitView s u i.rd).2)
    else setCore s u { c with state := if isBinder u then .waitNotify else .waitTally
                              wait := .tally i.rd thr (if t = 0 then none else some (s.cycle + t)) i.imm }))

/-- WAIT_RELEASE: a waiting unit sees its condition (R83, R85). -/
def execWaitRelease (u : Issuer) (s : State) : Out :=
  .next (match (core s u).wait with
    | .tally k thr _ p => if waitHolds s u k thr then waitEnd s u p (!(waitView s u k).2) else s
    | _ => s)

/-- WAIT_TIMEOUT: a waiting unit whose cycles have passed since issue ends (R82, R85); a threshold met in the same sample counts. -/
def execWaitTimeout (u : Issuer) (s : State) : Out :=
  .next (match (core s u).wait with
    | .tally k thr (some d) p => if d ≤ s.cycle then waitEnd s u p (waitHolds s u k thr && !(waitView s u k).2) else s
    | _ => s)

/-- The state word of a counter (R239). -/
def tcWord (s : State) (u : Issuer) (k : Nat) : Word :=
  match u with
  | .grain g =>
    let t := (grain s g).tc.getD k {}
    word (t.value.toNat + 2 ^ 16 * bnat t.overflow + 2 ^ 17 * bnat t.error)
  | .binder sh => word ((sheaf s sh).nc.getD k 0).toNat

/-- A tally operation: the state word from before into s[rd], then the effect (R239). -/
def tallyOp (op : Op) (u : Issuer) (s : State) (f : State → Nat → BitVec 16 → State) : Out :=
  .next (issue op u s (fun i s =>
    let w := tcWord s u i.rb
    let v := BitVec.ofNat 16 (bits (sGet (core s u) i.ra) 15 0)
    let s1 := f s i.rb v
    setCore s1 u (advance (sSet (core s1 u) i.rd w) 1)))

/-- Replace a counter's value and flags. -/
def setTally (s : State) (g k : Nat) (t : Tally) : State :=
  setGrain s g { grain s g with tc := (grain s g).tc.set! k t }

/-- Replace a notify counter. -/
def setNc (s : State) (sh k : Nat) (v : BitVec 16) : State := setSheaf s sh { sheaf s sh with nc := (sheaf s sh).nc.set! k v }

/-- TC.SET of a unit's counter (R239). -/
def tcSetOp (u : Issuer) (s : State) (k : Nat) (v : BitVec 16) : State :=
  match u with
  | .grain g => setTally s g k { value := v }
  | .binder sh => setNc s sh k v

/-- TC.SUB (R240). -/
def tcSubOp (u : Issuer) (s : State) (k : Nat) (v : BitVec 16) : State :=
  match u with
  | .grain g =>
    let t := (grain s g).tc.getD k {}
    if t.overflow then s
    else if v.toNat > t.value.toNat then orReg (setTally s g k { t with value := 0 }) (rGrain g 2 0xA0) (2 ^ 2)
    else setTally s g k { t with value := t.value - v }
  | .binder sh =>
    let n := (sheaf s sh).nc.getD k 0
    setNc s sh k (if v.toNat > n.toNat then 0 else n - v)

/-- TC.ADD (R238, R239). -/
def tcAddOp (u : Issuer) (s : State) (k : Nat) (v : BitVec 16) : State :=
  match u with
  | .grain g => tallyInc s g k v.toNat
  | .binder sh => ncInc s sh k v.toNat

/-- TC.CLRERR (R239); a notify counter has no error bit (R113). -/
def tcClrOp (u : Issuer) (s : State) (k : Nat) : State :=
  match u with
  | .grain g => setTally s g k { (grain s g).tc.getD k {} with error := false }
  | .binder _ => s

/-- TC.RD (R239). -/
def execTcRd (u : Issuer) (s : State) : Out := tallyOp .tcRd u s (fun s _ _ => s)
/-- TC.SET (R239). -/
def execTcSet (u : Issuer) (s : State) : Out := tallyOp .tcSet u s (tcSetOp u)
/-- TC.SUB (R240). -/
def execTcSub (u : Issuer) (s : State) : Out := tallyOp .tcSub u s (tcSubOp u)
/-- TC.ADD (R239). -/
def execTcAdd (u : Issuer) (s : State) : Out := tallyOp .tcAdd u s (tcAddOp u)
/-- TC.CLRERR (R239). -/
def execTcClrerr (u : Issuer) (s : State) : Out := tallyOp .tcClrerr u s (fun s k _ => tcClrOp u s k)

/-- A credit operation of a grain: an effect, and then what goes into s[rd] (R249). -/
def creditOp (op : Op) (u : Issuer) (s : State) (f : State → Nat → Nat → Nat → State × Word) : Out :=
  .next (issue op u s (fun i s =>
    match u with
    | .binder _ => s
    | .grain g =>
      let (s1, w) := f s g i.rb (bits (sGet (core s u) i.ra) 11 0)
      setCore s1 u (advance (sSet (core s1 u) i.rd w) 1)))

/-- CW.SET (R249). -/
def execCwSet (u : Issuer) (s : State) : Out :=
  creditOp .cwSet u s (fun s g w n =>
    if cwSetOk (window s g w) then (setWindow s g w (cwSet n), 0) else (s, 1))

/-- CW.RET: AVAIL afterwards (R249, R250). -/
def execCwRet (u : Issuer) (s : State) : Out :=
  creditOp .cwRet u s (fun s g w n => let s1 := cwReturn s g w n; (s1, word (window s1 g w).avail))

/-- CW.RD (R249). -/
def execCwRd (u : Issuer) (s : State) : Out :=
  creditOp .cwRd u s (fun s g w _ =>
    let x := window s g w
    (s, word (2 ^ 31 * bnat x.isOpen + 2 ^ 28 * x.queue.length + 2 ^ 16 * x.inFlight + x.avail)))

/-- CW.CLOSE (R249). -/
def execCwClose (u : Issuer) (s : State) : Out := creditOp .cwClose u s (fun s g w _ => (cwClose s g w, 0))

/-- The device address of a lock word (R42). -/
def lockWordAddr (h : Word) : Nat :=
  2 ^ 38 + bits h 20 20 * 2 ^ 37 + bits h 19 13 * 2 ^ 30 + bits h 12 7 * 2 ^ 24 + 0x40000 + 4 * bits h 5 0

/-- The fault of a lock handle, by R55's order (R53, R98). -/
def lockFault (s : State) (u : Issuer) (h : Word) : Option Nat :=
  if bits h 31 21 ≠ 0 ∨ bit h 6 then some 1
  else if bits h 19 13 ≥ 80 ∨ bits h 12 7 ≥ 36 then some 2
  else if (sheafOwner s (lockSheaf h)).isNone ∨ sheafOwner s (lockSheaf h) ≠ unitOwner s u then some 3
  else none

/-- An attempt of TRY or ACQ: the status of a handle that faults at once, else a request (R98, R99). -/
def lockTry (fn : Nat) (u : Issuer) (i : Ins) (s : State) : State :=
  let c := core s u
  let h0 := sGet c i.ra
  let h := xlatLock s (partOf s u) h0
  match lockFault s u h with
  | some r => lockEnd (addrFault s u (lockWordAddr h0) r) u i.rd 5
  | none =>
    let t := (sGet c i.rb).toNat
    let dl := if fn = 1 ∧ t ≠ 0 then some (s.cycle + t) else none
    lockSend (setCore s u { c with state := .waitLock, wait := .lock fn h i.rd dl none }) u fn h

/-- LOCK.TRY (R98, R99). -/
def execLockTry (u : Issuer) (s : State) : Out := .next (issue .lockTry u s (lockTry 0 u))

/-- LOCK.ACQ (R98 to R100). -/
def execLockAcq (u : Issuer) (s : State) : Out := .next (issue .lockAcq u s (lockTry 1 u))

/-- LOCK_ACQ_RETRY: the back-off ends and ACQ tries again, but not in or after its deadline (R100). -/
def execLockAcqRetry (u : Issuer) (s : State) : Out :=
  .next (
    let c := core s u
    match c.wait with
    | .lock 1 h rd dl (some t) =>
      if t ≤ s.cycle ∧ !pastDeadline dl s.cycle then lockSend (setCore s u { c with wait := .lock 1 h rd dl none }) u 1 h else s
    | _ => s)

/-- LOCK_ACQ_TIMEOUT: ACQ that backs off reaches its deadline and returns BUSY (R100). -/
def execLockAcqTimeout (u : Issuer) (s : State) : Out :=
  .next (match (core s u).wait with
    | .lock 1 _ rd (some d) (some _) => if d ≤ s.cycle then lockEnd s u rd 2 else s
    | _ => s)

/-- LOCK.REL: the implicit fence first (R101), then the release. -/
def execLockRel (u : Issuer) (s : State) : Out :=
  .next (issue .lockRel u s (fun i s =>
    let c := core s u
    let h0 := sGet c i.ra
    let h := xlatLock s (partOf s u) h0
    match lockFault s u h with
    | some r => lockEnd (addrFault s u (lockWordAddr h0) r) u i.rd 5
    | none =>
      let k := if lockSheaf h = sheafOf u then FenceKind.sheaf else .global
      fenceCheck (setCore s u { c with state := .waitLock, wait := .relFence k h i.rd }) u))

/-- FENCE of a kind: it ends at once when nothing of its scope is outstanding (R95). -/
def fenceOp (op : Op) (k : FenceKind) (u : Issuer) (s : State) : Out :=
  .next (issue op u s (fun _ s =>
    fenceCheck (setCore s u { core s u with state := .waitFence, wait := .fence k }) u))

/-- FENCE.L: the unit's own loads and stores, which complete in order (R95). -/
def execFenceL (u : Issuer) (s : State) : Out := fenceOp .fenceL .local_ u s
/-- FENCE.S (R95). -/
def execFenceS (u : Issuer) (s : State) : Out := fenceOp .fenceS .sheaf u s
/-- FENCE.G (R95). -/
def execFenceG (u : Issuer) (s : State) : Out := fenceOp .fenceG .global u s

/-- The fault of a PUT handle, by R55's order (R87, R88); a multicast handle with a field that must be 0 is RESERVED
(log 16). -/
def putFault (s : State) (g : Nat) (h : Word) (off n : Nat) : Option Nat :=
  let mc := bit h 27
  if mc ∧ bits h 20 0 ≠ 0 then some 1
  else if off + n > spdSize ∨ (!mc ∧ (bits h 9 0 > 959 ∨ bits h 19 10 > 767)) then some 2
  else if !mc ∧ ((grainOwner s g).isNone ∨ grainOwner s (atCoord (BitVec.ofNat 21 (bits h 20 0))) ≠ grainOwner s g) then some 3
  else none

/-- The device address of an offset in the scratchpad a PUT handle names: R5 and R40 applied to its coordinate. -/
def putAddr (h : Word) (off : Nat) : Nat :=
  if bit h 27 then off
  else
    let x := bits h 9 0
    let y := bits h 19 10
    bits h 20 20 * 2 ^ 37 + (10 * (y / 96) + x / 96) % 128 * 2 ^ 30 + (6 * (y % 96 / 16) + x % 96 / 16) * 2 ^ 24 +
      (4 * (y % 16 / 4) + x % 16 / 4) * 2 ^ 20 + (4 * (y % 4) + x % 4) * 2 ^ 16 + off

/-- A PUT handle's coordinate translated; a multicast tag is not (R556). -/
def xlatPut (s : State) (p : Nat) (h : Word) : Word :=
  if bit h 27 then h else setBits h 20 0 (xlatCoord s p (BitVec.ofNat 21 (bits h 20 0))).toNat

/-- The rows a PUT sends: the low rows of v[rd] (R87). -/
def putRows (v : BitVec 512) (n : Nat) : List (BitVec 128 × Bool) :=
  (List.range n).map (fun k => (BitVec.ofNat 128 (v.toNat / 2 ^ (128 * k)), false))

/-- A multicast PUT enters its own router (R87, R296). -/
def putMulti (s : State) (g : Nat) (h : Word) (off : Nat) (body : List (BitVec 128 × Bool)) : State :=
  let tag := bits h 26 21
  let p : Packet :=
    { type := .write, mc := true, tag := BitVec.ofNat 6 tag, dst := 0, src := coordV g
      epoch := BitVec.ofNat 9 (epochOf s (.grain g)), part := BitVec.ofNat 6 (grainPart s g)
      len := BitVec.ofNat 3 body.length, tally := BitVec.ofNat 4 (bits h 31 28), cw := 0, status := 0
      addr := BitVec.ofNat 48 off, body := body }
  { s with reqs := s.reqs ++ [⟨g, tag, .mput g tag⟩], mesh := s.mesh ++ [⟨p, Fin.ofNat 1474560 g, 4⟩] }

/-- PUT (R87, R88). -/
def execPut (u : Issuer) (s : State) : Out :=
  .next (issue .put u s (fun i s =>
    match u with
    | .binder _ => s
    | .grain g =>
      let c := core s u
      let h := xlatPut s (grainPart s g) (sGet c i.ra)
      let off := bits (sGet c i.rb) 15 4 * 16
      let rows := if i.fn = 0 then 1 else if i.fn = 1 then 2 else 4
      let body := putRows ((grain s g).v.getD i.rd 0) rows
      let s1 := match putFault s g h off (16 * rows) with
        | some r => addrFault s u (putAddr (sGet c i.ra) off) r
        | none =>
          if bit h 27 then putMulti s g h off body
          else
            let dst := atCoord (BitVec.ofNat 21 (bits h 20 0))
            request s (.put g (decide (sheafOfGrain dst = sheafOfGrain g))) (.grain g) .write g dst (grainPart s g) rows
              (putAddr h off) body (bits h 31 28)
      next1 s1 u))

/-- NOTIFY: a packet to the binder of the grain's own sheaf (R89). -/
def execNotify (u : Issuer) (s : State) : Out :=
  .next (issue .notify u s (fun i s =>
    match u with
    | .binder _ => s
    | .grain g =>
      let p : Packet :=
        { type := .notify, mc := false, tag := 0, dst := coordV (sheafPort (sheafOfGrain g)), src := coordV g
          epoch := BitVec.ofNat 9 (epochOf s (.grain g)), part := BitVec.ofNat 6 (grainPart s g)
          len := 0, tally := 0, cw := 0, status := 0, addr := BitVec.ofNat 48 i.rd, body := [] }
      next1 (sendPkt s p) u))

/-- BEATW: stalls until the next beat boundary (R114). -/
def execBeatw (u : Issuer) (s : State) : Out :=
  .next (issue .beatw u s (fun i s => setCore s u { core s u with state := .waitBeat, wait := .beat i.rd }))

/-- The grains of a sheaf that GSIG's masks select, in ears that are ON (R111, R114). -/
def gsigGrains (s : State) (sh : Nat) (ears grains : Word) : List Nat :=
  ((List.range 256).filter (fun k => bit ears (k / 16) && bit grains (k % 16) && earOn s (16 * sh + k / 16))).map
    (fun k => 256 * sh + k)

/-- A GSIG of a binder: all the grains selected change in one cycle (R114). -/
def gsigOp (op : Op) (f : State → List Issuer → State) (u : Issuer) (s : State) : Out :=
  .next (issue op u s (fun i s =>
    let c := core s u
    next1 (f s ((gsigGrains s (sheafOf u) (sGet c i.ra) (sGet c i.rb)).map ug)) u))

/-- GSIG START: RUN := 1 in each grain selected (R114, R115). -/
def execGsigStart (u : Issuer) (s : State) : Out := gsigOp .gsigStart (fun s us => us.foldl sigStart s) u s
/-- GSIG HALT: RUN := 0 in each grain selected (R114). -/
def execGsigHalt (u : Issuer) (s : State) : Out := gsigOp .gsigHalt runHaltAll u s

/-- The fault of a register access by address, in R55's order; an address of another region is UNMAPPED (log 17). -/
def regAddrFault (s : State) (i : Initiator) (a : Nat) : Option Nat :=
  let l := locOf a
  if addrReserved a then some 1
  else if nbits a 47 44 ≠ 8 ∨ !unitExists l.scope l.unit ∨ !blockAt l.scope l.unit l.blk then some 2
  else if !regAllowed s i l then some 3
  else none

/-- The register address of REGWR and REGRD (R114). -/
def regPair (c : Core) (i : Ins) : Nat := bits (sGet c i.rb) 15 0 * 2 ^ 32 + (sGet c i.ra).toNat

/-- The router that serves a sheaf-scope or grain-scope register (R293). -/
def regRouter (l : RegLoc) : Nat := if l.scope = 4 then grainOfUnit l.unit else sheafPort (sheafOfUnit l.unit)

/-- REGWR: a write request to a register (R52, R114). -/
def execRegwr (u : Issuer) (s : State) : Out :=
  .next (issue .regwr u s (fun i s =>
    match u with
    | .grain _ => s
    | .binder sh =>
      let c := core s u
      let a0 := regPair c i
      let a := xlatAddr s (partOf s u) a0
      let s1 := match regAddrFault s (.binder sh) a with
        | some r => addrFault s u a0 r
        | none => request s (.reg sh none) (.sheaf sh) .regReq (sheafPort sh) (regRouter (locOf a)) (partOf s u) 1 a
            [(BitVec.ofNat 128 (sGet c i.rd).toNat, false)]
      next1 s1 u))

/-- A register read of a binder whose address faults: s[rd] reads as zero (R53). -/
def regrdBad (s : State) (u : Issuer) (rd a r : Nat) : State :=
  let s1 := addrFault s u a r
  setCore s1 u (advance (sSet (core s1 u) rd 0) 1)

/-- A register read of a binder is sent; s[rd] waits for its answer (R70, R114). -/
def regrdSend (s : State) (sh : SheafId) (rd a : Nat) : State :=
  let u := Issuer.binder sh
  let s1 := request s (.reg sh (some rd)) (.sheaf sh) .regReq (sheafPort sh) (regRouter (locOf a)) (partOf s u) 0 a []
  let c1 := core s1 u
  setCore s1 u (advance { c1 with regReads := if rd = 0 then c1.regReads else rd :: c1.regReads } 1)

/-- A register read of a binder at an address it gives: sent, or faulted (R53, R55). -/
def regrdAt (s : State) (sh : SheafId) (rd a0 : Nat) : State :=
  let a := xlatAddr s (partOf s (.binder sh)) a0
  match regAddrFault s (.binder sh) a with
  | some r => regrdBad s (.binder sh) rd a0 r
  | none => regrdSend s sh rd a

/-- REGRD: a read request; s[rd] is written when it is answered, and instructions that use s[rd] stall meanwhile
(R52, R70, R114). A fault reads as zero (R53). -/
def execRegrd (u : Issuer) (s : State) : Out :=
  .next (issue .regrd u s (fun i s =>
    match u with
    | .grain _ => s
    | .binder sh => regrdAt s sh i.rd (regPair (core s u) i)))

end Sys2Proof.Machine
end

