-- ==== Sys2Proof/Machine/Fp.lean ====
section
/-!
DEFINITION. The number formats and their arithmetic (R127 to R134, R147 to R150, R164): exact values, one rounding.
-/
namespace Sys2Proof.Machine

/-- A value: not a number, an infinity, or (−1)^neg × m × 2^e exactly. -/
inductive Val where
  | nan
  | inf (neg : Bool)
  | num (neg : Bool) (m : Nat) (e : Int)
  deriving DecidableEq, Repr

/-- 2^n as a natural number, for an integer n that is not negative (1 below). -/
def p2 (n : Int) : Nat := 2 ^ n.toNat

/-- The magnitude m × 2^e in units of 2^q, rounded: to nearest even, or stochastically with the generator value r
(R148, R149). A sticky lowest bit of m stands for any inexact tail. -/
def roundAt (sr : Option Nat) (m : Nat) (e q : Int) : Nat :=
  if q ≤ e then m * p2 (e - q)
  else
    let d := p2 (q - e)
    let k := m / d
    let r := m % d
    match sr with
    | none => if 2 * r > d ∨ (2 * r = d ∧ k % 2 = 1) then k + 1 else k
    | some g => if r * 65536 / d + g ≥ 65536 then k + 1 else k

/-- The exponent of the leading bit of m × 2^e, for m above 0. -/
def topExp (m : Nat) (e : Int) : Int := (Nat.log2 m : Int) + e

/-- A binary floating format of the vector unit: exponent bits and mantissa bits (R133). -/
structure Fmt where
  eb : Nat
  mb : Nat

/-- FP32 (R133). -/
def fp32 : Fmt := ⟨8, 23⟩
/-- BF16 (R133). -/
def bf16 : Fmt := ⟨8, 7⟩

/-- The canonical quiet NaN of a format (R134). -/
def canonNan (f : Fmt) : Nat := (2 ^ f.eb - 1) * 2 ^ f.mb + 2 ^ (f.mb - 1)
/-- An infinity of a format. -/
def infBits (f : Fmt) (neg : Bool) : Nat := bnat neg * 2 ^ (f.eb + f.mb) + (2 ^ f.eb - 1) * 2 ^ f.mb
/-- The largest finite magnitude of a format, with a sign. -/
def maxBits (f : Fmt) (neg : Bool) : Nat := infBits f neg - 1
/-- A zero of a format. -/
def zeroBits (f : Fmt) (neg : Bool) : Nat := bnat neg * 2 ^ (f.eb + f.mb)

/-- The value of a bit pattern; a subnormal reads as zero of the same sign (R133). -/
def ofBits (f : Fmt) (x : Nat) : Val :=
  let s := x / 2 ^ (f.eb + f.mb) % 2 == 1
  let e := x / 2 ^ f.mb % 2 ^ f.eb
  let m := x % 2 ^ f.mb
  if e = 2 ^ f.eb - 1 then (if m = 0 then .inf s else .nan)
  else if e = 0 then .num s 0 0
  else .num s (2 ^ f.mb + m) ((e : Int) - (2 ^ (f.eb - 1) - 1 : Nat) - f.mb)

/-- A magnitude rounded to a format with an unbounded exponent: mantissa and exponent (R133). -/
def roundMag (f : Fmt) (sr : Option Nat) (m : Nat) (e : Int) : Nat × Int :=
  let q := topExp m e - f.mb
  let k := roundAt sr m e q
  if k = 2 ^ (f.mb + 1) then (2 ^ f.mb, q + 1) else (k, q)

/-- The bit pattern of a rounded magnitude: zero below the smallest normal, the given pattern above max finite. -/
def packMag (f : Fmt) (neg : Bool) (k : Nat) (q : Int) (big : Nat) : Nat :=
  let be : Int := q + f.mb + (2 ^ (f.eb - 1) - 1 : Nat)
  if be < 1 then zeroBits f neg
  else if be ≥ (2 ^ f.eb - 1 : Nat) then big
  else bnat neg * 2 ^ (f.eb + f.mb) + be.toNat * 2 ^ f.mb + (k - 2 ^ f.mb)

/-- A value written in a format by nearest even (R133, R134). Above max finite it is an infinity where the operation gives no other rule
(R147, log 110). -/
def toBits (f : Fmt) : Val → Nat
  | .nan => canonNan f
  | .inf s => infBits f s
  | .num s m e =>
    if m = 0 then zeroBits f s
    else
      let (k, q) := roundMag f none m e
      packMag f s k q (infBits f s)

/-- The exact sum of two values; an exact zero sum is +0 unless both are −0. -/
def addV : Val → Val → Val
  | .nan, _ => .nan
  | _, .nan => .nan
  | .inf a, .inf b => if a = b then .inf a else .nan
  | .inf a, _ => .inf a
  | _, .inf b => .inf b
  | .num s m e, .num t n d =>
    let q := min e d
    let x : Int := (if s then -1 else 1) * (m * p2 (e - q) : Nat)
    let y : Int := (if t then -1 else 1) * (n * p2 (d - q) : Nat)
    let z := x + y
    if z = 0 then .num (s && t) 0 0 else .num (decide (z < 0)) z.natAbs q

/-- The negation of a value. -/
def negV : Val → Val
  | .nan => .nan
  | .inf s => .inf (!s)
  | .num s m e => .num (!s) m e

/-- The magnitude of a value. -/
def absV : Val → Val
  | .nan => .nan
  | .inf _ => .inf false
  | .num _ m e => .num false m e

/-- The exact product of two values. -/
def mulV : Val → Val → Val
  | .nan, _ => .nan
  | _, .nan => .nan
  | .inf a, .inf b => .inf (a != b)
  | .inf a, .num t n _ => if n = 0 then .nan else .inf (a != t)
  | .num s m _, .inf b => if m = 0 then .nan else .inf (s != b)
  | .num s m e, .num t n d => .num (s != t) (m * n) (e + d)

/-- The order of two values that are not NaN, with −0 equal to +0. -/
def ltV : Val → Val → Bool
  | .inf a, .inf b => a && !b
  | .inf a, .num _ _ _ => a
  | .num _ _ _, .inf b => !b
  | .num s m e, .num t n d =>
    let q := min e d
    let x : Int := (if s then -1 else 1) * (m * p2 (e - q) : Nat)
    let y : Int := (if t then -1 else 1) * (n * p2 (d - q) : Nat)
    decide (x < y)
  | _, _ => false

/-- True for a NaN. -/
def isNan : Val → Bool
  | .nan => true
  | _ => false

/-- True for a zero. -/
def isZero : Val → Bool
  | .num _ m _ => m == 0
  | _ => false

/-- The sign of a value. -/
def signV : Val → Bool
  | .nan => false
  | .inf s => s
  | .num s _ _ => s

/-- The order that puts −0 below +0 (R786). -/
def ltZ (a b : Val) : Bool := ltV a b || (isZero a && isZero b && signV a && !signV b)

/-- The minimum or maximum of two values: NaN when either is NaN (R786). -/
def minV (a b : Val) : Val := if isNan a || isNan b then .nan else if ltZ b a then b else a
def maxV (a b : Val) : Val := if isNan a || isNan b then .nan else if ltZ a b then b else a

/-- FP32 or BF16 addition with one rounding to nearest even (R133). -/
def fadd (f : Fmt) (a b : Nat) : Nat := toBits f (addV (ofBits f a) (ofBits f b))
/-- Multiplication with one rounding. -/
def fmul (f : Fmt) (a b : Nat) : Nat := toBits f (mulV (ofBits f a) (ofBits f b))
/-- a × b + c with one rounding (R77; DEDUCED, log 12). -/
def ffma (f : Fmt) (a b c : Nat) : Nat := toBits f (addV (mulV (ofBits f a) (ofBits f b)) (ofBits f c))

/-- A balanced tree sum over a list: pairs (2j, 2j + 1) first, for the given number of levels (R787). -/
def treeSum (add : Nat → Nat → Nat) : Nat → List Nat → Nat
  | 0, l => l.headD 0
  | k + 1, l =>
    let rec pairs : List Nat → List Nat
      | a :: b :: r => add a b :: pairs r
      | [a] => [a]
      | [] => []
    treeSum add k (pairs l)

/-- Integer square root by bits: the largest r below 2^k with r × r at most n. -/
def isqrt (n : Nat) : Nat → Nat → Nat
  | 0, r => r
  | k + 1, r => if (r + 2 ^ k) * (r + 2 ^ k) ≤ n then isqrt n k (r + 2 ^ k) else isqrt n k r

/-- 1 ÷ x exactly, with a sticky bit (R164). -/
def rcpV : Val → Val
  | .nan => .nan
  | .inf s => .num s 0 0
  | .num s m e =>
    if m = 0 then .inf s
    else
      let q := 2 ^ 64 / m
      let st := if 2 ^ 64 % m = 0 then 0 else 1
      .num s (2 * q + st) (-65 - e)

/-- 1 ÷ √x exactly, with a sticky bit (R164). -/
def rsqrtV : Val → Val
  | .nan => .nan
  | .inf s => if s then .nan else .num false 0 0
  | .num s m e =>
    if m = 0 then .inf s
    else if s then .nan
    else
      let (m1, e1) := if e % 2 = 0 then (m, e) else (2 * m, e - 1)
      let a := 2 ^ 160 / m1
      let r := isqrt a 81 0
      let st := if r * r * m1 = 2 ^ 160 then 0 else 1
      .num false (2 * r + st) (-81 - e1 / 2)

/-- Working precision in bits of the base-2 functions (log 13). -/
def prec : Nat := 224

/-- ln 2 × 2^prec by its series 1 ÷ (k × 2^k). -/
def ln2Fix : Nat → Nat
  | 0 => 0
  | k + 1 => ln2Fix k + 2 ^ (prec + 8) / ((k + 1) * 2 ^ (k + 1))

/-- ln 2 × 2^prec. -/
def ln2 : Nat := ln2Fix 240 / 2 ^ 8

/-- The exponential series at y ÷ 2^prec: the sum of terms from the k-th on, given the k-th term. -/
def expFix (y : Nat) : Nat → Nat → Nat → Nat
  | 0, _, _ => 0
  | n + 1, k, t => t + expFix y n (k + 1) (t * y / 2 ^ prec / (k + 1))

/-- 2^x rounded to nearest even, with the special results of R164. -/
def exp2V : Val → Val
  | .nan => .nan
  | .inf s => if s then .num false 0 0 else .inf false
  | .num s m e =>
    if m = 0 then .num false 1 0
    else if topExp m e > 10 then (if s then .num false 0 0 else .inf false)
    else
      -- x in units of 2^-prec, exact for every normal BF16 and FP32 input
      let fx : Int := (if s then -1 else 1) * ((if -(prec : Int) ≤ e then m * p2 (e + prec) else m / p2 (-(prec : Int) - e) : Nat) : Int)
      let n := fx / 2 ^ prec
      let f := (fx % 2 ^ prec).toNat
      if f = 0 then .num false 1 n
      else .num false (2 * expFix (f * ln2 / 2 ^ prec) 80 0 (2 ^ prec) + 1) (n - prec - 1)

/-- The series 2 × Σ z^(2k+1) ÷ (2k + 1) at z ÷ 2^prec: terms from the k-th on, given z^(2k+1). -/
def atanhFix (z2 : Nat) : Nat → Nat → Nat → Nat
  | 0, _, _ => 0
  | n + 1, k, t => 2 * t / (2 * k + 1) + atanhFix z2 n (k + 1) (t * z2 / 2 ^ prec)

/-- log₂ x rounded to nearest even, with the special results of R164. -/
def log2V : Val → Val
  | .nan => .nan
  | .inf s => if s then .nan else .inf false
  | .num s m e =>
    if m = 0 then .inf true
    else if s then .nan
    else
      let l := Nat.log2 m
      let n : Int := (l : Int) + e
      let a := m - 2 ^ l
      if a = 0 then .num (decide (n < 0)) n.natAbs 0
      else
        let z := a * 2 ^ prec / (m + 2 ^ l)
        let ln := atanhFix (z * z / 2 ^ prec) 80 0 z
        let fr := ln * 2 ^ prec / ln2
        let t : Int := n * 2 ^ prec + fr
        -- the true value lies just above t, so a negative result's magnitude lies just below −t
        if t < 0 then .num true (2 * t.natAbs - 1) (-(prec : Int) - 1) else .num false (2 * t.natAbs + 1) (-(prec : Int) - 1)

/-- The result of a function table: nearest even in the element type, +∞ above max finite (R133, R164). -/
def fnBits (f : Fmt) (g : Val → Val) (x : Nat) : Nat := toBits f (g (ofBits f x))

/-- An element format of R128 to R131: width, and either a floating layout or an integer with its unit. -/
inductive Elem where
  | flt (w eb mb bias : Nat)
  | int (w : Nat) (unit : Int) (lim : Nat)

/-- The element format of a block format code (R127 to R131). -/
def elemOf (c : Nat) : Elem :=
  match c with
  | 0 => .flt 4 2 1 1
  | 1 => .flt 6 2 3 1
  | 2 => .flt 6 3 2 3
  | 3 => .flt 8 4 3 7
  | 4 => .flt 8 5 2 15
  | 5 => .int 8 (-6) 127
  | 6 => .int 4 0 7
  | _ => .int 2 0 1

/-- Element width in bits (R127). -/
def elemWidth : Elem → Nat
  | .flt w _ _ _ => w
  | .int w _ _ => w

/-- What a block element is: a value, or a poison code (R131). -/
inductive El where
  | v (x : Val)
  | poison
  deriving DecidableEq, Repr

/-- The value of an element code in a block format (R128 to R131). -/
def elemVal (c x : Nat) : El :=
  match elemOf c with
  | .flt w eb mb bias =>
    let s := x / 2 ^ (w - 1) % 2 == 1
    let e := x / 2 ^ mb % 2 ^ eb
    let m := x % 2 ^ mb
    if c = 3 ∧ x % 128 = 127 then .v .nan
    else if c = 4 ∧ e = 31 then (if m = 0 then .v (.inf s) else .v .nan)
    else if e = 0 then .v (.num s m (1 - bias - mb))
    else .v (.num s (2 ^ mb + m) ((e : Int) - bias - mb))
  | .int w u _ =>
    if c = 7 ∧ x % 4 = 2 then .poison
    else
      let q := sgn w x
      .v (.num (decide (q < 0)) q.natAbs u)

/-- The max finite element value of a block format, as m × 2^e (R128, R140). -/
def maxfV (c : Nat) : Nat × Int :=
  match c with
  | 0 => (3, 1)
  | 1 => (15, -1)
  | 2 => (7, 2)
  | 3 => (7, 6)
  | 4 => (7, 13)
  | 5 => (127, -6)
  | 6 => (7, 0)
  | _ => (1, 0)

/-- The magnitude code of the max finite element. -/
def maxfCode (c : Nat) : Nat :=
  match c with
  | 0 => 7
  | 1 => 31
  | 2 => 31
  | 3 => 126
  | 4 => 123
  | 5 => 127
  | 6 => 7
  | _ => 1

/-- m × 2^e at most n × 2^d. -/
def leMag (m : Nat) (e : Int) (n : Nat) (d : Int) : Bool :=
  let q := min e d
  decide (m * p2 (e - q) ≤ n * p2 (d - q))

/-- An element's code from its magnitude code and sign; a zero is written +0 (R142). -/
def signCode (c : Nat) (neg : Bool) (k : Nat) : Nat :=
  if k = 0 then 0
  else
    match elemOf c with
    | .flt w _ _ _ => bnat neg * 2 ^ (w - 1) + k
    | .int w _ _ => if neg then 2 ^ w - k else k

/-- The magnitude code of m × 2^e rounded into a format's finite set (R147 to R149). -/
def elemRound (c : Nat) (sr : Option Nat) (m : Nat) (e : Int) : Nat :=
  if m = 0 then 0
  else
    match elemOf c with
    | .flt _ _ mb bias =>
      let emin : Int := 1 - bias
      let t := max (topExp m e) emin
      let k := roundAt sr m e (t - mb)
      -- k counts units of 2^(t − mb); a normal keeps its hidden bit as the first step of its exponent code
      ((t - emin).toNat) * 2 ^ mb + k
    | .int _ u _ => roundAt sr m e u

/-- One step of a stochastic-rounding generator (R150). -/
def lfsrStep (x : BitVec 16) : BitVec 16 :=
  let b := bnat (((x.getLsbD 15 != x.getLsbD 13) != x.getLsbD 12) != x.getLsbD 10)
  BitVec.ofNat 16 (x.toNat * 2 + b)

/-- The seed of a generator (R152) for a key. -/
def lfsrSeed (seed : Word) (key : Nat) : BitVec 16 :=
  let w := (seed ^^^ word key) * 0x9E3779B1#32
  let w := w ^^^ (w >>> 15)
  let s := BitVec.ofNat 16 (bits w 31 16) ^^^ BitVec.ofNat 16 (bits w 15 0)
  if s = 0 then 1 else s

/-- The key of generator g of a grain (R152). -/
def lfsrKey (g i : Nat) : Nat := halfOfGrain g * 2 ^ 26 + grainY g * 2 ^ 16 + grainX g * 2 ^ 6 + i

end Sys2Proof.Machine
end

