-- ==== Sys2Proof/Machine/Ergot.lean ====
section
/-!
DEFINITION. The Ergot counts a grain makes and posts (R138, R167, R168, R177), its stochastic-rounding generators
(R149 to R151), and the application of a post to its partition's table (R170 to R176).
-/
namespace Sys2Proof.Machine

/-- A register of a partition's Ergot table (R49). -/
def rErg (p off : Nat) (tag : Nat := 0) : RegLoc := { rPart p 0x19 off with sel := tag }

/-- The kinds of Ergot count (R167). -/
inductive ErgKind where
  | sat | clamp | nan | poison
  deriving DecidableEq, Repr

/-- Add to one of the four accumulators, which saturate at 16 bits (R168). -/
def ergBump (a : ErgotAcc) (k : ErgKind) (n : Nat) : ErgotAcc :=
  match k with
  | .sat => { a with sat := satAdd 16 a.sat n }
  | .clamp => { a with clamp := satAdd 16 a.clamp n }
  | .nan => { a with nan := satAdd 16 a.nan n }
  | .poison => { a with poison := satAdd 16 a.poison n }

/-- True when an accumulator has reached the posting limit (R168). -/
def ergFull (a : ErgotAcc) : Bool := a.sat ≥ 0x8000 || a.clamp ≥ 0x8000 || a.nan ≥ 0x8000 || a.poison ≥ 0x8000

/-- A grain posts its accumulators when some is non-zero (R168). What it holds when COUNT_EN is cleared is still posted (R177, log 111). -/
def ergPost (s : State) (g : Nat) : State :=
  let x := grain s g
  if x.ergot = {} then s
  else
    setGrain { s with posts := s.posts ++ [⟨g, grainPart s g, x.tag, x.ergot, none⟩] } g { x with ergot := {} }

/-- Count against the grain's current tag; discarded where COUNT_EN is 0; posted at the limit (R138, R168, R177). -/
def ergCount (s : State) (g : Nat) (k : ErgKind) (n : Nat) : State :=
  if n = 0 ∨ regBit s (rErg (grainPart s g) 0) 0 = false then s
  else
    let x := grain s g
    let s1 := setGrain s g { x with ergot := ergBump x.ergot k n }
    if ergFull (grain s1 g).ergot then ergPost s1 g else s1

/-- Counts of several kinds: saturations, clamps, NaNs, poisons. -/
def ergCounts (s : State) (g sat clamp nan poison : Nat) : State :=
  ergCount (ergCount (ergCount (ergCount s g .sat sat) g .clamp clamp) g .nan nan) g .poison poison

/-- A conversion sets the current tag; a change posts first (R138, R168). -/
def ergTag (s : State) (g tag : Nat) : State :=
  if (grain s g).tag = tag then s
  else
    let s1 := ergPost s g
    setGrain s1 g { grain s1 g with tag := tag }

/-- The register offset of a kind's row counter (R181), its threshold field and its FIRED bit (R183, R185). -/
def ergOff : ErgKind → Nat
  | .sat => 0x14 | .clamp => 0x18 | .nan => 0x1C | .poison => 0x20
def ergIdx : ErgKind → Nat
  | .sat => 0 | .clamp => 1 | .nan => 2 | .poison => 3

/-- ERGOT_THRESHOLD: partition, tag, kind (SAT, CLAMP, NAN, POISON, RESIDUAL, from 1), counter or residual (R175,
R585). -/
def ergRaise (s : State) (p tag kind v : Nat) : State :=
  raise s .ergotThreshold (some p) 6 p [(6, p), (12, tag), (4, kind + 1), (16, min v 0xFFFF)]

/-- Apply one kind's count to its row, and compare it with its threshold (R170, R171). -/
def ergApplyKind (p tag : Nat) (s : State) (e : ErgKind × Nat) : State :=
  if e.2 = 0 then s
  else
    let l := rErg p (ergOff e.1) tag
    let s1 := incReg s l e.2
    let k := regF s1 (rErg p 0x2C tag) (5 * ergIdx e.1 + 4) (5 * ergIdx e.1)
    let st := rErg p 0x34 tag
    if k ≠ 31 ∧ (reg s1 l).toNat ≥ 2 ^ k ∧ regBit s1 st (ergIdx e.1) = false then
      ergRaise (orReg s1 st (2 ^ ergIdx e.1)) p tag (ergIdx e.1) (reg s1 l).toNat
    else s1

/-- WEIGHT_POISON: the first poison post to a row in each beat (R176). -/
def ergPoison (s : State) (p tag g n : Nat) : State :=
  if n = 0 ∨ s.onceBeat.contains (evCode .weightPoison, 4096 * p + tag) then s
  else
    raise { s with onceBeat := (evCode .weightPoison, 4096 * p + tag) :: s.onceBeat } .weightPoison (some p) 4
      (grainUnit g) [(12, tag), (21, coordOf g)]

/-- Apply a residual to its row (R172, R173). -/
def ergResid (s : State) (p tag v : Nat) : State :=
  let r := rErg p 0x24 tag
  let s1 := setRegF s r 15 0 v
  let s2 := if regF s1 r 31 16 < v then setRegF s1 r 31 16 v else s1
  let s3 := incReg s2 (rErg p 0x28 tag)
  let t := regF s3 (rErg p 0x30 tag) 15 0
  let st := rErg p 0x34 tag
  if t = 0xFFFF then s3
  else if v > t then
    if regBit s3 st 4 then ergRaise (setRegF s3 st 4 4 0) p tag 4 v
    else incRegF s3 st 31 16
  else if v ≤ 7 * t / 8 then setRegF s3 st 4 4 1
  else s3

/-- Apply a post to its partition's table (R168 to R176). -/
def ergApply (s : State) (q : ErgotPost) : State :=
  let s1 := ergPoison s q.part q.tag q.from_ q.counts.poison
  let s2 := [(ErgKind.sat, q.counts.sat), (.clamp, q.counts.clamp), (.nan, q.counts.nan), (.poison, q.counts.poison)].foldl
    (ergApplyKind q.part q.tag) s1
  match q.resid with
  | none => s2
  | some v => ergResid s2 q.part q.tag v

/-- The seeds of a grain's generators for a seed register value (R152). -/
def srSeeds (seed : Word) (g : Nat) : Vector (BitVec 16) 64 := Vector.ofFn (fun (i : Fin 64) => lfsrSeed seed (lfsrKey g i.val))

/-- A grain's generators (R151). -/
def gensAll (x : Grain) (g : Nat) : Vector (BitVec 16) 64 := x.lfsr.getD (srSeeds 0 g)

/-- The generators used by an operation on n elements: element i uses generator (64 ÷ n) × i (R151). -/
def srGen (x : Grain) (g n i : Nat) : Nat := ((gensAll x g).getD (64 / n * i) 1).toNat

/-- Advance the generator of every one of n elements one step (R149 to R151). -/
def srStep (x : Grain) (g n : Nat) : Grain :=
  { x with lfsr := some ((List.range n).foldl (fun v i => v.set! (64 / n * i) (lfsrStep (v.getD (64 / n * i) 1))) (gensAll x g)) }

/-- Seed every generator of a grain (R152). -/
def srSeed (s : State) (g : Nat) : State :=
  setGrain s g { grain s g with lfsr := some (srSeeds (reg s (rErg (grainPart s g) 4)) g) }

/-- ERGOT_POST_APPLY: the oldest post of a partition is applied (R168). -/
def applyPost (s : State) (p : Nat) : State :=
  match s.posts.find? (fun q => q.part == p) with
  | none => s
  | some q => ergApply { s with posts := s.posts.erase q } q

end Sys2Proof.Machine
end

