-- ==== Sys2Proof/Machine/MemIns.lean ====
section
/-!
DEFINITION. The meanings of the memory instructions on the own scratchpad or binder memory (R78, R225 to R228, R783).
-/
namespace Sys2Proof.Machine

/-- LW (R78). -/
def execLw (u : Issuer) (ecc : EccFinds) (s : State) : Out := .next (loadOp .lw 4 word u ecc s)
/-- LHU (R78). -/
def execLhu (u : Issuer) (ecc : EccFinds) (s : State) : Out := .next (loadOp .lhu 2 word u ecc s)
/-- LBU (R78). -/
def execLbu (u : Issuer) (ecc : EccFinds) (s : State) : Out := .next (loadOp .lbu 1 word u ecc s)
/-- LH: sign-extended (R78). -/
def execLh (u : Issuer) (ecc : EccFinds) (s : State) : Out := .next (loadOp .lh 2 (sext 16) u ecc s)
/-- LB: sign-extended (R78). -/
def execLb (u : Issuer) (ecc : EccFinds) (s : State) : Out := .next (loadOp .lb 1 (sext 8) u ecc s)
/-- SW (R78, R783). -/
def execSw (u : Issuer) (s : State) : Out := .next (storeOp .sw 4 u s)
/-- SH (R78, R783). -/
def execSh (u : Issuer) (s : State) : Out := .next (storeOp .sh 2 u s)
/-- SB (R78, R783). -/
def execSb (u : Issuer) (s : State) : Out := .next (storeOp .sb 1 u s)

/-- The address of VLD and VST: s[ra] + 16 × imm12, modulo 2^16, low 4 bits ignored (R78, R783). -/
def vecAddr (c : Core) (i : Ins) : Nat :=
  ((sGet c i.ra).toNat + ((BitVec.ofNat 12 i.imm).signExtend 32).toNat * 16) % 65536 / 16 * 16

/-- Offset of row k of an access from an offset, modulo 2^16 (R78). -/
def rowAt (a k : Nat) : Nat := (a + 16 * k) % 65536

/-- The first of some offsets that lies outside the scratchpad (R78). -/
def firstBad (l : List Nat) : Option Nat := l.find? (fun a => a ≥ spdSize)

/-- One ADDR_FAULT for an access with a faulting row or segment (R78). -/
def faultAny (s : State) (u : Issuer) (store : Bool) (offs : List Nat) : State :=
  match firstBad offs with
  | none => s
  | some a => localFault s u store a

/-- A list of values of one width, the first lowest. -/
def packAll (w : Nat) (l : List Nat) : Nat := packFields (l.map (fun v => (w, v)))

/-- Read pieces of n bytes at offsets: a piece outside the scratchpad reads as zero (R78). -/
def readPieces (x : Grain) (n : Nat) (offs : List Nat) : List Nat :=
  offs.map (fun a => if a ≥ spdSize then 0 else spdBytes x a n)

/-- Check the words of the pieces that lie in the scratchpad. -/
def checkPieces (fs : EccFinds) (g n : Nat) (offs : List Nat) (s : State) : State :=
  (offs.filter (fun a => a < spdSize)).foldl (fun s a => spdChecks fs 1 g a n s) s

/-- The four row offsets of VLD and VST (R225). -/
def fourRows (a : Nat) : List Nat := (List.range 4).map (rowAt a)

/-- VLD: 64 bytes from s[ra] + 16 × imm12 (R77, R78). -/
def execVld (u : Issuer) (ecc : EccFinds) (s : State) : Out :=
  .next (issue .vld u s (fun i s =>
    match u with
    | .binder _ => s
    | .grain g =>
      let offs := fourRows (vecAddr (core s u) i)
      let s1 := checkPieces ecc g 16 offs (faultAny s u false offs)
      let x := grain s1 g
      next1 (setGrain s1 g { x with v := x.v.set! i.rd (BitVec.ofNat 512 (packAll 128 (readPieces x 16 offs))) }) u))

/-- Write pieces of n bytes; a piece outside the scratchpad is not written (R78). -/
def writePieces (x : Grain) (n : Nat) (l : List (Nat × Nat)) : Grain :=
  spdPuts x n (l.filter (fun e => e.1 < spdSize))

/-- VST: 64 bytes of v[rd] (R77, R78, R783). -/
def execVst (u : Issuer) (s : State) : Out :=
  .next (issue .vst u s (fun i s =>
    match u with
    | .binder _ => s
    | .grain g =>
      let offs := fourRows (vecAddr (core s u) i)
      let s1 := faultAny s u true offs
      let x := grain s1 g
      let v := (x.v.getD i.rd 0).toNat
      let ps := offs.zipIdx.map (fun e => (e.1, v / 2 ^ (128 * e.2) % 2 ^ 128))
      next1 (setGrain s1 g (writePieces x 16 ps)) u))

/-- The segment size in bytes that a function selects (R226). -/
def segSize (fn : Nat) : Nat := if fn = 0 then 16 else if fn = 1 then 8 else if fn = 2 then 4 else 2

/-- The bank of a row (R224). -/
def bankOf (row : Nat) : Nat := row % 4 + 4 * parity 10 (row / 4)

/-- The offsets of the four segments (R226): address and stride bits below the segment size are ignored. -/
def segOffs (c : Core) (i : Ins) : List Nat :=
  let n := segSize i.fn
  let b := (sGet c i.ra).toNat % 65536 / n * n
  let d := (sGet c i.rb).toNat % 65536 / n * n
  (List.range 4).map (fun k => (b + k * d) % 65536)

/-- Segment k is lost when a lower segment lies on another row of its bank (R228); a faulting segment takes no bank. -/
def segLost (offs : List Nat) (k : Nat) : Bool :=
  let a := offs.getD k 0
  a < spdSize &&
  (match (offs.filter (fun b => b < spdSize && bankOf (b / 16) == bankOf (a / 16))).head? with
   | some b => b / 16 != a / 16
   | none => false)

/-- TLY_STATUS.STRIDE_CONFLICT (R228). -/
def strideFlag (s : State) (g : Nat) (offs : List Nat) : State :=
  if (List.range 4).any (segLost offs) then orReg s (rGrain g 2 0xA0) 1 else s

/-- VLDS: four segments packed low, zero for a segment lost or outside (R226, R228). -/
def execVlds (u : Issuer) (ecc : EccFinds) (s : State) : Out :=
  .next (issue .vlds u s (fun i s =>
    match u with
    | .binder _ => s
    | .grain g =>
      let n := segSize i.fn
      let offs := segOffs (core s u) i
      let s1 := strideFlag (faultAny s u false offs) g offs
      let live := offs.zipIdx.filter (fun e => !segLost offs e.2)
      let s2 := checkPieces ecc g n (live.map Prod.fst) s1
      let x := grain s2 g
      let vals := (readPieces x n offs).zipIdx.map (fun e => if segLost offs e.2 then 0 else e.1)
      next1 (setGrain s2 g { x with v := x.v.set! i.rd (BitVec.ofNat 512 (packAll (8 * n) vals)) }) u))

/-- VSTS: stores only the segments, and not those lost (R226, R228). -/
def execVsts (u : Issuer) (s : State) : Out :=
  .next (issue .vsts u s (fun i s =>
    match u with
    | .binder _ => s
    | .grain g =>
      let n := segSize i.fn
      let offs := segOffs (core s u) i
      let s1 := strideFlag (faultAny s u true offs) g offs
      let x := grain s1 g
      let v := (x.v.getD i.rd 0).toNat
      let ps := (offs.zipIdx.filter (fun e => !segLost offs e.2)).map
        (fun e => (e.1, v / 2 ^ (8 * n * e.2) % 2 ^ (8 * n)))
      next1 (setGrain s1 g (writePieces x n ps)) u))

/-- The transposed group of VLDT (R227): element (j, i) of the result is element (i, j) of the source, for n × n
elements of w bits. -/
def transpose (n w x : Nat) : Nat :=
  packAll w ((List.range (n * n)).map (fun k => x / 2 ^ (w * (n * (k % n) + k / n)) % 2 ^ w))

/-- A VLDT takes every bank slot of its cycle: while an MXU operation runs, it may defer a compute cycle, by a free choice
(R230, log 106). -/
def starve (g : Nat) (s : State) : State :=
  if (grain s g).mxuQ.any (fun o => o.begun) then
    let (d, s1) := draw s
    incReg s1 (rGrain g 2 0xB4) ((Config.freeByte d g).toNat % 2)
  else s

/-- VLDT: the aligned 128-byte group at s[ra], transposed into vd and vd + 1 (R225, R227). -/
def execVldt (u : Issuer) (ecc : EccFinds) (s : State) : Out :=
  .next (issue .vldt u s (fun i s =>
    match u with
    | .binder _ => s
    | .grain g =>
      let a := (sGet (core s u) i.ra).toNat % 65536 / 128 * 128
      let offs := (List.range 8).map (rowAt a)
      let s1 := starve g (checkPieces ecc g 16 offs (faultAny s u false offs))
      let x := grain s1 g
      let r := packAll 128 (readPieces x 16 offs)
      let t := if i.fn = 0 then transpose 8 16 r else transpose 16 4 r
      let v := (x.v.set! i.rd (BitVec.ofNat 512 t)).set! (i.rd + 1) (BitVec.ofNat 512 (t / 2 ^ 512))
      next1 (setGrain s1 g { x with v := v }) u))

end Sys2Proof.Machine
end

