-- ==== Sys2Proof/Machine/Vector.lean ====
section
/-!
DEFINITION. The vector instructions of a grain (R77, R786 to R788), the function tables (R164), the accumulator reads
(R199), quantise, dequantise and convert (R137 to R149), ERGRES (R172, R174) and the Riddle (R158, R159).
-/
namespace Sys2Proof.Machine

/-- The lanes of a vector, w bits each, lane 0 first. -/
def lanesOf (w : Nat) (v : BitVec 512) : List Nat := (List.range (512 / w)).map (fun k => v.toNat / 2 ^ (w * k) % 2 ^ w)

/-- A vector from its lanes. -/
def vecOf (w : Nat) (l : List Nat) : BitVec 512 := BitVec.ofNat 512 (packAll w l)

/-- v[i] of a grain. -/
def vGet (x : Grain) (i : Nat) : BitVec 512 := x.v.getD i 0
/-- v[i] := a. -/
def vSet (x : Grain) (i : Nat) (a : BitVec 512) : Grain := { x with v := x.v.set! i a }

/-- The floating format of an element type (R75). -/
def fmtOf (et : Nat) : Fmt := if et = 0 then fp32 else bf16

/-- A vector instruction: an effect on the grain. -/
def vecIns (op : Op) (u : Issuer) (s : State) (f : Ins → Grain → Grain) : Out := .next (grainIns op u s f)

/-- Lane-wise operation of one vector, by element type. -/
def vec1 (op : Op) (ff : Fmt → Nat → Nat) (fi : Nat → Nat → Nat) (u : Issuer) (s : State) : Out :=
  vecIns op u s (fun i x =>
    let w := etWidth i.imm
    let f := if etFloat i.imm then ff (fmtOf i.imm) else fi w
    vSet x i.rd (vecOf w ((lanesOf w (vGet x i.ra)).map f)))

/-- Lane-wise operation of two vectors, by element type. -/
def vec2 (op : Op) (ff : Fmt → Nat → Nat → Nat) (fi : Nat → Nat → Nat → Nat) (u : Issuer) (s : State) : Out :=
  vecIns op u s (fun i x =>
    let w := etWidth i.imm
    let f := if etFloat i.imm then ff (fmtOf i.imm) else fi w
    vSet x i.rd (vecOf w (List.zipWith f (lanesOf w (vGet x i.ra)) (lanesOf w (vGet x i.rb)))))

/-- Lane-wise operation of two vectors and the destination's old value, by element type. -/
def vec3 (op : Op) (ff : Fmt → Nat → Nat → Nat → Nat) (fi : Nat → Nat → Nat → Nat → Nat) (u : Issuer) (s : State) : Out :=
  vecIns op u s (fun i x =>
    let w := etWidth i.imm
    let f := if etFloat i.imm then ff (fmtOf i.imm) else fi w
    vSet x i.rd (vecOf w (List.zipWith (fun a (bc : Nat × Nat) => f a bc.1 bc.2) (lanesOf w (vGet x i.ra))
      (List.zip (lanesOf w (vGet x i.rb)) (lanesOf w (vGet x i.rd))))))

/-- A signed number as a lane of w bits, wrapping (R786). -/
def wrapLane (w : Nat) (z : Int) : Nat := (z % (2 ^ w : Nat)).toNat

/-- A lane-wise minimum or maximum (R786). -/
def minF (f : Fmt) (a b : Nat) : Nat := toBits f (minV (ofBits f a) (ofBits f b))
def maxF (f : Fmt) (a b : Nat) : Nat := toBits f (maxV (ofBits f a) (ofBits f b))
def minI (w a b : Nat) : Nat := if sgn w b < sgn w a then b else a
def maxI (w a b : Nat) : Nat := if sgn w a < sgn w b then b else a

/-- All ones or zero, for a comparison (R77). -/
def maskLane (w : Nat) (b : Bool) : Nat := if b then 2 ^ w - 1 else 0

/-- The lane width of a floating format. -/
def fmtW (f : Fmt) : Nat := 1 + f.eb + f.mb

/-- Equality of two values: zeros of either sign are equal, and a NaN equals nothing. -/
def eqV (a b : Val) : Bool := !isNan a && !isNan b && !ltV a b && !ltV b a

/-- VADD (R77, R133, R786). -/
def execVadd (u : Issuer) (s : State) : Out := vec2 .vadd fadd (fun w a b => (a + b) % 2 ^ w) u s
/-- VSUB (R77, R133, R786). -/
def execVsub (u : Issuer) (s : State) : Out :=
  vec2 .vsub (fun f a b => toBits f (addV (ofBits f a) (negV (ofBits f b)))) (fun w a b => wrapLane w ((a : Int) - b)) u s
/-- VMUL (R77, R133, R786). -/
def execVmul (u : Issuer) (s : State) : Out := vec2 .vmul fmul (fun w a b => a * b % 2 ^ w) u s
/-- VMIN (R786). -/
def execVmin (u : Issuer) (s : State) : Out := vec2 .vmin minF minI u s
/-- VMAX (R786). -/
def execVmax (u : Issuer) (s : State) : Out := vec2 .vmax maxF maxI u s
/-- VABS (R786). -/
def execVabs (u : Issuer) (s : State) : Out :=
  vec1 .vabs (fun f a => toBits f (absV (ofBits f a))) (fun w a => wrapLane w (sgn w a).natAbs) u s
/-- VNEG (R786). -/
def execVneg (u : Issuer) (s : State) : Out :=
  vec1 .vneg (fun f a => toBits f (negV (ofBits f a))) (fun w a => wrapLane w (-(a : Int))) u s
/-- VFMA: vd := va × vb + vd, one rounding (R77, R786; log 12). -/
def execVfma (u : Issuer) (s : State) : Out := vec3 .vfma ffma (fun w a b c => (a * b + c) % 2 ^ w) u s
/-- VAND: bit patterns (R77). -/
def execVand (u : Issuer) (s : State) : Out := vecIns .vand u s (fun i x => vSet x i.rd (vGet x i.ra &&& vGet x i.rb))
/-- VOR (R77). -/
def execVor (u : Issuer) (s : State) : Out := vecIns .vor u s (fun i x => vSet x i.rd (vGet x i.ra ||| vGet x i.rb))
/-- VXOR (R77). -/
def execVxor (u : Issuer) (s : State) : Out := vecIns .vxor u s (fun i x => vSet x i.rd (vGet x i.ra ^^^ vGet x i.rb))

/-- A lane shift: the amount in the same lane of vb, modulo the lane width (R786). -/
def vecShift (op : Op) (f : Nat → Nat → Nat → Nat) (u : Issuer) (s : State) : Out :=
  vec2 op (fun fm a b => f (fmtW fm) a (b % fmtW fm)) (fun w a b => f w a (b % w)) u s

/-- VSHL (R786). -/
def execVshl (u : Issuer) (s : State) : Out := vecShift .vshl (fun w a n => a * 2 ^ n % 2 ^ w) u s
/-- VSHR: logical (R786). -/
def execVshr (u : Issuer) (s : State) : Out := vecShift .vshr (fun _ a n => a / 2 ^ n) u s
/-- VSAR: arithmetic (R786). -/
def execVsar (u : Issuer) (s : State) : Out := vecShift .vsar (fun w a n => wrapLane w (sgn w a / 2 ^ n)) u s

/-- VCMPEQ (R77). -/
def execVcmpeq (u : Issuer) (s : State) : Out :=
  vec2 .vcmpeq (fun f a b => maskLane (fmtW f) (eqV (ofBits f a) (ofBits f b))) (fun w a b => maskLane w (a == b)) u s
/-- VCMPLT (R77). -/
def execVcmplt (u : Issuer) (s : State) : Out :=
  vec2 .vcmplt (fun f a b => maskLane (fmtW f) (ltV (ofBits f a) (ofBits f b)))
    (fun w a b => maskLane w (decide (sgn w a < sgn w b))) u s
/-- VCMPLE (R77). -/
def execVcmple (u : Issuer) (s : State) : Out :=
  vec2 .vcmple (fun f a b => maskLane (fmtW f) (ltV (ofBits f a) (ofBits f b) || eqV (ofBits f a) (ofBits f b)))
    (fun w a b => maskLane w (decide (sgn w a ≤ sgn w b))) u s
/-- VSEL: by the bit pattern of each lane of vd (R788). -/
def execVsel (u : Issuer) (s : State) : Out :=
  vec3 .vsel (fun _ a b c => if c ≠ 0 then a else b) (fun _ a b c => if c ≠ 0 then a else b) u s
/-- VEXP2 (R164). -/
def execVexp2 (u : Issuer) (s : State) : Out := vec1 .vexp2 (fun f a => fnBits f exp2V a) (fun _ a => a) u s
/-- VLOG2 (R164). -/
def execVlog2 (u : Issuer) (s : State) : Out := vec1 .vlog2 (fun f a => fnBits f log2V a) (fun _ a => a) u s
/-- VRCP (R164). -/
def execVrcp (u : Issuer) (s : State) : Out := vec1 .vrcp (fun f a => fnBits f rcpV a) (fun _ a => a) u s
/-- VRSQRT (R164). -/
def execVrsqrt (u : Issuer) (s : State) : Out := vec1 .vrsqrt (fun f a => fnBits f rsqrtV a) (fun _ a => a) u s

/-- A reduction: the result in lane 0 of vd and zero in every other lane (R787). -/
def vecRed (op : Op) (f : Nat → List Nat → Nat) (u : Issuer) (s : State) : Out :=
  vecIns op u s (fun i x => vSet x i.rd (BitVec.ofNat 512 (f i.imm (lanesOf (etWidth i.imm) (vGet x i.ra)))))

/-- The sum of R787 for an element type. -/
def redSum (et : Nat) (l : List Nat) : Nat :=
  if et = 0 then treeSum (fadd fp32) 4 l
  else if et = 1 then toBits bf16 (ofBits fp32 (treeSum (fadd fp32) 5 (l.map (fun a => toBits fp32 (ofBits bf16 a)))))
  else l.sum % 2 ^ etWidth et

/-- A minimum or maximum over lanes for an element type (R786). -/
def redBy (ff : Fmt → Nat → Nat → Nat) (fi : Nat → Nat → Nat → Nat) (et : Nat) (l : List Nat) : Nat :=
  let f := if etFloat et then ff (fmtOf et) else fi (etWidth et)
  match l with
  | [] => 0
  | a :: r => r.foldl f a

/-- VRSUM (R787). -/
def execVrsum (u : Issuer) (s : State) : Out := vecRed .vrsum redSum u s
/-- VRMAX (R786, R787). -/
def execVrmax (u : Issuer) (s : State) : Out := vecRed .vrmax (redBy maxF maxI) u s
/-- VRMIN (R786, R787). -/
def execVrmin (u : Issuer) (s : State) : Out := vecRed .vrmin (redBy minF minI) u s

/-- VBCST: the low w bits of s[va] in every lane (R788). -/
def execVbcst (u : Issuer) (s : State) : Out :=
  vecIns .vbcst u s (fun i x =>
    let w := etWidth i.imm
    vSet x i.rd (vecOf w (List.replicate (512 / w) ((sGet x.core i.ra).toNat % 2 ^ w))))

/-- The scalar a lane is extracted to (R788). -/
def extLane (et a : Nat) : Word := if et = 3 then sext 16 a else if et = 4 then sext 8 a else word a

/-- VEXT: lane s[vb] modulo the lane count into s[vd] (R788). -/
def execVext (u : Issuer) (s : State) : Out :=
  vecIns .vext u s (fun i x =>
    let w := etWidth i.imm
    let k := (sGet x.core i.rb).toNat % (512 / w)
    { x with core := sSet x.core i.rd (extLane i.imm ((lanesOf w (vGet x i.ra)).getD k 0)) })

/-- VPERM: lane j of vd is the lane of va that lane j of vb names, modulo the lane count (R77; log 14). -/
def execVperm (u : Issuer) (s : State) : Out :=
  vecIns .vperm u s (fun i x =>
    let w := etWidth i.imm
    let a := lanesOf w (vGet x i.ra)
    vSet x i.rd (vecOf w ((lanesOf w (vGet x i.rb)).map (fun k => a.getD (k % (512 / w)) 0))))

/-- A tile. -/
def tile (x : Grain) (t : Nat) : Tile := x.acc.getD t {}

/-- An element read out of a tile: its bits, and whether it saturated (R199). -/
def accElem (t : Tile) (et : Nat) (e : Word) : Nat × Bool :=
  if et = 2 ∨ t.ttype = 0 then (e.toNat, false)
  else if e = 0x80000000 then (0x7FC00000, false)
  else
    let v : Val := .num (decide (e.toInt < 0)) e.toInt.natAbs t.texp
    let big := !leMag e.toInt.natAbs t.texp (2 ^ 24 - 1) 104
    (if big then maxBits fp32 (decide (e.toInt < 0)) else toBits fp32 v, big)

/-- Four registers from vd, from 64 results of 32 bits (R199). -/
def set4 (x : Grain) (vd : Nat) (l : List Nat) : Grain :=
  (List.range 4).foldl (fun x k => vSet x (vd + k) (vecOf 32 ((l.drop (16 * k)).take 16))) x

/-- VACC and VACCZ (R199): the tile read out; saturations counted. -/
def vaccOp (op : Op) (clear : Bool) (u : Issuer) (s : State) : Out :=
  .next (issue op u s (fun i s =>
    match u with
    | .binder _ => s
    | .grain g =>
      let x := grain s g
      let t := tile x i.ra
      let r := t.elems.toList.map (accElem t i.imm)
      let x1 := set4 x i.rd (r.map Prod.fst)
      let x2 := if clear then { x1 with acc := x1.acc.set! i.ra { t with elems := Vector.replicate 64 0 } } else x1
      next1 (ergCount (setGrain s g x2) g .sat (r.filter Prod.snd).length) u))

/-- VACC (R199, R200). -/
def execVacc (u : Issuer) (s : State) : Out := vaccOp .vacc false u s
/-- VACCZ: as VACC, then the tile is cleared and keeps its type and E_t (R199). -/
def execVaccz (u : Issuer) (s : State) : Out := vaccOp .vaccz true u s

/-- The format control word in s[vb] (R137): tag, stochastic, scale given, scale. -/
def fcTag (w : Word) : Nat := bits w 21 10
def fcSr (w : Word) : Bool := bit w 9
def fcGiven (w : Word) : Bool := bit w 8
def fcScale (w : Word) : Nat := bits w 7 0

/-- What a conversion yields: results and the counts SAT, CLAMP, NAN and POISON. -/
structure Conv where
  out    : List Nat := []
  sat    : Nat := 0
  clamp  : Nat := 0
  nan    : Nat := 0
  poison : Nat := 0

/-- The NaN block of R140. -/
def nanBlock : Conv := { out := List.replicate 32 0 ++ [0xFF], nan := 1 }

/-- The magnitude of a value as m × 2^e. -/
def magV : Val → Nat × Int
  | .num _ m e => (m, e)
  | _ => (0, 0)

/-- The larger of two magnitudes. -/
def maxMag (a b : Nat × Int) : Nat × Int := if leMag a.1 a.2 b.1 b.2 then b else a

/-- The least integer x with amax ≤ maxf × 2^x (R140), for amax above 0. -/
def scaleExp (c : Nat) (a : Nat × Int) : Int :=
  let f := maxfV c
  let x0 := topExp a.1 a.2 - topExp f.1 f.2
  if leMag a.1 a.2 f.1 (f.2 + x0) then x0 else x0 + 1

/-- Elements scaled by 2^(−x) and rounded into a format, with saturation at maxf (R140 to R142, R147). -/
def quantElems (c : Nat) (x : Int) (gens : Option (List Nat)) (vs : List Val) : List (Nat × Bool) :=
  vs.zipIdx.map (fun e =>
    let (m, ex) := magV e.1
    let f := maxfV c
    let big := !leMag m (ex - x) f.1 f.2
    let k := if big then maxfCode c else elemRound c (gens.map (fun g => g.getD e.2 1)) m (ex - x)
    (signCode c (signV e.1) k, big))

/-- A block quantised at exponent x: codes and scale, SAT counted. -/
def quantAt (c : Nat) (x : Int) (gens : Option (List Nat)) (vs : List Val) : Conv :=
  let es := quantElems c x gens vs
  { out := es.map Prod.fst ++ [(x + 127).toNat], sat := (es.filter Prod.snd).length }

/-- VQNT of 32 values (R140, R141): 32 element codes, then the scale. -/
def quantBlock (c : Nat) (fc : Word) (gens : Option (List Nat)) (vs : List Val) : Conv :=
  let bad := vs.any (fun v => match v with | .num _ _ _ => false | _ => true)
  if bad ∨ (fcGiven fc ∧ fcScale fc = 0xFF) then nanBlock
  else if fcGiven fc then quantAt c (fcScale fc - 127) gens vs
  else
    let a := vs.foldl (fun a v => maxMag a (magV v)) (0, 0)
    if a.1 = 0 then { out := List.replicate 33 0 }
    else
      let x := scaleExp c a
      if x > 127 then { quantAt c 127 gens vs with clamp := 1 }
      else if x < -127 then { quantAt c (-127) gens vs with clamp := 1 }
      else quantAt c x gens vs

/-- The 32 source values of VQNT (R139). -/
def quantSrc (x : Grain) (i : Ins) : List Val :=
  if i.imm = 0 then (lanesOf 32 (vGet x i.ra) ++ lanesOf 32 (vGet x (i.ra + 1))).map (ofBits fp32)
  else (lanesOf 16 (vGet x i.ra)).map (ofBits bf16)

/-- The generator values of an operation on n elements, where stochastic rounding is selected. -/
def gensOf (x : Grain) (g : Nat) (sr : Bool) (n : Nat) : Option (List Nat) :=
  if sr then some ((List.range n).map (srGen x g n)) else none

/-- Counts of a conversion. -/
def countConv (s : State) (g : Nat) (c : Conv) : State := ergCounts s g c.sat c.clamp c.nan c.poison

/-- A conversion instruction: it sets the current tag, then takes effect (R138). -/
def convIns (op : Op) (u : Issuer) (s : State) (f : Ins → Word → Nat → Grain → Conv × Grain) : Out :=
  .next (issue op u s (fun i s =>
    match u with
    | .binder _ => s
    | .grain g =>
      let fc := sGet (core s u) i.rb
      let s1 := ergTag s g (fcTag fc)
      let (c, x) := f i fc g (grain s1 g)
      next1 (countConv (setGrain s1 g x) g c) u))

/-- Registers vd, vd + 1, … from results of w bits. -/
def setRegs (w : Nat) (x : Grain) (vd : Nat) : List Nat → Nat → Grain
  | _, 0 => x
  | l, n + 1 => setRegs w (vSet x vd (vecOf w (l.take (512 / w)))) (vd + 1) (l.drop (512 / w)) n

/-- VQNT (R139 to R142, R149). -/
def execVqnt (u : Issuer) (s : State) : Out :=
  convIns .vqnt u s (fun i fc g x =>
    let w := elemWidth (elemOf i.fn)
    let c := quantBlock i.fn fc (gensOf x g (fcSr fc) 32) (quantSrc x i)
    let r := packAll w (c.out.take 32) + 2 ^ 504 * c.out.getD 32 0
    let x1 := if fcSr fc then srStep x g 32 else x
    (c, vSet x1 i.rd (BitVec.ofNat 512 r)))

/-- One dequantised element (R144): its bits and its CLAMP and NAN counts. -/
def dequantElem (f : Fmt) (c scale code : Nat) : Nat × Nat × Nat :=
  match elemVal c code with
  | .poison => (canonNan f, 0, 0)
  | .v .nan => (canonNan f, 0, 1)
  | .v (.inf s) => (if scale = 0xFF then canonNan f else infBits f s, 0, 1)
  | .v (.num s m e) =>
    if scale = 0xFF then (canonNan f, 0, 0)
    else
      let e1 := e + scale - 127
      if leMag m e1 (2 ^ (f.mb + 1) - 1) (127 - f.mb) then (toBits f (.num s m e1), 0, 0)
      else (maxBits f s, 1, 0)

/-- VDQ of a register-form block (R144). -/
def dequantBlock (f : Fmt) (c : Nat) (b : BitVec 512) : Conv :=
  let w := elemWidth (elemOf c)
  let scale := b.toNat / 2 ^ 504
  let codes := (List.range 32).map (fun k => b.toNat / 2 ^ (w * k) % 2 ^ w)
  let es := codes.map (dequantElem f c scale)
  let poison := codes.any (fun k => elemVal c k == .poison)
  { out := if poison then List.replicate 32 (canonNan f) else es.map Prod.fst
    clamp := if poison then 0 else (es.map (fun e => e.2.1)).sum
    nan := (es.map (fun e => e.2.2)).sum + bnat (scale == 0xFF)
    poison := bnat poison }

/-- VDQ (R143, R144). -/
def execVdq (u : Issuer) (s : State) : Out :=
  convIns .vdq u s (fun i _ _ x =>
    let c := dequantBlock (fmtOf i.imm) i.fn (vGet x i.ra)
    (c, if i.imm = 0 then setRegs 32 x i.rd c.out 2 else setRegs 16 x i.rd c.out 1))

/-- A value rounded to a float with the out-of-range rule of VCVT (R146): bits, SAT, NAN. -/
def toFloat (f : Fmt) (r : Option Nat) (narrow : Bool) : Val → Nat × Nat × Nat
  | .nan => (canonNan f, 0, bnat narrow)
  | .inf s => (infBits f s, 0, bnat narrow)
  | .num s m e =>
    if m = 0 then (zeroBits f s, 0, 0)
    else if !leMag m e (2 ^ (f.mb + 1) - 1) (127 - f.mb) then (maxBits f s, 1, 0)
    else
      let (k, q) := roundMag f r m e
      (packMag f s k q (maxBits f s), 0, 0)

/-- A value rounded to a signed integer of w bits with saturation (R146): bits, SAT, NAN. -/
def toInt (w : Nat) (r : Option Nat) : Val → Nat × Nat × Nat
  | .nan => (0, 0, 1)
  | .inf s => (if s then 2 ^ (w - 1) else 2 ^ (w - 1) - 1, 1, 0)
  | .num s m e =>
    let lim := if s then 2 ^ (w - 1) else 2 ^ (w - 1) - 1
    if !leMag m e lim 0 then (lim, 1, 0)
    else
      let k := roundAt r m e 0
      (wrapLane w (if s then -(k : Int) else k), 0, 0)

/-- One element of VCVT from type a to type b (R146): bits, SAT, NAN. -/
def cvtElem (a b : Nat) (r : Option Nat) (x : Nat) : Nat × Nat × Nat :=
  let wa := etWidth a
  let wb := etWidth b
  if a = b then (x, 0, 0)
  else if etFloat a then
    let v := ofBits (fmtOf a) x
    if etFloat b then toFloat (fmtOf b) r (decide (wb < wa)) v else toInt wb r v
  else
    let q := sgn wa x
    if etFloat b then toFloat (fmtOf b) r false (.num (decide (q < 0)) q.natAbs 0)
    else toInt wb none (.num (decide (q < 0)) q.natAbs 0)

/-- The elements VCVT converts: the larger lane count of the two types, or the common one (R145). -/
def cvtCount (a b : Nat) : Nat := 512 / min (etWidth a) (etWidth b)

/-- VCVT uses stochastic rounding for conversions with a floating side; a copy of a floating type steps its generators too, though it
rounds nothing (R137, R146, R149). -/
def cvtSr (fc : Word) (a b : Nat) : Bool := fcSr fc && (etFloat a || etFloat b)

/-- VCVT (R145, R146, R149). -/
def execVcvt (u : Issuer) (s : State) : Out :=
  convIns .vcvt u s (fun i fc g x =>
    let a := i.imm
    let b := i.fn
    let n := cvtCount a b
    let src := if etWidth b < etWidth a then lanesOf (etWidth a) (vGet x i.ra) ++ lanesOf (etWidth a) (vGet x (i.ra + 1))
      else lanesOf (etWidth a) (vGet x i.ra)
    let sr := cvtSr fc a b
    let es := src.zipIdx.map (fun e => cvtElem a b (if sr then some (srGen x g n e.2) else none) e.1)
    let x1 := if sr then srStep x g n else x
    ({ sat := (es.map (fun e => e.2.1)).sum, nan := (es.map (fun e => e.2.2)).sum },
     setRegs (etWidth b) x1 i.rd (es.map Prod.fst) (if etWidth a < etWidth b then 2 else 1)))

/-- A residual figure in units of 2^−16, to nearest even, limited to 0xFFFF (R172); none for a negative value, whose
figure the spec does not state. -/
def residFig (v : Val) : Option Nat :=
  match v with
  | .nan => some 0xFFFF
  | .inf s => if s then none else some 0xFFFF
  | .num s m e => if m = 0 then some 0 else if s then none else some (min (roundAt none m e (-16)) 0xFFFF)

/-- ERGRES: posts lane 0 of va as a residual to the row of TAG (R172, R174); a NaN counts NAN. -/
def execErgres (u : Issuer) (s : State) : Out :=
  .next (issue .ergres u s (fun i s =>
    match u with
    | .binder _ => s
    | .grain g =>
      let v := ofBits fp32 ((vGet (grain s g) i.ra).toNat % 2 ^ 32)
      let s1 := if isNan v then ergCount s g .nan 1 else s
      let (fig, s2) := match residFig v with
        | some k => (k, s1)
        | none => (bits (Config.freeWord s1.fresh) 15 0, { s1 with fresh := s1.fresh + 1 })
      next1 { s2 with posts := s2.posts ++ [⟨g, grainPart s g, fcTag (sGet (core s u) i.rb), {}, some fig⟩] } u))

/-- One xorshift step of the Riddle's signs (R159). -/
def riddleStep (w : Word) : Word :=
  let w := w ^^^ (w <<< 13)
  let w := w ^^^ (w >>> 17)
  w ^^^ (w <<< 5)

/-- The sign words of the Riddle, one for each 32 elements (R159). -/
def riddleSigns : Nat → Word → List Word
  | 0, _ => []
  | n + 1, w => let w1 := riddleStep w; w1 :: riddleSigns n w1

/-- The butterfly stages of the Riddle from stage s on (R159). -/
def riddleStages (a : List Nat) (s : Nat) : Nat → List Nat
  | 0 => a
  | n + 1 =>
    let neg := fun x => toBits fp32 (negV (ofBits fp32 x))
    let b := (List.range a.length).map (fun i =>
      if i / 2 ^ s % 2 = 0 then fadd fp32 (a.getD i 0) (a.getD (i + 2 ^ s) 0)
      else fadd fp32 (a.getD (i - 2 ^ s) 0) (neg (a.getD i 0)))
    riddleStages b (s + 1) n

/-- The constant c_n for function code k (R159). -/
def riddleC (k : Nat) : Nat :=
  match k with
  | 0 => 0x3E3504F3
  | 1 => 0x3E000000
  | 2 => 0x3DB504F3
  | _ => 0x3D800000

/-- The Riddle over 32 × 2^k BF16 elements (R159). -/
def riddle (k : Nat) (seed : Word) (xs : List Nat) : List Nat :=
  let ws := riddleSigns (2 ^ k) (if seed = 0 then 0x2545F491 else seed)
  let a := xs.zipIdx.map (fun e =>
    let v := ofBits bf16 e.1
    toBits fp32 (if bit (ws.getD (e.2 / 32) 0) (e.2 % 32) then negV v else v))
  (riddleStages a 0 (5 + k)).map (fun x => toBits bf16 (ofBits fp32 (fmul fp32 x (riddleC k))))

/-- VRDL (R158, R159). -/
def execVrdl (u : Issuer) (s : State) : Out :=
  vecIns .vrdl u s (fun i x =>
    let n := 2 ^ i.fn
    let xs := (List.range n).flatMap (fun k => lanesOf 16 (vGet x (i.rd + k)))
    setRegs 16 x i.rd (riddle i.fn (sGet x.core i.ra) xs) n)

end Sys2Proof.Machine
end

