-- ==== Sys2Proof/Machine/Ear.lean ====
section
/-!
DEFINITION. The ear reduction tree (R103 to R108), ear power (R109 to R111), and what a reset of a grain does to it
(R62, R65, R152, R169, R245, R730).
-/
namespace Sys2Proof.Machine

/-! ### The tree -/

/-- The vector a participant supplies (R104); a barrier reads no register, and keeps what a mismatch would give it by its element
type (R105, R107). -/
def earVec (fn : EarFn) (i : Ins) (x : Grain) : BitVec 512 :=
  match fn with
  | .bar => earNan (if i.imm = 2 then .isum else .sum)
  | _ => vGet x i.ra

/-- Issue of an ear instruction (R103, R104): a grain that takes no part completes it at once; a participant waits. -/
def earIssue (op : Op) (fn : EarFn) (u : Issuer) (s : State) : Out :=
  .next (issue op u s (fun i s =>
    match u with
    | .binder _ => s
    | .grain g =>
      let x := grain s g
      if (participants s (earOfGrain g)).contains g.val then
        setGrain s g { x with core := { x.core with state := .waitEar, wait := .ear fn (earVec fn i x) i.rd } }
      else next1 (setFault s u (2 ^ 7) x.core.pc) u))

/-- EARSUM (R103 to R106). -/
def execEarsum (u : Issuer) (s : State) : Out := earIssue .earsum .sum u s
/-- EARMAX (R103 to R105). -/
def execEarmax (u : Issuer) (s : State) : Out := earIssue .earmax .max u s
/-- EARMIN (R103 to R105). -/
def execEarmin (u : Issuer) (s : State) : Out := earIssue .earmin .min u s
/-- EARISUM (R103 to R105). -/
def execEarisum (u : Issuer) (s : State) : Out := earIssue .earisum .isum u s
/-- EARBAR (R103 to R105). -/
def execEarbar (u : Issuer) (s : State) : Out := earIssue .earbar .bar u s

/-- The lane operation of an ear function (R105, R106, R786). -/
def earLane (fn : EarFn) (a b : Nat) : Nat :=
  match fn with
  | .sum => fadd fp32 a b
  | .max => maxF fp32 a b
  | .min => minF fp32 a b
  | .isum => (a + b) % 2 ^ 32
  | .bar => a

/-- Two sides of a tree node; a side without a participant is left out (log 19). -/
def earJoin (fn : EarFn) (a b : Option (BitVec 512)) : Option (BitVec 512) :=
  match a, b with
  | some v, some w => some (vecOf 32 (List.zipWith (earLane fn) (lanesOf 32 v) (lanesOf 32 w)))
  | some v, none => some v
  | none, b => b

/-- A lane as an ear function gives it: floating results have no subnormals and the canonical NaN, those of a lone participant with
them (R133, R134, R786). -/
def earOut (fn : EarFn) (a : Nat) : Nat :=
  match fn with
  | .sum | .max | .min => toBits fp32 (ofBits fp32 a)
  | .isum | .bar => a

/-- The tree of R106 over the 16 grains of an ear. -/
def earTree (fn : EarFn) (v : Nat → Option (BitVec 512)) : Option (BitVec 512) :=
  let row := fun r => earJoin fn (earJoin fn (v (4 * r)) (v (4 * r + 1))) (earJoin fn (v (4 * r + 2)) (v (4 * r + 3)))
  (earJoin fn (earJoin fn (row 0) (row 1)) (earJoin fn (row 2) (row 3))).map (fun r => vecOf 32 ((lanesOf 32 r).map (earOut fn)))

/-- The ear instruction a grain waits in. -/
def earWait (x : Grain) : Option (EarFn × BitVec 512 × Nat) :=
  match x.core.wait with
  | .ear fn v vd => some (fn, v, vd)
  | _ => none

/-- One participant ends its ear instruction with a vector; a barrier that matches leaves vd unchanged (R105). -/
def earFinish (val : Option (BitVec 512)) (s : State) (g : Nat) : State :=
  let x := grain s g
  match earWait x with
  | none => s
  | some (_, _, vd) =>
    let c := { advance x.core 1 with state := .running, wait := .none }
    setGrain s g { x with core := c, v := match val with | some v => x.v.set! vd v | none => x.v }

/-- The instructions the participants wait in, when all of them wait. -/
def earAll (s : State) (ps : List Nat) : Option (List (Nat × EarFn × BitVec 512 × Nat)) :=
  ps.mapM (fun g => (earWait (grain s g)).map (fun w => (g, w)))

/-- EAR_OP_COMPLETE: every participant has issued; all receive the result (R104), or the NaN of R107 when the functions
differ. A grain whose mask bit is cleared while it waits is no participant of the match, and waits on (R103, log 113). -/
def execEarOpComplete (e : EarId) (s : State) : Out :=
  .next (match earAll s (participants s e) with
    | none | some [] => s
    | some (w :: ws) =>
      let fn := w.2.1
      let ps := (w :: ws).map Prod.fst
      if ws.all (fun q => q.2.1 == fn) then
        let vec := fun k => ((w :: ws).find? (fun q => q.1 == 16 * e.val + k)).map (fun q => q.2.2.1)
        let r := match fn with | .bar => none | _ => earTree fn vec
        ps.foldl (earFinish r) s
      else
        ps.foldl (fun s g =>
          let v := match earWait (grain s g) with
            | some (.bar, v, _) => v
            | some (f, _, _) => earNan f
            | none => 0
          earFinish (some v) (setFault s (ug g) (2 ^ 7) (grain s g).core.pc) g) s)

/-! ### Reset of a grain -/

/-- Code words from a word on are unpredictable (R26, R65). -/
def loseCode (m : Mem) (w d : Nat) : Mem :=
  (List.range (4 * (1024 - w))).foldl (fun m k => memWrite m (4 * w + k) (Config.freeByte d (4 * w + k))) m

/-- A grain takes its reset values (R58, R62, R65, R138, R152, R169, R196, R236, R245, R730); code store and scratchpad
are kept. -/
def grainReset (s : State) (g : Nat) : State :=
  let x := grain s g
  let s1 := if x.ergot = {} then s else incReg s (rErg (grainPart s g) 0x38)
  let (d, s2) := draw s1
  let code := match x.copy with | some k => loseCode x.code k.dst d | none => x.code
  let s3 := { s2 with reqs := s2.reqs.filter (fun q => reqPort q.who != .grain g) }
  let s4 := setGrain s3 g { core := { cycle0 := s.cycle }, code := code, mem := x.mem, poison := x.poison, told := x.told }
  let s5 := resetRegs s4 (fun k => keyScope k == 4 && keyUnit k == grainUnit g && (keyBlk k == 1 || keyBlk k == 2))
  srSeed s5 g

/-- A grain's code store and scratchpad become unpredictable (R26, R109, R730). -/
def grainLose (s : State) (g : Nat) : State :=
  let (d, s1) := draw s
  setGrain s1 g { grain s1 g with code := memLose d, mem := memLose d, poison := [], told := [] }

/-! ### Drain mode of a grain's port -/

/-- A packet a draining grain had accepted and not answered (R314): a write gets GONE, in a tree as that leaf's answer;
a response that had arrived is dropped (R315). -/
def owedGone (g : Nat) (s : State) (f : Flight) : State :=
  if f.pkt.type = .readData then orphan s g
  else if f.pkt.mc then mergeAdd (incReg s (rGrain g 3 0x00C)) g f.pkt.tag.toNat 4 ⟨4, f.pkt.src, f.pkt.epoch, f.pkt.part⟩
  else sendGone s g (.grain g) f.pkt

/-- A remote credit request that waits in a window of a draining grain gets GONE (R252, R314). -/
def owedCredit (g : Nat) (s : State) (w : Nat) : State :=
  let x := window s g w
  let rem := x.queue.filterMap (fun e => match e.2 with | .remote p => some p | .own _ => none)
  let own := x.queue.filter (fun e => match e.2 with | .remote _ => false | .own _ => true)
  rem.foldl (fun s p => sendGone s g (.grain g) p) (setWindow s g w { x with queue := own })

/-- The local port of a grain enters drain mode (R312, R314). -/
def fenceGrain (s : State) (g : Nat) : State :=
  let s1 := setRegF s (rGrain g 3 0) 31 31 1
  let x := grain s1 g
  let fs := x.wb.map (fun e => e.flight) ++ x.arriving
  let s2 := fs.foldl (owedGone g) (setGrain s1 g { x with wb := [], arriving := [] })
  [0, 1, 2, 3].foldl (owedCredit g) s2

/-- The local port of a grain leaves drain mode. -/
def unfenceGrain (s : State) (g : Nat) : State := setRegF s (rGrain g 3 0) 31 31 0

/-- Send an abandon notice for sheaves of a partition (R242). -/
def sendNotice (s : State) (p : Nat) (shs : List Nat) : State := { s with notices := s.notices ++ [(p, shs)] }

/-! ### Ear power -/

/-- The grains of an ear. -/
def earGrains (e : Nat) : List Nat := (List.range 16).map (fun k => 16 * e + k)

/-- Replace an ear's power record. -/
def setEar (s : State) (e : Nat) (x : EarPw) : State := { s with ears := mapSet {} s.ears e x }

/-- The power state a code requests (R109). -/
def powerCode (n : Nat) : EarPower := if n = 0 then .on else if n = 1 then .retain else .off

/-- EAR_POWER_WRITE: a write of GRN_EAR_POWER; a field of 0b11 leaves that ear's request unchanged (R109, R110). -/
def execEarPowerWrite (ini : Initiator) (sh : SheafId) (value : Word) (s : State) : Out :=
  .next (regCommand ini (rSheaf sh 1 0x18) s (fun s =>
    (List.range 16).foldl (fun s n =>
      let f := bits value (2 * n + 1) (2 * n)
      if f = 3 then s else setRegF s (rSheaf sh 1 0x18) (2 * n + 1) (2 * n) f) s))

/-- An ear leaves ON (R109, R111, R218, R242, R312): its grains leave RUNNING, their operations are abandoned and their
state is lost, their ports drain, and the notice is sent. -/
def earDown (s : State) (e : Nat) : State :=
  let gs := earGrains e
  let held := (packFields (gs.map (fun g => (1, bnat (fenced s g)))))
  let s1 := gs.foldl (fun s g => leave (setCore s (ug g) { core s (ug g) with state := .halted, wait := .none }) (ug g)) s
  let s2 := gs.foldl fenceGrain s1
  let s3 := gs.foldl grainReset s2
  let s4 := setEar s3 e { ear s3 e with fences := held }
  match sheafOwner s (e / 16) with
  | some p => sendNotice s4 p [e / 16]
  | none => s4

/-- At a beat an ear whose requested state differs begins its transition (R110). -/
def earApply (s : State) (e : Nat) : State :=
  let x := ear s e
  let want := powerCode (regF s (rSheaf (e / 16) 1 0x18) (2 * (e % 16) + 1) (2 * (e % 16)))
  if x.goal.isSome ∨ x.now = want then s
  else
    let s1 := if x.now = .on then earDown s e else s
    let y := ear s1 e
    setEar s1 e { y with goal := some want, lost := if want = .off then .off else if y.lost = .on then want else y.lost }

/-- The ears a beat may move: those of sheaves whose power register is written, and those not in their reset state. -/
def earsTouched (s : State) : List Nat :=
  (s.regs.filterMap (fun e =>
      if keyScope e.1 == 3 && keyBlk e.1 == 1 && keyOff e.1 == 0x18 then some (sheafOfUnit (keyUnit e.1)) else none)).flatMap
    (fun sh => (List.range 16).map (fun n => 16 * sh + n)) ++ s.ears.map Prod.fst

/-- EAR_POWER_APPLY at a beat boundary (R110). -/
def earPowerBeat (s : State) : State := (earsTouched s).eraseDups.foldl earApply s

/-- An ear is back ON (R109, R111): its grains take their reset values, and after OFF their memories are
unpredictable; their ports have the fences they had before (log 18). -/
def earUp (s : State) (e : Nat) : State :=
  let x := ear s e
  let gs := earGrains e
  let s1 := if x.lost = .off then gs.foldl grainLose s else s
  let s2 := gs.foldl grainReset s1
  let s3 := gs.foldl (fun s g => if nbits x.fences (g % 16) (g % 16) = 1 then s else unfenceGrain s g) s2
  setEar s3 e {}

/-- EAR_POWER_SETTLED: the transition of an ear ends (R110). -/
def execEarPowerSettled (e : EarId) (s : State) : Out :=
  .next (
    let x := ear s e
    match x.goal with
    | none => s
    | some .on => earUp s e
    | some p => setEar s e { x with now := p, goal := none })

end Sys2Proof.Machine
end

