-- ==== Sys2Proof/Machine/Mxu.lean ====
section
/-!
DEFINITION. The matrix unit (R188 to R222): placing an operation, starting it, and its result at completion.
-/
namespace Sys2Proof.Machine

/-! ### The fields of an operation (R189, R192) -/

/-- Rows, columns and column groups of a shape (R189). -/
def opM (o : MxuOp) : Nat := 8 / 2 ^ mxuShape o.imm
def opN (o : MxuOp) : Nat := 8 * 2 ^ mxuShape o.imm
def opG (o : MxuOp) : Nat := if mxuShape o.imm = 3 then 2 else 1
/-- Blocks along the reduction dimension. -/
def opNb (o : MxuOp) : Nat := nbits o.w1 16 10 + 1
/-- The tile exponent (R192). -/
def opTexp (o : MxuOp) : Int := sgn 8 (nbits o.w1 9 2)
/-- Block stride of the activations (R190). -/
def opA (o : MxuOp) : Nat := if bits o.sa 15 0 = 0 then opNb o else bits o.sa 15 0
/-- True for a row left out (R212). -/
def rowOut (o : MxuOp) (m : Nat) : Bool := bit o.sa (16 + m)
/-- The rows an operation accumulates. -/
def rowsIn (o : MxuOp) : List Nat := (List.range (opM o)).filter (fun m => !rowOut o m)
/-- 2:4 weights, and a block map (R192). -/
def is24 (o : MxuOp) : Bool := mxuSparse o.imm % 2 == 1
def hasMap (o : MxuOp) : Bool := mxuSparse o.imm ≥ 2
/-- Accumulator type: 1 INT32, 0 FP32 (R194). -/
def opInt (o : MxuOp) : Nat := bnat (mxuInt o.imm)
/-- A plane base: its low 4 bits are ignored (R191). -/
def plane (w : Word) (hi : Bool) : Nat := (if hi then bits w 31 16 else bits w 15 0) / 16 * 16

/-- Element bytes of a block (R127, R190). -/
def blkBytes (c : Nat) : Nat := if c = 8 then 64 else 4 * elemWidth (elemOf c)
/-- Element width in bits. -/
def fmtBits (c : Nat) : Nat := if c = 8 then 16 else elemWidth (elemOf c)

/-! ### Operand reads (R190, R191, R217, R261) -/

/-- One operand byte: zero outside the scratchpad (R191). -/
def opByte (x : Grain) (a : Nat) : Nat := if a % 65536 ≥ spdSize then 0 else (memRead x.mem (a % 65536)).toNat

/-- n operand bytes from an address, little-endian. -/
def opBytes (x : Grain) (a : Nat) : Nat → Nat
  | 0 => 0
  | n + 1 => opByte x a + 256 * opBytes x (a + 1) n

/-- True when a range of operand bytes meets a poisoned word (R261). -/
def opPoison (x : Grain) (a n : Nat) : Bool := (List.range n).any (fun k => x.poison.contains ((a + k) % 65536 / 8))

/-- A decoded operand block: its 32 values (none where 2:4 pruned one), its scale as a power of two, whether it makes
NaN what it contributes to, the Ergot counts it makes, the malformed index word, and the byte ranges read for it. -/
structure Blk where
  vals   : List (Option Val) := []
  exp    : Int := 0
  bad    : Bool := false
  nan    : Nat := 0
  poison : Nat := 0
  clamp  : Nat := 0
  index  : Option Nat := none
  reads  : List (Nat × Nat) := []

/-- The value of an element code in any operand format. -/
def opVal (c k : Nat) : Val :=
  if c = 8 then ofBits bf16 k
  else match elemVal c k with
    | .v v => v
    | .poison => .nan

/-- Activation block (m, j) (R190). -/
def actBlk (x : Grain) (o : MxuOp) (m j : Nat) : Blk :=
  let c := mxuA o.imm
  let i := m * opA o + j
  let a := plane o.sx false + i * blkBytes c
  let e := opBytes x a (blkBytes c)
  let w := fmtBits c
  let vs := (List.range 32).map (fun k => some (opVal c (e / 2 ^ (w * k) % 2 ^ w)))
  if c = 8 then
    let p := opPoison x a 64
    { vals := vs, bad := p, nan := bnat p, reads := [(a, 64)] }
  else
    let sa := plane o.sx true + i
    let sc := opByte x sa
    let p := opPoison x a (blkBytes c) || opPoison x sa 1 || sc == 0xFF
    { vals := vs, exp := (sc : Int) - 127, bad := p, nan := bnat p, reads := [(a, blkBytes c), (sa, 1)] }

/-- True when a value is zero. -/
def zeroEl : Option Val → Bool
  | some v => isZero v
  | none => true

/-- The activation blocks of a step are all zero (R208). -/
def stepZero (acts : List Blk) : Bool := acts.all (fun b => !b.bad && b.vals.all zeroEl)

/-- Bit of the block map for a step and column group (R207). -/
def present (x : Grain) (o : MxuOp) (j g : Nat) : Bool :=
  !hasMap o ||
    (let k := j * opG o + g
     opByte x (plane o.sm true + k / 8) / 2 ^ (k % 8) % 2 == 1)

/-- Present column groups of a step (R213). -/
def presentN (x : Grain) (o : MxuOp) (j : Nat) : Nat := ((List.range (opG o)).filter (present x o j)).length

/-- Columns of a column group (R207). -/
def groupCols (o : MxuOp) : Nat := opN o / opG o

/-- The index of weight block (j, n) among the present blocks (R190, R207). -/
def wIndex (x : Grain) (o : MxuOp) (j n : Nat) : Nat :=
  let g := n / groupCols o
  ((List.range j).map (fun i => presentN x o i * groupCols o)).sum +
    ((List.range g).filter (present x o j)).length * groupCols o + n % groupCols o

/-- The 2:4 index word's positions: for stored element k, its place in the block (R205). -/
def place24 (iw k : Nat) : Nat := 4 * (k / 2) + (iw / 2 ^ (2 * k)) % 4

/-- True for an index word with a malformed nibble (R206). -/
def malformed (iw : Nat) : Bool := (List.range 8).any (fun g => iw / 2 ^ (4 * g) % 4 ≥ iw / 2 ^ (4 * g + 2) % 4)

/-- Element codes by place in the block: 32 codes, none where pruned (R205). -/
def wCodes (o : MxuOp) (iw e w : Nat) : List (Option Nat) :=
  if is24 o then
    (List.range 32).map (fun p => ((List.range 16).find? (fun k => place24 iw k == p)).map (fun k => e / 2 ^ (w * k) % 2 ^ w))
  else (List.range 32).map (fun k => some (e / 2 ^ (w * k) % 2 ^ w))

/-- Weight block (j, n) (R190, R205, R206); in ordered mode its weights dequantised to BF16, pruned ones zero (R215). -/
def wBlk (x : Grain) (o : MxuOp) (j n : Nat) : Blk :=
  let c := mxuW o.imm
  let i := wIndex x o j n
  let len := if is24 o then blkBytes c / 2 else blkBytes c
  let a := plane o.sw false + i * len
  let ia := plane o.sm false + 4 * i
  let iw := if is24 o then opBytes x ia 4 else 0
  let ir := if is24 o then [(ia, 4)] else []
  let ip := is24 o && opPoison x ia 4
  if is24 o && malformed iw && !ip then { bad := true, index := some (ia % 65536), reads := ir }
  else
    let sa := plane o.sw true + i
    let sc := if c = 8 then 127 else opByte x sa
    let w := fmtBits c
    let cs := wCodes o iw (opBytes x a len) w
    let ff := ip || opPoison x a len || (c != 8 && (opPoison x sa 1 || sc == 0xFF))
    let t2 := c == 7 && cs.any (fun k => k == some 2)
    let rs := ir ++ [(a, len)] ++ (if c = 8 then [] else [(sa, 1)])
    if mxuOrd o.imm then
      let dq := cs.map (fun k => match k with
        | none => (0, 0, 0)
        | some k => if c = 8 then (k, 0, 0) else dequantElem bf16 c (if ff then 0xFF else sc) k)
      { vals := dq.map (fun d => some (ofBits bf16 d.1)), bad := ff || t2, nan := bnat ff + (dq.map (fun d => d.2.2)).sum
        poison := bnat t2, clamp := (dq.map (fun d => d.2.1)).sum, reads := rs }
    else
      { vals := cs.map (fun k => k.map (opVal c)), exp := (sc : Int) - 127, bad := ff || t2, nan := bnat ff
        poison := bnat t2, reads := rs }

/-! ### Arithmetic (R153 to R156, R215) -/

/-- The exact sum of the products of two blocks' values, those kept (R153). A weight that 2:4 prunes forms no product, so that an
activation there, NaN and infinity with it, has no effect; only ordered mode forms zero weights there (R205, R215, log 107). -/
def blockSum (a w : Blk) : Val :=
  let ps := (List.zip a.vals w.vals).filterMap (fun e => match e.1, e.2 with
    | some x, some y => some (mulV x y)
    | _, _ => none)
  match ps with
  | [] => .num false 0 0
  | p :: r => r.foldl addV p

/-- A value times a power of two. -/
def scaleV (v : Val) (d : Int) : Val :=
  match v with
  | .num s m e => .num s m (e + d)
  | v => v

/-- Add a scaled block sum to an FP32 element (R154, R156). -/
def accFp (acc : Nat) (v : Val) : Nat := fadd fp32 acc (toBits fp32 v)

/-- Add a scaled block sum to an INT32 element in units of 2^E_t, with saturation: the element, and 1 when it saturates
(R155, R156). -/
def accInt (acc : Nat) (texp : Int) (v : Val) : Nat × Nat :=
  if acc = 0x80000000 then (acc, 0)
  else
    match v with
    | .num s m e =>
      let k : Int := roundAt none m e texp
      let z := sgn 32 acc + (if s then -k else k)
      if z > 2 ^ 31 - 1 then (2 ^ 31 - 1, 1)
      else if z < -(2 ^ 31 - 1) then (2 ^ 31 + 1, 1)
      else (wrapLane 32 z, 0)
    | _ => (0x80000000, 0)

/-- The NaN of an accumulator type (R134, R156). -/
def accNan (int : Nat) : Nat := if int = 1 then 0x80000000 else 0x7FC00000

/-- One contribution to an element: the element, and 1 for a saturation (R153 to R156). -/
def accStep (o : MxuOp) (a w : Blk) (acc : Nat) : Nat × Nat :=
  if a.bad || w.bad then (accNan (opInt o), 0)
  else if mxuOrd o.imm then
    let ps := (List.zip a.vals w.vals).map (fun e =>
      toBits fp32 (mulV (e.1.getD (.num false 0 0)) (e.2.getD (.num false 0 0))))
    (fadd fp32 acc (treeSum (fadd fp32) 5 ps), 0)
  else
    let v := scaleV (blockSum a w) (a.exp + w.exp)
    if opInt o = 1 then accInt acc (opTexp o) v else (accFp acc v, 0)

/-- What an operation has gathered: elements, Ergot counts, the first malformed index word, cost (R213), ranges read. -/
structure MxuRun where
  elems   : List Nat
  sat     : Nat := 0
  nan     : Nat := 0
  poison  : Nat := 0
  clamp   : Nat := 0
  index   : Option Nat := none
  work    : Nat := 0
  skipped : Nat := 0
  reads   : List (Nat × Nat) := []

/-- The weight blocks of a step, by column: none in an absent group (R207); in ordered mode an absent block is zeros
(R215). -/
def stepWeights (x : Grain) (o : MxuOp) (j : Nat) : List (Option Blk) :=
  (List.range (opN o)).map (fun n =>
    if present x o j (n / groupCols o) then some (wBlk x o j n)
    else if mxuOrd o.imm then some { vals := List.replicate 32 (some (.num false 0 0)) }
    else none)

/-- One step computed (R188): every element of a row not left out and of a column present. -/
def stepRun (x : Grain) (o : MxuOp) (acts : List (Nat × Blk)) (j : Nat) (r : MxuRun) : MxuRun :=
  let ws := stepWeights x o j
  let es := r.elems.zipIdx.map (fun e =>
    let m := e.2 / opN o
    match acts.find? (fun b => b.1 == m), ws.getD (e.2 % opN o) none with
    | some (_, a), some w => accStep o a w e.1
    | _, _ => (e.1, 0))
  let bs := acts.map Prod.snd ++ ws.filterMap id
  { r with
    elems := es.map Prod.fst
    sat := r.sat + (es.map Prod.snd).sum
    nan := r.nan + (bs.map (fun b => b.nan)).sum
    poison := r.poison + (bs.map (fun b => b.poison)).sum
    clamp := r.clamp + (bs.map (fun b => b.clamp)).sum
    index := match r.index with | some a => some a | none => (bs.filterMap (fun b => b.index)).head?
    work := r.work + 2048 * presentN x o j / (opG o * (if is24 o then 2 else 1))
    reads := r.reads ++ bs.flatMap (fun b => b.reads) }

/-- A step is skipped: by the map, or by zero activations (R207, R208). -/
def stepSkips (x : Grain) (o : MxuOp) (j : Nat) : Bool :=
  presentN x o j == 0 || (mxuAskip o.imm && stepZero ((rowsIn o).map (fun m => actBlk x o m j)))

/-- One step: skipped by the map or by zero activations, or computed (R207, R208, R213, R215). -/
def mxuStep (x : Grain) (o : MxuOp) (r0 : MxuRun) (j : Nat) : MxuRun :=
  let mapReads := if hasMap o then [(plane o.sm true + j * opG o / 8, 1)] else []
  let r := { r0 with reads := r0.reads ++ mapReads }
  let acts := (rowsIn o).map (fun m => (m, actBlk x o m j))
  if mxuOrd o.imm || !stepSkips x o j then stepRun x o acts j r
  else
    { r with skipped := r.skipped + 1
             reads := r.reads ++ (if presentN x o j = 0 then [] else acts.flatMap (fun b => b.2.reads)) }

/-- The whole operation on a tile's elements (R188, R212). -/
def mxuRun (x : Grain) (o : MxuOp) (elems : List Nat) : MxuRun :=
  if (rowsIn o).isEmpty then { elems := elems, skipped := 1 }
  else (List.range (opNb o)).foldl (mxuStep x o) { elems := elems }

/-- Compute cycles of an operation (R213, R216). -/
def mxuBusy (o : MxuOp) (r : MxuRun) : Nat :=
  if (rowsIn o).isEmpty then 0
  else if mxuOrd o.imm then 512 * opNb o
  else match mxuPair (mxuW o.imm) (mxuA o.imm) with
    | some (rate, _) => (r.work + rate - 1) / rate
    | none => 0

/-! ### The cycles of an operation and the ear's clock spine (R204, R210 to R213) -/

/-- The cycles of an operation in order: compute cycles (true) and skipped-step cycles (false), each skipped step at its position. -/
def opCycles (x : Grain) (o : MxuOp) : List (Bool × Nat) :=
  if (rowsIn o).isEmpty then [(false, 1)]
  else if mxuOrd o.imm then [(true, 512 * opNb o)]
  else
    let rate := ((mxuPair (mxuW o.imm) (mxuA o.imm)).map Prod.fst).getD 1
    let done := fun (w : Nat) => (w + rate - 1) / rate
    let f := fun (a : Nat × Nat × List (Bool × Nat)) (j : Nat) =>
      if stepSkips x o j then (a.1, done a.1, a.2.2 ++ [(true, done a.1 - a.2.1), (false, 1)])
      else (a.1 + 2048 * presentN x o j / (opG o * (if is24 o then 2 else 1)), a.2)
    let r := (List.range (opNb o)).foldl f (0, 0, [])
    r.2.2 ++ [(true, done r.1 - r.2.1)]

/-- Cycle k of a list of runs; none past its end. -/
def runAt : List (Bool × Nat) → Nat → Option Bool
  | [], _ => none
  | (b, n) :: l, k => if k < n then some b else runAt l (k - n)

/-- The operation a grain's MXU runs in a cycle: the first begun whose cycles have not all passed (R202, R203); with its place in the
queue, and whether the cycle is a compute cycle. -/
def mxuNow (x : Grain) : Option (Nat × Bool) :=
  (x.mxuQ.zipIdx.filter (fun e => e.1.begun)).findSome? (fun e => (runAt (opCycles x e.1) e.1.ran).map (fun b => (e.2, b)))

/-- A cycle passes in a grain's MXU: whether it was a compute cycle, and the grain after it. -/
def mxuCycle (x : Grain) : Bool × Grain :=
  match mxuNow x with
  | none => (false, x)
  | some (k, b) => (b, { x with mxuQ := x.mxuQ.modify k (fun o => { o with ran := o.ran + 1 }) })

/-- Gated cycles of an ear's spine: it is stopped in every cycle but those a tick has found a compute cycle in (R210, R222). -/
def gatedCount (s : State) (e : Nat) : Nat :=
  let x := sheaf s (e / 16)
  let (c, n) := (mapFind x.spine (e % 16)).getD (x.core.cycle0, 0)
  min (2 ^ 32 - 1) (n + (s.cycle - c))
/-- An ear's gated count is set at a cycle, from which its spine is stopped. -/
def setGated (s : State) (e n c : Nat) : State :=
  setSheaf s (e / 16) { sheaf s (e / 16) with spine := mapInsert (sheaf s (e / 16)).spine (e % 16) (c, n) }

/-! ### The commands -/

/-- MXU: the operation takes a queue entry; its scalar registers are read now (R72, R192, R201). -/
def execMxu (u : Issuer) (s : State) : Out :=
  .next (issue .mxu u s (fun i s =>
    match u with
    | .binder _ => s
    | .grain g =>
      let x := grain s g
      let c := x.core
      let o : MxuOp := { imm := i.imm, w1 := i.w1, sa := sGet c i.ra, sw := sGet c (nbits i.w1 31 27)
                         sx := sGet c (nbits i.w1 26 22), sm := sGet c (nbits i.w1 21 17), issued := s.cycle, pc := c.pc }
      next1 (setGrain s g { x with mxuQ := x.mxuQ ++ [o] }) u 2))

/-- MXU registers of a grain (R219 to R221). -/
def rMxu (g off : Nat) : RegLoc := rGrain g 1 off

/-- An operation finds a tile of another type or exponent (R198). One that leaves every row out changes the tile only by Z (R212). -/
def mismatch (o : MxuOp) (ty : Nat) (texp : Int) : Bool :=
  !mxuZ o.imm && !(rowsIn o).isEmpty && (ty != opInt o || texp != opTexp o)

/-- The tile an operation works on from its first cycle: cleared by Z (R197), NaN on a mismatch (R198). -/
def startTile (o : MxuOp) (t : Tile) : Tile :=
  if mxuZ o.imm then { elems := Vector.replicate 64 0, ttype := opInt o, texp := opTexp o }
  else if mismatch o t.ttype t.texp then
    { elems := Vector.replicate 64 (word (accNan (opInt o))), ttype := opInt o, texp := opTexp o }
  else t

/-- The type and exponent a tile has for an operation that begins now: those the last operation begun on it leaves (R203). -/
def tileNow (x : Grain) (t : Nat) : Nat × Int :=
  (x.mxuQ.filter (fun o => o.begun && mxuTile o.imm == t)).foldl
    (fun y o => if mxuZ o.imm || !(rowsIn o).isEmpty then (opInt o, opTexp o) else y) ((tile x t).ttype, (tile x t).texp)

/-- The first operation begun on a tile finds it prepared: the products of those before it are in it, so that a chained operation
clears or adds to what they leave (R197, R203). -/
def prepTile (x : Grain) (t : Nat) : Grain :=
  match x.mxuQ.findIdx? (fun o => o.begun && mxuTile o.imm == t) with
  | none => x
  | some k =>
    match x.mxuQ[k]? with
    | some o =>
      if o.ready then x
      else { x with acc := x.acc.set! t (startTile o (tile x t)), mxuQ := x.mxuQ.set k { o with ready := true } }
    | none => x

/-- MXU_OP_START: the first operation that waits begins (R202, R203): its tile is prepared, at once or when the operation it chains onto
completes, and its operand reads meet what the code check finds (R260, R261). -/
def execMxuOpStart (g : GrainId) (ecc : EccFinds) (s : State) : Out :=
  .next (
    let x := grain s g
    match x.mxuQ.findIdx? (fun o => !o.begun), x.mxuQ.find? (fun o => !o.begun) with
    | some k, some o =>
      let now := tileNow x (mxuTile o.imm)
      let mis := mismatch o now.1 now.2
      let x1 := prepTile { x with mxuQ := x.mxuQ.set k { o with begun := true } } (mxuTile o.imm)
      let s1 := incReg (setGrain s g x1) (rMxu g 0x40)
      let s2 := if mis then ergCount (orReg s1 (rMxu g 0x34) 2) g .nan 1 else s1
      ecc.foldl (fun s e => spdCheck ecc 2 g s e.1) s2
    | _, _ => s)

/-- Put a word into a set of words, or take it out. -/
def markWord (l : List Nat) (w : Nat) (b : Bool) : List Nat := if b then setAdd l w else setDel l w

/-- A row with the contents and the marks of its words that it had (R217, R261). -/
def rowWas (x : Grain) (r : Nat) (v : BitVec 128) (k : Nat) : Grain :=
  { x with
    mem := memPutRow x.mem (16 * r) v
    poison := markWord (markWord x.poison (2 * r) (nbits k 0 0 == 1)) (2 * r + 1) (nbits k 1 1 == 1)
    told := markWord (markWord x.told (2 * r) (nbits k 2 2 == 1)) (2 * r + 1) (nbits k 3 3 == 1) }

/-- The scratchpad as an operation reads it: a row changed while it was queued or running has, by a free choice, the new or an
earlier contents, with the poison those had (R217, R261). -/
def opView (x : Grain) (o : MxuOp) (d : Nat) : Grain :=
  (o.old.map Prod.fst).eraseDups.foldl (fun y r =>
    let vs := (memRow x.mem (16 * r), rowMarks x r) :: (o.old.filter (fun e => e.1 == r)).map Prod.snd
    let v := vs.getD ((Config.freeByte d r).toNat % vs.length) (0, 0)
    rowWas y r v.1 v.2) x

/-- The bytes of ranges, wrapped to 16 bits (R191). -/
def rangeBytes (l : List (Nat × Nat)) : List Nat := l.flatMap (fun e => (List.range e.2).map (fun k => (e.1 + k) % 65536))

/-- What an operation's reads of the scratchpad as it saw it raise: the operand fault (R191), and the first read of each poisoned word,
one rewritten since with it (R261). -/
def mxuReads (s : State) (g : Nat) (y : Grain) (l : List (Nat × Nat)) : State :=
  let bs := rangeBytes l
  let s1 := match bs.find? (fun a => a ≥ spdSize) with
    | none => s
    | some a => addrFault (orReg s (rMxu g 0x34) 4) (ug g) (localAddr (ug g) a) 2
  (y.poison.filter (fun w => bs.any (fun a => a / 8 == w) && !y.told.contains w)).foldl (fun s w =>
    if (grain s g).poison.contains w then spdTell s g w 2 else spdSay s g w 2) s1

/-- MXU_INDEX_FAULT and its flag (R206). -/
def mxuIndex (s : State) (g : Nat) (a : Option Nat) : State :=
  match a with
  | none => s
  | some a =>
    raiseOnce (orReg s (rMxu g 0x34) 1) .mxuIndexFault (grainOwner s g) 4 (grainUnit g)
      [(6, grainPart s g), (21, coordOf g), (32, a), (12, (grain s g).tag)]

/-- The registers that show a tile's type and exponent after its last completed operation (R220). -/
def showTile (s : State) (g t : Nat) (y : Tile) : State :=
  let s1 := setRegF s (rMxu g 0x38) (8 * t + 7) (8 * t) (y.texp % 256).toNat
  setRegF s1 (rMxu g 0x3C) t t y.ttype

/-- MXU_OP_COMPLETE: the operation that began first completes (R202): the tile's new elements, the counts, and the
faults its operands met; an operation begun on the same tile goes on from there (R203). -/
def execMxuOpComplete (g : GrainId) (s : State) : Out :=
  .next (
    let x := grain s g
    match x.mxuQ with
    | o :: rest =>
      if !o.begun then s
      else
        let (d, s0) := draw s
        let x0 := opView x o d
        let t := tile x (mxuTile o.imm)
        let r := mxuRun x0 o (t.elems.toList.map BitVec.toNat)
        let t1 := { t with elems := Vector.ofFn (fun (i : Fin 64) => word (r.elems.getD i.val 0)) }
        let s1 := setGrain s0 g (prepTile { x with acc := x.acc.set! (mxuTile o.imm) t1, mxuQ := rest } (mxuTile o.imm))
        let s2 := mxuReads s1 g x0 r.reads
        let s3 := mxuIndex s2 g r.index
        let s4 := ergCounts s3 g r.sat r.clamp r.nan r.poison
        let s5 := incReg (incReg s4 (rMxu g 0x44) (mxuBusy o r)) (rMxu g 0x48) r.skipped
        showTile s5 g (mxuTile o.imm) t1
    | [] => s)

end Sys2Proof.Machine
end

