-- ==== Sys2Proof/Machine/Bins.lean ====
section
/-!
DEFINITION. The bins (R486 to R500): their lines, code checks and poison, the patrol, and the window tables; and the
allocation entries of the crib slots (R505, R508).
-/
namespace Sys2Proof.Machine

/-- A bin. -/
def binSt (s : State) (b : Nat) : BinSt := mapGet {} s.bins b
/-- Replace a bin. -/
def setBin (s : State) (b : Nat) (x : BinSt) : State := { s with bins := mapSet {} s.bins b x }
/-- A register of a bin (R518), with its window selector. -/
def rBin (b off : Nat) (sel : Nat := 0) : RegLoc := rDie b 0xB off sel

/-- The router of a bin that serves an offset (R293, R295): bins 0 to 15 lie over the fields R30 names. -/
def binIndex (o : Nat) : Nat := (o / 2 ^ 8 % 128) ^^^ (o / 2 ^ 15 % 128)

/-- A window word's fields (R518): VALID, KIND, partition, and the first and last unit past the end. -/
def winValid (w : Word) : Bool := bit w 31
def winKind (w : Word) : Nat := bits w 30 29
def winPart (w : Word) : Nat := bits w 28 23
def binBase (w : Word) : Nat := bits w 15 8
def binEnd (w : Word) : Nat := bits w 15 8 + bits w 7 0 + 1

/-- The lowest-numbered window in force that covers an offset of a bin (R499, R500). -/
def binCover (s : State) (b o : Nat) : Option Word :=
  (((List.range 16).map (fun k => mapGet 0 (binSt s b).wins k)).find?
    (fun w => winValid w && binBase w ≤ o / 2 ^ 28 && o / 2 ^ 28 < binEnd w))

/-- True when a window of a partition in force covers an offset (R499, R52). -/
def binAllows (s : State) (b o p : Nat) : Bool :=
  (List.range 16).any (fun k =>
    let w := mapGet 0 (binSt s b).wins k
    winValid w && winPart w == p && binBase w ≤ o / 2 ^ 28 && o / 2 ^ 28 < binEnd w)

/-- A line is found uncorrectable for the first time: it is poisoned, the status says so, and BIN_UE is raised; cause 1
READ, 2 SCRUB (R495, R498). -/
def binTell (s : State) (b line cause : Nat) : State :=
  let x := binSt s b
  if x.poison.contains line then s
  else
    let s1 := setBin s b { x with poison := setAdd x.poison line }
    let s2 := incReg (orReg s1 (rBin b 4) 1) (rBin b 0x1C)
    let o := 64 * line
    let s3 :=
      if regBit s2 (rBin b 0x10) 31 then s2
      else setReg (setReg s2 (rBin b 0xC) (word (o % 2 ^ 32))) (rBin b 0x10) (word (2 ^ 31 + o / 2 ^ 32))
    let w := binCover s3 b o
    raise s3 .binUe (w.map winPart) 5 b
      [(4, b), (32, o), (48, 2 ^ 44 + b * 2 ^ 36 + o), (2, (w.map winKind).getD 0), (6, (w.map winPart).getD 0), (4, cause)]

/-- Decode a line, once more when the first decode is uncorrectable (R493 to R495): a read again that decodes counts in
BIN_RETRY, and in BIN_CE too when it was corrected. The second decode is found under the line's number plus 2^30. -/
def binLineRead (fs : EccFinds) (cause b : Nat) (s : State) (line : Nat) : State :=
  if (binSt s b).poison.contains line then s
  else
    match finding fs line with
    | .ok => s
    | .corrected => incReg s (rBin b 0x14)
    | .uncorrectable =>
      match finding fs (line + 2 ^ 30) with
      | .uncorrectable => binTell s b line cause
      | .corrected => incReg (incReg s (rBin b 0x18)) (rBin b 0x14)
      | .ok => incReg s (rBin b 0x18)

/-- Read n rows at an offset: each row with its poison mark (R494, R495). -/
def binRead (s : State) (b o n : Nat) (fs : EccFinds) : State × List (BitVec 128 × Bool) :=
  let o := o / 16 * 16
  let lines := (List.range ((o + 16 * n - 1) / 64 - o / 64 + 1)).map (fun k => o / 64 + k)
  let s1 := incReg (lines.foldl (binLineRead fs 1 b) s) (rBin b 0x24) n
  (s1, (List.range n).map (fun k => (memRow (binSt s1 b).mem (o + 16 * k), (binSt s1 b).poison.contains ((o + 16 * k) / 64))))

/-- Write the rows of one line: all four clear its poison; fewer to a poisoned line are discarded; a row that arrives
poisoned poisons the line; a pending patrol write-back of the line is dropped (R495 to R497, log 20). -/
def binLineWrite (s : State) (b : Nat) (line : Nat) (rows : List (Nat × BitVec 128 × Bool)) : State :=
  let x := binSt s b
  let full := rows.length ≥ 4
  let s1 := if full then s else incReg s (rBin b 0x2C)
  if x.poison.contains line && !full then incReg (orReg s1 (rBin b 4) 2) (rBin b 0x20)
  else
    let mem := rows.foldl (fun m e => memPutRow m e.1 e.2.1) x.mem
    let bad := rows.any (fun e => e.2.2)
    let poison := if bad then setAdd x.poison line else setDel x.poison line
    let fix := if x.fix = some line then none else x.fix
    incReg (setBin s1 b { x with mem := mem, poison := poison, fix := fix }) (rBin b 0x28) rows.length

/-- Write rows at an offset, line by line. -/
def binWrite (s : State) (b o : Nat) (body : List (BitVec 128 × Bool)) : State :=
  let o := o / 16 * 16
  let rows := body.zipIdx.map (fun e => (o + 16 * e.2, e.1))
  let lines := (List.range ((o + 16 * body.length - 1) / 64 - o / 64 + 1)).map (fun k => o / 64 + k)
  if body.isEmpty then s
  else lines.foldl (fun s l => binLineWrite s b l (rows.filter (fun e => e.1 / 64 == l))) s

/-- Partitions with a window in force on a bin. -/
def binParts (s : State) (b : Nat) : List Nat :=
  ((List.range 16).filterMap (fun k =>
    let w := mapGet 0 (binSt s b).wins k
    if winValid w then some (winPart w) else none)).foldl setAdd []

/-- A bin is fenced (R492): FAILED, and BIN_FAILED to the owner and to each partition with a window on it; cause 1
KINDLING, 2 INTERFACE. -/
def binFail (s : State) (b cause : Nat) : State :=
  let s1 := orReg s (rBin b 4) (2 ^ 7)
  let say := fun s p => raise s .binFailed p 5 b [(4, b), (4, cause)]
  (binParts s1 b).foldl (fun s p => say s (some p)) (say s1 none)

/-- A bin begins the zero fill of its half's kindling: its status says so until the fill ends (R491). -/
def binFill (s : State) (b : Nat) : State := setRegF s (rBin b 4) 5 5 0

/-- BIN_INIT_DONE: the zero fill ends (R491). -/
def execBinInitDone (b : BinId) (s : State) : Out :=
  .next (if regBit s (rBin b 4) 5 || regBit s (rBin b 4) 7 then s
  else orReg (setBin s b { binSt s b with mem := {}, poison := [], fix := none }) (rBin b 4) (2 ^ 5))

/-- BIN_INTERFACE_FAULT (R492). -/
def execBinInterfaceFault (b : BinId) (s : State) : Out :=
  .next (if regBit s (rBin b 4) 7 then s else binFail s b 2)

/-- BIN_PATROL_READ: the patrol's next line (R497); the findings of its first and second decode. -/
def execBinPatrolRead (b : BinId) (e1 e2 : Ecc) (s : State) : Out :=
  .next (if !regBit s (rBin b 0) 0 then s
  else
    let x := binSt s b
    let line := x.cursor
    let s1 := setBin s b { x with cursor := (line + 1) % 2 ^ 30 }
    let s2 := binLineRead [(line, e1), (line + 2 ^ 30, e2)] 2 b s1 line
    let fixed := e1 = .corrected || (e1 = .uncorrectable && e2 = .corrected)
    if fixed && !x.poison.contains line then setBin s2 b { binSt s2 b with fix := some line } else s2)

/-- BIN_PATROL_WRITEBACK: the corrected line is written, unless a write reached it since (R497). The line's data is what
the array decodes to, so its bytes do not change. -/
def execBinPatrolWriteback (b : BinId) (s : State) : Out :=
  .next (match (binSt s b).fix with
    | none => s
    | some _ => setBin s b { binSt s b with fix := none })

/-- True when two window words of different partitions overlap in units [base, end). -/
def winClash (base end_ : Word → Nat) (v w : Word) : Bool :=
  winValid v && winValid w && winPart v != winPart w && base v < end_ w && base w < end_ v

/-- BIN_WIN_WRITE: a write of the window BIN_WIN_SEL names (R500): refused beyond 256 units or over another partition's
window, against the table with every accepted write applied; else pending until the next beat. -/
def execBinWinWrite (ini : Initiator) (b : BinId) (value : Word) (s : State) : Out :=
  .next (regCommand ini (rBin b 0x44) s (fun s =>
    let k := regF s (rBin b 0x40) 3 0
    let v := value &&& word 0xff80ffff
    let clash := (List.range 16).any (fun j => j != k && winClash binBase binEnd v (reg s (rBin b 0x44 j)))
    if winValid v && (binEnd v > 256 || clash) then orReg s (rBin b 4) 4
    else setReg s (rBin b 0x44 k) (v ||| word (2 ^ 22))))

/-- Pending window writes of a bin take effect at a beat (R500). -/
def binBeat (s : State) (b : Nat) : State :=
  (List.range 16).foldl (fun s k =>
    let w := reg s (rBin b 0x44 k)
    if bit w 22 then
      let w0 := setBits w 22 22 0
      let x := binSt s b
      setBin (setReg s (rBin b 0x44 k) w0) b { x with wins := mapSet 0 x.wins k w0 }
    else s) s

/-! ### Crib allocations -/

/-- A register of the CRB_ block, with its slot and entry selectors (R519). -/
def rCrb (off : Nat) (sel : Nat := 0) : RegLoc := rModule 0xC off sel
/-- The allocation word of an entry of a slot: the slot is the first selector. -/
def rAlloc (slot k : Nat) : RegLoc := rCrb 0x20 (slot + 8 * k)
def crbBase (w : Word) : Nat := bits w 17 9
def crbEnd (w : Word) : Nat := bits w 17 9 + bits w 8 0 + 1

/-- A slot's allocations in force. -/
def cribSt (s : State) (k : Nat) : CribSt := mapGet {} s.cribs k

/-- True when an allocation of a partition in force covers an offset of a slot (R505, R52). -/
def cribAllows (s : State) (slot o p : Nat) : Bool :=
  (List.range 16).any (fun k =>
    let w := mapGet 0 (cribSt s slot).allocs k
    winValid w && winPart w == p && crbBase w ≤ o / 2 ^ 30 && o / 2 ^ 30 < crbEnd w)

/-- The lowest-numbered allocation in force that covers an offset (R505, R509). -/
def cribCover (s : State) (slot o : Nat) : Option Word :=
  (((List.range 16).map (fun k => mapGet 0 (cribSt s slot).allocs k)).find?
    (fun w => winValid w && crbBase w ≤ o / 2 ^ 30 && o / 2 ^ 30 < crbEnd w))

/-- Partitions with an allocation in force on a slot. -/
def cribParts (s : State) (slot : Nat) : List Nat :=
  ((List.range 16).filterMap (fun k =>
    let w := mapGet 0 (cribSt s slot).allocs k
    if winValid w then some (winPart w) else none)).foldl setAdd []

/-- CRB_ALLOC_WRITE: a write of the entry the selectors name (R500, R505). -/
def execCrbAllocWrite (ini : Initiator) (value : Word) (s : State) : Out :=
  .next (regCommand ini (rCrb 0x20) s (fun s =>
    let slot := regF s (rCrb 8) 2 0
    let k := regF s (rCrb 0x1C) 3 0
    let v := value &&& word 0xff83ffff
    let clash := (List.range 16).any (fun j => j != k && winClash crbBase crbEnd v (reg s (rAlloc slot j)))
    if winValid v && (crbEnd v > 512 || clash) then orReg s (rCrb 4) (2 ^ 16)
    else setReg s (rAlloc slot k) (v ||| word (2 ^ 22))))

/-- Pending allocation writes of a slot take effect at a beat (R505). -/
def cribBeat (s : State) (slot : Nat) : State :=
  (List.range 16).foldl (fun s k =>
    let w := reg s (rAlloc slot k)
    if bit w 22 then
      let w0 := setBits w 22 22 0
      let s1 := setReg s (rAlloc slot k) w0
      { s1 with cribs := mapMod {} s1.cribs slot (fun c => { c with allocs := mapSet 0 c.allocs k w0 }) }
    else s) s

/-- State of a crib slot (R519): 0 EMPTY, 1 BOUND, 2 LOST, 3 BINDING. -/
def cribState (s : State) (slot : Nat) : Nat := regF s (rCrb 0xC slot) 31 30

/-- CRIB_SLOT_FORGET: FORGET returns a LOST slot to EMPTY and invalidates its allocations (R508). -/
def execCribSlotForget (ini : Initiator) (value : Word) (s : State) : Out :=
  .next (regCommand ini (rCrb 0x18) s (fun s =>
    let slot := regF s (rCrb 8) 2 0
    if bit value 0 && cribState s slot == 2 then
      let s1 := setReg (setReg (setReg s (rCrb 0xC slot) 0) (rCrb 0x10 slot) 0) (rCrb 0x14 slot) 0
      let s2 := (List.range 16).foldl (fun s k => setReg s (rAlloc slot k) 0) s1
      { s2 with cribs := mapErase s2.cribs slot }
    else s))

end Sys2Proof.Machine
end

