-- ==== Sys2Proof/Machine/Tiers.lean ====
section
/-!
DEFINITION. Where a device address leads (R38 to R46, R293, R295, R442, R486, R503): the fault of an access to a memory
region, in R55's order, and the router that serves it.
-/
namespace Sys2Proof.Machine

/-- The field a bin lies over (R30). -/
def binField (b : Nat) : Nat := b / 8 * 80 + [12, 17, 32, 37, 42, 47, 62, 67].getD (b % 8) 0
/-- The field a port die lies over (R30). -/
def dieField (d : Nat) : Nat := [30, 119, 0, 89, 70, 159].getD d 0

/-- The router at field-local (u, v) (R293). -/
def fieldRouter (f u v : Nat) : Nat := grainAt (f / 80) (96 * (f % 80 % 10) + u) (96 * (f % 80 / 10) + v)

/-- The router of a bin for an offset (R295). -/
def binRouter (b o : Nat) : Nat :=
  let i := binIndex o
  fieldRouter (binField b) (2 + 12 * (i % 8)) (32 + 2 * (i / 8))

/-- Attach router j of a port die (R293, R503). -/
def dieRouter (d j : Nat) : Nat := fieldRouter (dieField d) (20 + 24 * (j % 4)) (36 + 4 * (j / 4))

/-- Attach router k of a Damper: DA over field 40 of half 0, DB over field 49 of half 1 (R30, R293). -/
def damperRouter (db : Bool) (k : Nat) : Nat := fieldRouter (if db then 129 else 40) 46 (44 + 2 * (k % 4))

/-- Attach router k of a field's Granary read port (R293). -/
def granaryRouter (f k : Nat) : Nat := fieldRouter f (16 * (k % 6) + 8) (16 * (k / 6) + 8)

/-- The Draught port a crib slot uses: its primary, or its alternate (R502, R503). -/
def cribPort (s : State) (slot : Nat) : Nat :=
  if regBit s (rCrb 0xC slot) 22 then regF s (rCrb 0xC slot) 25 23 else regF s (rCrb 0xC slot) 28 26

/-- The router for an offset of a crib slot (R503). -/
def cribRouter (s : State) (slot o : Nat) : Nat := dieRouter (cribPort s slot) ((o / 2 ^ 8 % 32) ^^^ (o / 2 ^ 13 % 32))

/-- A module-scope register of the Granary (R485). -/
def rGry (off : Nat) (sel : Nat := 0) : RegLoc := rModule 0xA off sel
/-- Journal replay has finished: the Granary takes verbs, window reads and loads (R460). -/
def gryReady (s : State) : Bool := regBit s (rGry 4) 0

/-- A model that window reads and loads are served from (R443, R446). -/
def modelServes (m : Model) : Bool := !m.repair && (m.st == .sealed || m.st == .degraded)

/-- The physical block of a namespace block: its region, number and length; none beyond the namespace's end (R443). -/
def nsBlock (s : State) (nsid nb : Nat) : Option (Nat × Nat × Nat) :=
  match s.granary.models.find? (fun m => modelServes m && m.nsid == nsid && m.base ≤ nb && nb < m.base + m.blocks) with
  | none => none
  | some m => mapFind m.done (nb - m.base)

/-- A region of the Granary. -/
def region (s : State) (f : Nat) : Region := mapGet {} s.granary.regions f
/-- A block of a region. -/
def gblock (r : Region) (b : Nat) : GBlock := mapGet {} r.blocks b

/-- A row of a namespace: its bytes beyond the block's length are zero, and a row of a poisoned codeword is poisoned
(R446, R453, R474). -/
def nsRow (s : State) (nsid off : Nat) : BitVec 128 × Bool :=
  match nsBlock s nsid (off / 2 ^ 24) with
  | none => (0, false)
  | some (f, b, len) =>
    let k := gblock (region s f) b
    let o := off % 2 ^ 24 / 16 * 16
    if o ≥ len then (0, false) else (memRow k.data o, k.poison.contains (o / 4096))

/-- The namespace bound to a partition (R441, R568). -/
def boundNs (s : State) (p : Nat) : Option Nat :=
  if regBit s (rPart p 0xE 0x18) 31 then some (regF s (rPart p 0xE 0x18) 7 0) else none

/-- Who makes an access to a memory region: a partition's own traffic, or the owner, with the namespace its command
names (R46, R52). -/
inductive Agent where
  | part (p : Nat)
  | owner (nsid : Option Nat)
  deriving DecidableEq, Repr

/-- The agent of a grain's or binder's own access: the partition that owns it. A unit of no partition acts for 64, a partition that
holds nothing, so that nothing is permitted to it (R52). -/
def unitAgent (s : State) (u : Issuer) : Agent := .part ((unitOwner s u).getD 64)

/-- The namespace an agent reads in the Granary window. -/
def agentNs (s : State) : Agent → Option Nat
  | .part p => boundNs s p
  | .owner n => n

/-- The grain of a fabric address. -/
def fabGrain (a : Nat) : Nat := winSheaf a * 256 + nbits a 23 16

/-- A value out of range (R41, R42, R54); the register region is no memory (log 17). -/
def addrUnmapped (a : Nat) : Bool :=
  match nbits a 47 44 with
  | 0 =>
    nbits a 36 30 > 79 || nbits a 29 24 > 35 ||
      (if nbits a 38 38 = 0 then nbits a 15 0 ≥ spdSize
       else
        let o := nbits a 23 0
        !(o < 0x40000 || (0x40000 ≤ o && o < 0x40100) || (0x50000 ≤ o && o < 0x60000)))
  | 8 => true
  | _ => false

/-- True when an agent's partition permits the access (R52). -/
def addrAllowed (s : State) (who : Agent) (a : Nat) : Bool :=
  match who with
  | .owner _ => true
  | .part p =>
    match nbits a 47 44 with
    | 0 => (if nbits a 38 38 = 0 then grainOwner s (fabGrain a) else sheafOwner s (winSheaf a)) == some p
    | 1 => binAllows s (nbits a 39 36) (nbits a 35 0) p
    | 2 => cribAllows s (nbits a 41 39) (nbits a 38 0) p
    | _ => (boundNs s p).isSome

/-- The target is absent: a crib slot with no crib bound, or an offset beyond the namespace's end (R54). -/
def addrAbsent (s : State) (who : Agent) (a : Nat) : Bool :=
  match nbits a 47 44 with
  | 2 => cribState s (nbits a 41 39) != 1
  | 3 =>
    match agentNs s who with
    | none => true
    | some n => (nsBlock s n (nbits a 43 24)).isNone
  | _ => false

/-- A store to the Granary window or to a lock word (R43, R46, R54). -/
def addrReadOnly (a : Nat) : Bool :=
  nbits a 47 44 == 3 || (nbits a 47 44 == 0 && nbits a 38 38 == 1 && nbits a 23 0 / 0x100 == 0x400)

/-- The fault of an access to one row, in R55's order. -/
def rowFault (s : State) (who : Agent) (a : Nat) (write : Bool) : Option Nat :=
  if addrReserved a then some 1
  else if addrUnmapped a then some 2
  else if !addrAllowed s who a then some 3
  else if addrAbsent s who a then some 4
  else if write && addrReadOnly a then some 5
  else none

/-- An address as an agent's partition translates it; the owner's is not translated (R556). -/
def xlatAgent (s : State) (who : Agent) (a : Nat) : Nat :=
  match who with
  | .part p => xlatAddr s p a
  | .owner _ => a

/-- The first of some faults, by R55's order of reasons: the address and reason of the first row that meets the least
reason (log 97). -/
def leastFault (l : List (Nat × Nat)) : Option (Nat × Nat) :=
  [1, 2, 3, 4, 5].findSome? (fun r => l.find? (fun e => e.2 == r))

/-- The rows of an access of n rows that fault: address and reason. -/
def rowFaults (s : State) (who : Agent) (a n : Nat) (write : Bool) : List (Nat × Nat) :=
  (List.range n).filterMap (fun k => (rowFault s who (xlatAgent s who ((a / 16 * 16 + 16 * k) % 2 ^ 48)) write).map
    (fun r => ((a / 16 * 16 + 16 * k) % 2 ^ 48, r)))

/-- The fault of an access of n rows, its element taken whole (R53, R55). -/
def accFault (s : State) (who : Agent) (a n : Nat) (write : Bool) : Option (Nat × Nat) := leastFault (rowFaults s who a n write)

/-- The router an access travels to. In the Granary window it is the first attach router of the read port of the region
that holds the block (log 21). -/
def targetRouter (s : State) (who : Agent) (a : Nat) : Nat :=
  match nbits a 47 44 with
  | 0 => if nbits a 38 38 = 0 then fabGrain a else sheafPort (winSheaf a)
  | 1 => binRouter (nbits a 39 36) (nbits a 35 0)
  | 2 => cribRouter s (nbits a 41 39) (nbits a 38 0)
  | _ =>
    match (agentNs s who).bind (fun n => nsBlock s n (nbits a 43 24)) with
    | some (f, _, _) => granaryRouter f 0
    | none => 0

/-- The packets of a run of n rows at an address: none crosses a boundary of 4 rows (R276, R486, R583, log 103): each packet's
first row and number of rows. -/
def splitRows : Nat → Nat → Nat → Nat → List (Nat × Nat)
  | 0, _, _, _ => []
  | k + 1, a, done, n =>
    if done ≥ n then []
    else
      let c := min (4 - (a / 16 + done) % 4) (n - done)
      (done, c) :: splitRows k a (done + c) n

/-- The packets of a run of n rows. -/
def packetsOf (a n : Nat) : List (Nat × Nat) := splitRows n a 0 n

end Sys2Proof.Machine
end

