-- ==== Sys2Proof/Machine/Host.lean ====
section
/-!
DEFINITION. The host side (R569 to R590): doorbells, command fetch and start, completions, event records, interrupts,
function and port resets, and the DMA verbs.
-/
namespace Sys2Proof.Machine

/-- A register of a function's HST_ block, with the ring its selector names (R615). -/
def rHst (fn off : Nat) (ring : Nat := 0) : RegLoc := rPart fn 0xF off ring
/-- HST_PORT_STATUS of a host port (R618). -/
def rPortSt (p : Nat) : RegLoc := rDie (0x18 + p) 0xF 0

/-- True while a host port's link is up and PERST is not in force (R589). -/
def portUp (s : State) (p : Nat) : Bool := regBit s (rPortSt p) 31 && !regBit s (rPortSt p) 30
/-- The port of a ring (R575). -/
def ringPort (s : State) (fn ring : Nat) : Nat := bnat (regBit s (rHst fn 0xC ring) 30)
/-- Entries of a ring and of its completion ring (R615). -/
def ringSize (s : State) (fn ring : Nat) : Nat := 2 ^ regF s (rHst fn 0xC ring) 24 20
/-- The port for a function's records (R584). -/
def homePort (s : State) (fn : Nat) : Nat := bnat (regBit s (rHst fn 0) 30)
/-- A 64-bit base from its two words, its low bits ignored. -/
def hostBase (s : State) (lo hi : RegLoc) (al : Nat) : Nat := ((reg s lo).toNat + (reg s hi).toNat * 2 ^ 32) / al * al

/-- Change the host side. -/
def setHost (s : State) (h : HostIf) : State := { s with host := h }
/-- Something sent to a host. -/
def hostSend (s : State) (m : HostMsg) : State := setHost s { s.host with sent := s.host.sent ++ [m] }

/-! ### Interrupts and records -/

/-- Signal a vector of a function through a port: within the gap of an earlier message it merges, unless it is urgent
(R587). -/
def signal (s : State) (port fn vec : Nat) (urgent : Bool) : State :=
  let k := 16 * fn + vec
  let q := mapGet {} s.host.irqs k
  let gap := regF s (rHst fn 0x44) 15 0 != 0
  if q.gap && !urgent then setHost s { s.host with irqs := mapSet {} s.host.irqs k { q with pend := true, port := port } }
  else
    let s1 := hostSend s (.msi port fn vec)
    setHost s1 { s1.host with irqs := mapSet {} s1.host.irqs k { gap := gap } }

/-- HOST_WRITE_FAULT of a record whose write failed: 1 COMPLETION, 2 EVENT, 3 OUTPUT, 4 RESULT; once a beat (R590). -/
def writeFault (s : State) (fn port kind : Nat) : State :=
  raiseOnce (orReg s (rHst fn 4) 4) .hostWriteFault (some fn) 6 fn [(6, fn), (3, port), (4, kind)]

/-- A completion's rows (R579). -/
def cplRows (c : Cpl) (phase : Bool) (head : Nat) : List (BitVec 128) :=
  [BitVec.ofNat 128 (packFields [(64, c.time), (16, head), (15, 0), (1, bnat phase), (8, c.status), (8, c.verb), (16, c.tag)]),
   c.data]

/-- COMPLETION_WRITE: the oldest completion of an enabled ring that has space; whether the host takes the write (R579,
R587, R590, logs 22 and 83). -/
def execCompletionWrite (fn : FnId) (ring : Fin 8) (ok : Bool) (s : State) : Out :=
  .next (
    let port := ringPort s fn ring
    let size := ringSize s fn ring
    let tail := regF s (rHst fn 0x24 ring) 15 0
    match s.host.cpls.find? (fun c => c.fn == fn.val && c.ring == ring.val) with
    | none => s
    | some c =>
      if !regBit s (rHst fn 0xC ring) 31 || !portUp s port || (tail + 1) % size == regF s (rHst fn 0x28 ring) 15 0 % size then s
      else
        let s0 := setHost s { s.host with cpls := s.host.cpls.erase c }
        if !ok then writeFault s0 fn port 1
        else
          let k := 8 * fn.val + ring.val
          let pass := mapGet false s.host.passes k
          let at_ := hostBase s (rHst fn 0x18 ring) (rHst fn 0x1C ring) 32 + 32 * tail
          let s1 := hostSend s0 (.write port at_ (cplRows c (!pass) (regF s (rHst fn 0x20 ring) 15 0)))
          let s2 := setRegF s1 (rHst fn 0x24 ring) 15 0 ((tail + 1) % size)
          let s3 := if tail + 1 ≥ size then setHost s2 { s2.host with passes := mapSet false s2.host.passes k (!pass) } else s2
          if c.irq then signal s3 port fn (regF s (rHst fn 0xC ring) 19 16) false else s3)

/-- An event record's rows (R584). -/
def evRows (e : EventRec) (phase : Bool) : List (BitVec 128) :=
  [BitVec.ofNat 128 (packFields [(64, e.time), (10, 0), (22, e.unit), (4, e.scope), (1, bnat e.part.isNone), (2, 0),
     (1, bnat phase), (6, e.part.getD 0), (2, evSeverity e.ev), (16, evCode e.ev)]),
   e.detail]

/-- True when a function's event ring takes records: enabled, its HOME port up, and not full (R586). -/
def evtReady (s : State) (fn : Nat) : Bool :=
  let size := 2 ^ regF s (rHst fn 0x34) 8 4
  regBit s (rHst fn 0) 31 && portUp s (homePort s fn) && regBit s (rHst fn 0x34) 31 &&
    (regF s (rHst fn 0x3C) 15 0 + 1) % size != regF s (rHst fn 0x38) 15 0 % size

/-- Write one record to a function's event ring (R584, R587, R590). -/
def evtPut (s : State) (fn : Nat) (e : EventRec) (ok : Bool) : State :=
  let port := homePort s fn
  if !ok then writeFault s fn port 2
  else
    let size := 2 ^ regF s (rHst fn 0x34) 8 4
    let tail := regF s (rHst fn 0x3C) 15 0
    let q := mapGet {} s.evq fn
    let s1 := hostSend s (.write port (hostBase s (rHst fn 0x2C) (rHst fn 0x30) 32 + 32 * tail) (evRows e (!q.pass)))
    let s2 := setRegF s1 (rHst fn 0x3C) 15 0 ((tail + 1) % size)
    let s3 := if tail + 1 ≥ size then { s2 with evq := mapSet {} s2.evq fn { q with pass := !q.pass } } else s2
    signal s3 port fn (regF s (rHst fn 0x34) 3 0) (evSeverity e.ev ≥ 2)

/-- EVENT_RECORD_WRITE: an EVENTS_LOST record when events were discarded, else the oldest held event (R586). -/
def execEventRecordWrite (fn : FnId) (ok : Bool) (s : State) : Out :=
  .next (
    let q := mapGet {} s.evq fn
    if !evtReady s fn then s
    else if q.lost.toList.any (· != 0) then
      let counts := packFields (q.lost.toList.map (fun n => (8, n)))
      let e : EventRec := ⟨.eventsLost, some fn, 6, fn, s.time, BitVec.ofNat 128 (packFields [(6, fn.val), (32, counts)])⟩
      evtPut { s with evq := mapSet {} s.evq fn { q with lost := Vector.replicate 4 0 } } fn e ok
    else
      match q.held with
      | [] => s
      | e :: r => evtPut { s with evq := mapSet {} s.evq fn { q with held := r } } fn e ok)

/-- MSIX_GAP_EXPIRY: the gap ends and merged signals send one message (R587). -/
def execMsixGapExpiry (fn : FnId) (vec : Fin 16) (s : State) : Out :=
  .next (
    let k := 16 * fn.val + vec.val
    let q := mapGet {} s.host.irqs k
    if !q.gap then s
    else
      let s1 := setHost s { s.host with irqs := mapErase s.host.irqs k }
      if q.pend then signal s1 q.port fn vec false else s1)

/-! ### Commands -/

/-- DOORBELL: a ring's tail, or DOORBELL_BAD (R576). -/
def execDoorbell (fn : FnId) (ring : Fin 8) (tail : BitVec 16) (s : State) : Out :=
  .next (
    if tail.toNat ≥ ringSize s fn ring then orReg s (rHst fn 4) 1
    else setHost s { s.host with tails := mapSet 0 s.host.tails (8 * fn.val + ring.val) tail.toNat })

/-- The operand bits a verb names, by code: rows 0 and 1 (R577, R581). None for a code that no chapter defines. -/
def verbMask (code : Nat) : Option (Nat × Nat) :=
  let all := 2 ^ 128 - 1
  let a64 := 2 ^ 64 - 1
  match code with
  | 0x00 => some (0, 0)
  | 0x01 | 0x02 => some (2 ^ 93 - 1, a64)
  | 0x30 => some (2 ^ 7 - 1, 0)
  | 0x31 | 0x32 => some (0, 0)
  | 0x33 => some (2 ^ 5 - 1, 0)
  | 0x40 => some (all, all - (2 ^ 31 - 1))
  | 0x41 => some (2 ^ 128 - 2 ^ 43 + 2 ^ 23 - 1, 0)
  | 0x42 | 0x43 | 0x44 => some (2 ^ 23 - 1, 0)
  | 0x50 => some (2 ^ 28 - 1, 0)
  | 0x51 => some (2 ^ 8 - 1, 0)
  | 0x52 => some (2 ^ 26 - 1 + 2 ^ 40 - 2 ^ 32, a64)
  | 0x53 => some (2 ^ 78 - 1, a64)
  | 0x54 | 0x55 | 0x56 => some (2 ^ 32 - 1, 0)
  | 0x57 | 0x58 => some (2 ^ 24 - 1, 0)
  | 0x60 | 0x62 => some (2 ^ 64 - 2 ^ 32 + 1, a64)
  | 0x61 => some (0, 0)
  | 0x63 | 0x64 => some (2 ^ 3 - 1, 0)
  | 0x65 => some (2 ^ 38 - 1, 0)
  | 0x66 => some (2 ^ 4 - 1, a64)
  | 0x67 => some (2 ^ 3 - 1, 0)
  | 0x68 => some (2 ^ 2 - 1, a64)
  | 0x70 => some (2 ^ 65 - 1, 0)
  | 0x71 => some (2 ^ 14 - 1, 0)
  | 0x72 => some (2 ^ 32 - 2 ^ 20 + 2 ^ 17 - 1, 0)
  | 0x73 => some (0, 0)
  | 0x74 => some (2 ^ 6 - 1, 0)
  | 0x80 => some (2 ^ 8 - 1, 0)
  | 0x81 => some (2 ^ 9 - 1, 0)
  | 0x82 | 0x88 => some (0, 0)
  | 0x90 => some (2 ^ 24 - 1, 0)
  | 0x91 => some (2 ^ 6 - 1, 0)
  | 0x92 => some (2 ^ 2 - 1, 0)
  | 0x93 | 0x99 => some (0, 0)
  | 0x94 => some (2 ^ 15 - 1, 0)
  | 0x95 => some (2 ^ 8 - 1, 0)
  | 0x96 => some (2 ^ 14 - 1, 0)
  | 0x97 => some (1, 0)
  | 0x98 => some (2 ^ 48 - 1, 0)
  | 0x59 => some (2 ^ 25 - 1 + 2 ^ 48 - 2 ^ 32, a64)
  | _ => none

/-- A command's fields (R577), numbered by the model. -/
def mkVerb (id fn ring : Nat) (c : BitVec 512) : Verb :=
  let r0 := c.toNat % 2 ^ 128
  { id := id, fn := fn, ring := ring, code := nbits r0 127 120, tag := nbits r0 119 104
    irq := nbits r0 103 103 == 1, order := nbits r0 102 102 == 1
    op0 := BitVec.ofNat 128 (c.toNat / 2 ^ 128), op1 := BitVec.ofNat 128 (c.toNat / 2 ^ 256)
    res := c.toNat / 2 ^ 384 % 2 ^ 64 }

/-- The status that turns a command away before it starts: a reserved verb, or a reserved bit set (R577, R580, R581). -/
def verbBad (v : Verb) (c : BitVec 512) : Option Nat :=
  match verbMask v.code with
  | none => some 0x06
  | some (m0, m1) =>
    if nbits (c.toNat) 101 0 ≠ 0 ∨ c.toNat / 2 ^ 448 ≠ 0 ∨ v.op0.toNat &&& m0 ≠ v.op0.toNat ∨ v.op1.toNat &&& m1 ≠ v.op1.toNat
    then some 0x02 else none

/-- A command completes with a status and data: its completion waits for its ring, unless it is discarded (R579, R588,
R589). -/
def verbDone (s : State) (v : Verb) (status : Nat) (data : Nat := 0) : State :=
  let h := { s.host with verbs := s.host.verbs.filter (fun w => w.id != v.id) }
  if v.silent then setHost s h
  else setHost s { h with cpls := h.cpls ++ [⟨v.fn, v.ring, v.tag, v.code, status, v.irq, s.time, BitVec.ofNat 128 data⟩] }

/-- A command by its number. -/
def verbOf (s : State) (id : Nat) : Option Verb := s.host.verbs.find? (fun v => v.id == id)
/-- Change a command. -/
def modVerb (s : State) (id : Nat) (f : Verb → Verb) : State :=
  setHost s { s.host with verbs := s.host.verbs.map (fun v => if v.id = id then f v else v) }
/-- A command by its number completes. -/
def verbEnd (s : State) (id status : Nat) (data : Nat := 0) : State :=
  match verbOf s id with
  | none => s
  | some v => verbDone s v status data

/-- COMMAND_FETCH: the next command of a ring, as host memory holds it, or a fetch that fails (R576 to R578, R590). -/
def execCommandFetch (fn : FnId) (ring : Fin 8) (cmd : Option (BitVec 512)) (s : State) : Out :=
  .next (
    let port := ringPort s fn ring
    let head := regF s (rHst fn 0x20 ring) 15 0
    let mine := s.host.verbs.filter (fun v => v.fn == fn.val && v.ring == ring.val)
    if !regBit s (rHst fn 0xC ring) 31 || !portUp s port || head == mapGet 0 s.host.tails (8 * fn.val + ring.val) ||
        mine.length ≥ 64 then s
    else
      match cmd with
      | none =>
        let s1 := orReg (setRegF s (rHst fn 0xC ring) 31 31 0) (rHst fn 4) 2
        raise s1 .hostFetchFault (some fn) 6 fn
          [(6, fn.val), (3, port), (3, ring.val), (64, hostBase s (rHst fn 0x10 ring) (rHst fn 0x14 ring) 64 + 64 * head)]
      | some c =>
        let v := mkVerb s.host.nextId fn ring c
        let s1 := setRegF s (rHst fn 0x20 ring) 15 0 ((head + 1) % ringSize s fn ring)
        let s2 := setHost s1 { s1.host with verbs := s1.host.verbs ++ [v], nextId := s1.host.nextId + 1 }
        match verbBad v c with
        | some st => verbDone s2 v st
        | none => s2)

/-- The command a ring starts next, when it carries a verb: the oldest not started; with ORDER, only when every earlier
command of the ring has completed (R577, R578). -/
def verbNext (s : State) (fn ring code : Nat) : Option Verb :=
  let mine := s.host.verbs.filter (fun v => v.fn == fn && v.ring == ring)
  match mine.find? (fun v => !v.started) with
  | none => none
  | some v => if v.code = code ∧ !(v.order && mine.any (fun w => w.started)) then some v else none

/-- Start a verb: mark it started, then its effect. -/
def verbStart (s : State) (fn ring code : Nat) (k : Verb → State → State) : State :=
  match verbNext s fn ring code with
  | none => s
  | some v => k { v with started := true } (modVerb s v.id (fun w => { w with started := true }))

/-- Start an owner's verb: from a virtual function it completes with a refusal (R581). -/
def ownerVerb (s : State) (fn ring code refusal : Nat) (k : Verb → State → State) : State :=
  verbStart s fn ring code (fun v s => if v.fn ≠ 0 then verbDone s v refusal else k v s)

/-- Write a verb's result at RESULT_ADDR and complete it; a write the host does not take completes with HOST_FAULT
(R577, R590). -/
def verbResult (s : State) (v : Verb) (rows : List (BitVec 128)) (ok : Bool) (status : Nat := 0) (data : Nat := 0) : State :=
  let port := ringPort s v.fn v.ring
  if ok then verbDone (hostSend s (.write port v.res rows)) v status data
  else verbDone (writeFault s v.fn port 4) v 0x08

/-- HOST_NOP (R581). -/
def execHostNop (fn : FnId) (ring : Fin 8) (s : State) : Out :=
  .next (verbStart s fn ring 0x00 (fun v s => verbDone s v 0))

/-! ### DMA verbs -/

/-- The agent a function acts as; the physical function names a namespace (R52, R571, R582). -/
def fnAgent (fn nsid : Nat) : Agent := if fn = 0 then .owner (some nsid) else .part fn

def dmaAddr (v : Verb) : Nat := bits v.op0 47 0
def dmaLen (v : Verb) : Nat := bits v.op0 79 48
def dmaHostAddr (v : Verb) : Nat := bits v.op1 63 0

/-- BAD_ARGS of a DMA verb (R582). -/
def dmaBad (s : State) (v : Verb) (out : Bool) : Bool :=
  let rg := nbits (dmaAddr v) 47 44
  let ns := bits v.op0 92 85
  dmaAddr v % 16 != 0 || dmaLen v % 16 != 0 || dmaLen v == 0 || dmaHostAddr v % 16 != 0 ||
    !(rg ≤ 2 || (out && rg == 3)) || (!out && rg != 0 && bit v.op0 84) || (out && bit v.op0 84) ||
    (out && rg == 3 && (if v.fn = 0 then (mapFind s.granary.spaces ns).isNone else ns != 0))

/-- A DMA verb with no packet unanswered completes (R583). -/
def dmaVerbCheck (s : State) (id : Nat) : State :=
  match verbOf s id with
  | none => s
  | some v =>
    if v.left ≠ 0 then s
    else
      match v.stop with
      | none => verbDone s v 0 (v.bytes % 2 ^ 32)
      | some (st, r) => verbDone s v st (v.bytes % 2 ^ 32 + r % 16 * 2 ^ 32)

/-- Send the packets of a DMA verb until one faults (R53, R583); the rows to write, none for a read. A write that names
no tally is marked in its CW field, which a WRITE does not use (log 24). -/
def dmaSend (v : Verb) (rows : Option (List (BitVec 128))) : State → List (Nat × Nat) → State
  | s, [] => s
  | s, (k, n) :: rest =>
    let a := dmaAddr v + 16 * k
    let who := fnAgent v.fn (bits v.op0 92 85)
    let port := ringPort s v.fn v.ring
    match accFault s who a n rows.isSome with
    | some (fa, r) =>
      let s1 := raise s .addrFault (if v.fn = 0 then none else some v.fn) 6 v.fn [(48, fa), (22, 2 ^ 21 + 0x18 + port), (8, r)]
      modVerb s1 v.id (fun v => { v with stop := some (0x07, r) })
    | none =>
      let short : Bool := match rows with
        | some l => l.length < k + n
        | none => false
      if short then modVerb s v.id (fun v => { v with stop := some (0x08, 0) })
      else
        let body := ((rows.getD []).drop k |>.take n).map (fun r => (r, false))
        let ty : PktType := if rows.isSome then .write else .readReq
        let named := bit v.op0 84
        let s1 := request s (.host port v.id (16 * k) n) (.die (0x18 + port)) ty (dieRouter port 0) (targetRouter s who (xlatAgent s who a))
          v.fn n (xlatAgent s who a) body (if named then bits v.op0 83 80 else 0) 0 (rows.isSome && !named)
        dmaSend v rows (modVerb s1 v.id (fun v => { v with left := v.left + 1 })) rest

/-- DMA_TO_DEVICE: the rows host memory gives, fewer than asked when a host read fails (R582, R583). -/
def execDmaToDevice (fn : FnId) (ring : Fin 8) (rows : List (BitVec 128)) (s : State) : Out :=
  .next (verbStart s fn ring 0x01 (fun v s =>
    if dmaBad s v false then verbDone s v 0x02
    else dmaVerbCheck (dmaSend v (some rows) s (packetsOf (dmaAddr v) (dmaLen v / 16))) v.id))

/-- The next verb of a ring is a DMA_TO_HOST that reads the Granary window before it is READY: it waits (R460). -/
def dmaWaits (s : State) (fn ring : Nat) : Bool :=
  match verbNext s fn ring 0x02 with
  | some v => nbits (dmaAddr v) 47 44 == 3 && !gryReady s
  | none => false

/-- DMA_TO_HOST; the byte offset from which the host refuses the data's writes, if any (R582, R583). -/
def execDmaToHost (fn : FnId) (ring : Fin 8) (bad : Option (BitVec 32)) (s : State) : Out :=
  .next (if dmaWaits s fn ring then s else verbStart s fn ring 0x02 (fun v s =>
    if dmaBad s v true then verbDone s v 0x02
    else
      let lim := match bad with
        | none => dmaLen v
        | some b => b.toNat
      dmaVerbCheck (dmaSend v none (modVerb s v.id (fun v => { v with aux := lim })) (packetsOf (dmaAddr v) (dmaLen v / 16))) v.id))

/-- A packet of a DMA verb is answered: acknowledged, or with the status that stops the verb (R583). -/
def dmaVerbAnswer (s : State) (id rows : Nat) (bad : Option Nat) : State :=
  dmaVerbCheck (modVerb s id (fun v =>
    match bad with
    | none => { v with left := v.left - 1, bytes := v.bytes + 16 * rows }
    | some st => { v with left := v.left - 1, stop := some (v.stop.getD (st, 0)) })) id

/-- READ_DATA of a DMA_TO_HOST verb: its rows go to host memory, unless its function or port was reset meanwhile (R582, R583, R588,
R614). -/
def dmaVerbData (s : State) (id off : Nat) (rows : List (BitVec 128)) : State :=
  match verbOf s id with
  | none => s
  | some v =>
    if v.silent ∨ off + 16 * rows.length > v.aux then dmaVerbAnswer s id rows.length (some 0x08)
    else dmaVerbAnswer (hostSend s (.write (ringPort s v.fn v.ring) (dmaHostAddr v + off) rows)) id rows.length none

/-! ### Resets of the host side -/

/-- A Function Level Reset (R588). -/
def flr (s : State) (fn : Nat) : State :=
  let h := s.host
  let keep := fun (k : Nat) => k / 8 == fn
  let h1 := { h with
    verbs := (h.verbs.filter (fun v => v.fn != fn || v.started)).map (fun v => if v.fn = fn then { v with silent := true } else v)
    cpls := h.cpls.filter (fun c => c.fn != fn)
    tails := mapDrop keep h.tails, passes := mapDrop keep h.passes }
  let s1 := resetRegs (setHost s h1) (fun k => keyScope k == 6 && keyUnit k == fn && keyBlk k == 0xF)
  { s1 with evq := mapMod {} s1.evq fn (fun q => { q with pass := false }) }

/-- FUNCTION_LEVEL_RESET (R588). -/
def execFunctionLevelReset (fn : FnId) (s : State) : Out := .next (flr s fn)

/-- VF_ENABLE_CLEAR: a Function Level Reset of every virtual function of the port (R588). -/
def execVfEnableClear (port : HostPort) (s : State) : Out :=
  .next (setRegF ((List.range 63).foldl (fun s k => flr s (k + 1)) s) (rPortSt port) 5 0 0)

/-- A host port goes down (R589): cause 1 LINK, 2 PERST. -/
def hostDown (s : State) (port cause : Nat) : State :=
  let gone := fun (fn ring : Nat) => ringPort s fn ring == port
  let h := s.host
  let h1 := { h with
    verbs := h.verbs.map (fun v => if v.started && gone v.fn v.ring then { v with silent := true } else v)
    cpls := h.cpls.filter (fun c => !gone c.fn c.ring) }
  let lo := 0x80 + 0x40 * port
  let s1 := resetRegs (setHost s h1) (fun k => keyScope k == 6 && keyBlk k == 0xF && lo ≤ keyOff k && keyOff k < lo + 0x40)
  let s2 := incReg s1 (rDie (0x18 + port) 0xF 8)
  raise s2 .hostPortDown none 5 (0x18 + port) [(3, port), (4, cause)]

/-- HOST_PORT_DOWN: the link drops, or PERST is asserted (R589). -/
def execHostPortDown (port : HostPort) (perst : Bool) (s : State) : Out :=
  .next (
    let up := portUp s port
    let s1 := setRegF s (rPortSt port) 31 31 0
    let s2 := if perst then orReg s1 (rPortSt port) (2 ^ 30) else s1
    if up then hostDown s2 port (1 + bnat perst) else s2)

/-- HOST_LINK_UP: the link comes up with its speed, width and mode, and PERST is not in force (R589, R618). -/
def execHostLinkUp (port : HostPort) (speed width flit : Nat) (numVfs : Fin 64) (s : State) : Out :=
  .next (setReg s (rPortSt port) (word (packFields [(6, numVfs.val), (14, 0), (1, flit), (5, width), (4, speed), (1, 0), (1, 1)])))

end Sys2Proof.Machine
end

