-- ==== Sys2Proof/Machine/Journal.lean ====
section
/-!
DEFINITION. The Granary's journal records as the bits of their pages, and what the records say of blocks, namespaces and
committals when they are read back (R457 to R460).
-/
namespace Sys2Proof.Machine

/-! ### Pages -/

/-- CRC-32C, one bit, and the n bits of a byte (log 25). -/
def crcBits : Nat → Nat → Nat
  | 0, c => c
  | n + 1, c => crcBits n (if c % 2 = 1 then c / 2 ^^^ 0x82F63B78 else c / 2)
/-- CRC-32C of n bytes of a number, the lowest first. -/
def crcBytes : Nat → Nat → Nat → Nat
  | 0, _, c => c
  | n + 1, v, c => crcBytes n (v / 256) (crcBits 8 (c ^^^ (v % 256)))
/-- The CRC of a record, over its bits [511:32] (R457). -/
def jCrc (w : Nat) : Nat := crcBytes 60 (w / 2 ^ 32) 0xFFFFFFFF ^^^ 0xFFFFFFFF

/-- DATA of a record, bits [303:48], by its kind (R458). -/
def jData (kind : Nat) (d : List Nat) : Nat :=
  let x := fun (k : Nat) => d.getD k 0
  match kind with
  | 0x1 => packFields [(207, 0), (8, x 3), (1, x 2), (20, x 1), (20, x 0)]
  | 0x2 => packFields (d.map (fun e => (32, e)))
  | 0x4 => packFields [(231, 0), (25, x 0)]
  | 0x6 | 0x8 => packFields [(248, 0), (8, x 0)]
  | 0x9 => packFields [(218, 0), (25, x 1), (13, x 0)]
  | 0xA => packFields [(236, 0), (20, x 0)]
  | 0xC => packFields [(244, 0), (2, x 1), (10, x 0)]
  | _ => 0
/-- The fields of DATA, read back from the whole record (R458). -/
def jFields (kind w : Nat) : List Nat :=
  match kind with
  | 0x1 => [nbits w 303 284, nbits w 283 264, nbits w 263 263, nbits w 262 255]
  | 0x2 => ((List.range 8).map (fun k => nbits w (79 + 32 * k) (48 + 32 * k))).filter (fun e => e != 0)
  | 0x4 => [nbits w 303 279]
  | 0x6 | 0x8 => [nbits w 303 296]
  | 0x9 => [nbits w 303 291, nbits w 290 266]
  | 0xA => [nbits w 303 284]
  | 0xC => [nbits w 303 294, nbits w 293 292]
  | _ => []

/-- A record's 64 bytes (R457). -/
def jrecBits (r : JRec) : BitVec 512 :=
  let w := packFields [(32, 0), (16, 0), (256, jData r.kind r.data), (64, r.time), (16, r.pe), (11, 0), (13, r.phys), (7, r.region % 80),
    (1, r.region / 80), (12, 0), (20, r.mblock), (32, r.commit), (16, r.handle), (8, r.nsid), (8, r.kind)]
  BitVec.ofNat 512 (w + jCrc w)
/-- The record of a page; none where its CRC fails (R457). -/
def jrecOf (b : BitVec 512) : Option JRec :=
  let w := b.toNat
  if nbits w 31 0 ≠ jCrc w then none
  else
    some { kind := nbits w 511 504, nsid := nbits w 503 496, handle := nbits w 495 480, commit := nbits w 479 448
           mblock := nbits w 447 428, region := 80 * nbits w 415 415 + nbits w 414 408, phys := nbits w 407 395
           pe := nbits w 383 368, time := nbits w 367 304, data := jFields (nbits w 511 504) w }
/-- The records of a journal whose CRC holds (R457). -/
def jRecords (l : List (BitVec 512)) : List JRec := l.filterMap jrecOf

/-! ### What a region's journal says -/

/-- The model blocks a region's journal names: committal, model block, physical block and length. A BLOCK record names one, a
RELOCATE record moves the one at its old block, and an ERASE record ends those at its block (R458, R460). -/
def jBlocks (l : List JRec) : List (Nat × Nat × Nat × Nat) :=
  l.foldl (fun (a : List (Nat × Nat × Nat × Nat)) r =>
    match r.kind with
    | 0x3 => a.filter (fun e => e.2.2.1 != r.phys)
    | 0x4 => a.filter (fun e => !(e.1 == r.commit && e.2.1 == r.mblock)) ++ [(r.commit, r.mblock, r.phys, r.data.getD 0 0)]
    | 0x9 => a.map (fun e => if e.2.1 = r.mblock ∧ e.2.2.1 = r.data.getD 0 0 then (e.1, e.2.1, r.phys, r.data.getD 1 0) else e)
    | _ => a) []
/-- The poisoned codewords a region's journal names, by physical block (R458, R477). -/
def jPoison (l : List JRec) : SMap (List Nat) :=
  l.foldl (fun (m : SMap (List Nat)) r =>
    match r.kind with
    | 0x3 | 0x4 => mapErase m r.phys
    | 0x9 => mapSet [] (mapErase m (r.data.getD 0 0)) r.phys (mapGet [] m (r.data.getD 0 0))
    | 0xC => mapMod [] m r.phys (fun p => setAdd p (4 * r.data.getD 0 0 + r.data.getD 1 0))
    | _ => m) []
/-- The P/E count that a region's journal gives a block: that of the last record that names it (R459). -/
def jPe (l : List JRec) (b : Nat) : Option Nat :=
  ((l.filter (fun r => r.phys == b)).getLast?).map (fun r => r.pe)
/-- A block is retired (R458, R480). -/
def jRetired (l : List JRec) (b : Nat) : Bool := l.any (fun r => r.kind == 0x8 && r.phys == b)

/-! ### What the master journal says -/

/-- The records of the two master copies together, in order (R460). -/
def jMaster (a b : List (BitVec 512)) : List JRec := jRecords (a ++ b.filter (fun w => !a.contains w))
/-- A copy with the SEAL, ABORT and FREE records of the other that it lacks (R460). -/
def jMend (a b : List (BitVec 512)) : List (BitVec 512) :=
  a ++ b.filter (fun w => !a.contains w && (match jrecOf w with | some r => r.kind == 5 || r.kind == 6 || r.kind == 7 | none => false))
/-- True when a record of a kind names a committal. -/
def jHas (l : List JRec) (kind commit : Nat) : Bool := l.any (fun r => r.kind == kind && r.commit == commit)
/-- The committal of the model that a repair's BEGIN record repairs: the last before it of the handle (R452, R460). -/
def jRepairs (l : List JRec) (c : JRec) : Option Nat :=
  ((l.filter (fun r => r.kind == 1 && r.data.getD 2 0 == 0 && r.nsid == c.nsid && r.handle == c.handle && r.commit < c.commit)).getLast?).map
    (fun r => r.commit)
/-- A committal is freed: a FREE record names it, or the model it repairs (R460). -/
def jFreed (l : List JRec) (c : JRec) : Bool :=
  jHas l 7 c.commit || (c.data.getD 2 0 == 1 && (match jRepairs l c with | some b => jHas l 7 b | none => false))
/-- The placement of a committal, from its PLACE records (R448, R458). -/
def jPlace (l : List JRec) (commit : Nat) : List (Nat × Nat) :=
  ((l.filter (fun r => r.kind == 2 && r.commit == commit)).flatMap (fun r => r.data)).map
    (fun e => (80 * nbits e 31 31 + nbits e 30 24, nbits e 12 0))

end Sys2Proof.Machine
end

