-- ==== Sys2Proof/Machine/Granary.lean ====
section
/-!
DEFINITION. The Granary's stored side (R435 to R462, R474 to R482): blocks, namespaces, committals, the journal, wear,
scrubbing and refresh.
-/
namespace Sys2Proof.Machine

/-- A field-scope register of the Granary, with the ring its selector names (R483, R484). -/
def rGryF (f off : Nat) (sel : Nat := 0) : RegLoc := rField f 0xA off sel
/-- A field with its half, as an event names it (R585). -/
def regionCode (f : Nat) : Nat := f / 80 * 128 + f % 80

def setGry (s : State) (g : Granary) : State := { s with granary := g }
def setRegion (s : State) (f : Nat) (r : Region) : State := setGry s { s.granary with regions := mapSet {} s.granary.regions f r }
def modRegion (s : State) (f : Nat) (k : Region → Region) : State := setRegion s f (k (region s f))
/-- Change a block of a region. -/
def modBlk (s : State) (f b : Nat) (k : GBlock → GBlock) : State :=
  modRegion s f (fun r => { r with blocks := mapMod {} r.blocks b k })

/-- A record of a region's journal, with the time and the block's P/E count (R457). -/
def jAdd (s : State) (f : Nat) (r : JRec) : State :=
  modRegion s f (fun g => { g with journal := g.journal ++ [jrecBits { r with region := f, pe := (gblock g r.phys).pe, time := s.time }] })
/-- A record of both master copies (R455 to R458). -/
def mAdd (s : State) (r : JRec) : State :=
  let w := jrecBits { r with time := s.time }
  setGry s { s.granary with master0 := s.granary.master0 ++ [w], master1 := s.granary.master1 ++ [w] }

/-! ### Blocks, pages and planes (R435, R436) -/

/-- The plane of a page of a block, and which of that plane's pages it is (R435). -/
def pagePlane (p : Nat) : Nat × Nat := (p % 512, p / 512)
/-- The page of a byte of a block (R435). -/
def bytePage (b : Nat) : Nat := b / 16384
/-- The roles of a region's physical blocks (R436). -/
inductive BlkRole where
  | journal
  | calibration
  | data
  deriving DecidableEq, Repr
def blkRole (b : Nat) : BlkRole := if b < 4 then .journal else if b < 6 then .calibration else .data
/-- A row of a calibration block: the fixed pattern, which the manual does not give (R436, log 2). -/
def calibRow (o : Nat) : BitVec 512 := Config.freeVec (2 ^ 64 + o)
/-- The journal block and page that hold the k-th record of a region's journal (R436, R457, log 25). -/
def journalAt (k : Nat) : Nat × Nat := (k / 1024 % 4, k % 1024)
/-- The data-capable blocks listed of a region (R436). -/
def dataBlks (r : Region) : List (Nat × GBlock) := r.blocks.filter (fun e => blkRole e.1 == .data)
/-- The XTS tweak of the codeword that holds a namespace offset (R444). -/
def xtsTweak (off : Nat) : BitVec 128 := BitVec.ofNat 128 (off / 4096)

/-- The data-capable blocks in no free pool. -/
def takenBlks (r : Region) : List (Nat × GBlock) := (dataBlks r).filter (fun e => e.2.st != .free)
/-- Free data-capable blocks of a region (R483). -/
def freeBlks (r : Region) : Nat := 6906 - (takenBlks r).length
/-- Retired blocks of a region (R483). -/
def retiredBlks (r : Region) : Nat := ((dataBlks r).filter (fun e => e.2.st == .retired)).length
/-- Spare count of a half (R437). -/
def spareCount (s : State) (h : Nat) : Nat :=
  80 * 6906 - ((List.range 80).map (fun k => retiredBlks (region s (80 * h + k)))).sum - 524288

/-- The free block to program next (R453): erased before not, then the lowest P/E count, then the lowest number. -/
def pickBlk (r : Region) : Option Nat :=
  let listed := (dataBlks r).filterMap (fun e => if e.2.st == .free then some (bnat (!e.2.erased), e.2.pe, e.1) else none)
  let fresh := ((List.range 6906).map (· + 6)).find? (fun k => (mapFind r.blocks k).isNone)
  let all := listed ++ (match fresh with | some k => [(0, 0, k)] | none => [])
  let less := fun (a b : Nat × Nat × Nat) => a.1 < b.1 || (a.1 == b.1 && (a.2.1 < b.2.1 || (a.2.1 == b.2.1 && a.2.2 < b.2.2)))
  (all.foldl (fun (m : Option (Nat × Nat × Nat)) a => match m with
    | none => some a
    | some x => if less a x then some a else some x) none).map (fun a => a.2.2)

/-- WEAR_NOTICE: the first block of a region whose P/E count reaches 2 700 (R480). -/
def wearCheck (s : State) (f b : Nat) : State :=
  let pe := (gblock (region s f) b).pe
  if pe ≠ 2700 ∨ blkRole b ≠ .data ∨ ((dataBlks (region s f)).filter (fun e => e.2.pe ≥ 2700)).length ≠ 1 then s
  else raise s .wearNotice none 2 (fieldUnit f) [(8, regionCode f), (16, b), (16, pe)]

/-- Erase a block: an ERASE record that already counts the cycle, then blank contents (R456, R459). -/
def eraseBlk (s : State) (f b : Nat) : State :=
  let s1 := jAdd (modBlk s f b (fun k => { k with pe := k.pe + 1 })) f { kind := 3, phys := b }
  wearCheck (modBlk s1 f b (fun k => { k with erased := true, len := 0, data := {}, reads := 0, marked := false, poison := [] })) f b

/-- A half is read-only for committals (R480, R485). -/
def readOnly (s : State) (h : Nat) : Bool := spareCount s h < 10486
/-- WEAR_READONLY as a retirement takes a half's spare count below 2% (R480); `was`: the half was read-only before. -/
def readonlyCheck (s : State) (h : Nat) (was : Bool) : State :=
  if was || !readOnly s h then s else raise s .wearReadonly none 0 0 [(1, h), (16, spareCount s h)]

/-- Retire a block (R480): cause 1 verify depth, 2 program fail, 3 erase fail. -/
def retireBlk (s : State) (f b cause : Nat) : State :=
  let was := readOnly s (f / 80)
  let s1 := modBlk s f b (fun k => { k with st := .retired })
  let s2 := jAdd s1 f { kind := 8, phys := b, data := [cause] }
  readonlyCheck (raise s2 .blockRetired none 2 (fieldUnit f)
    [(8, regionCode f), (16, b), (8, cause), (16, (gblock (region s2 f) b).pe)]) (f / 80) was

/-- Programming and erasing are held in a region (R479). -/
def gryHeld (s : State) (f : Nat) : Bool := regBit s (rGryF f 0) 2 || regBit s (rGryF f 0) 3

/-- A running load that reads a physical block (R456, R477). -/
def blkRead (s : State) (f b : Nat) : Bool :=
  s.granary.regions.any (fun e => e.2.runs.any (fun q => q.src.any (fun m => m.2.1 == f && m.2.2.1 == b)))

/-- Return a block to the free pool, once no load reads it (R456, R477). -/
def freeBlk (s : State) (e : Nat × Nat) : State :=
  modBlk s e.1 e.2 (fun k => { k with st := if blkRead s e.1 e.2 then .dying else .free, erased := false, marked := false })

/-- Blocks whose last reader has ended return to the pool. -/
def reapBlks (s : State) (f : Nat) : State :=
  ((region s f).blocks.filter (fun e => e.2.st == .dying && !blkRead s f e.1)).foldl
    (fun s e => modBlk s f e.1 (fun k => { k with st := .free })) s

/-! ### Namespaces and models -/

/-- Change a committal or model by its identifier. -/
def modModel (s : State) (id : Nat) (k : Model → Model) : State :=
  setGry s { s.granary with models := s.granary.models.map (fun m => if m.commit = id then k m else m) }
def dropModel (s : State) (id : Nat) : State :=
  setGry s { s.granary with models := s.granary.models.filter (fun m => m.commit != id) }
def modelOf (s : State) (id : Nat) : Option Model := s.granary.models.find? (fun m => m.commit == id)
/-- The model of a handle, its repairs apart. -/
def byHandle (s : State) (nsid h : Nat) : Option Model :=
  s.granary.models.find? (fun m => m.nsid == nsid && m.handle == h && !m.repair)

/-- The partition bound to a namespace (R441). -/
def nsPart (s : State) (nsid : Nat) : Option Nat := (List.range 64).find? (fun p => boundNs s p == some nsid)

/-- The physical blocks of a model. -/
def modelBlks (m : Model) : List (Nat × Nat) := m.done.map (fun e => (e.2.1, e.2.2.1))
/-- Blocks a committal or model counts for: those of its placement (R451, R452). -/
def placed (m : Model) : Nat := if m.repair then m.place.length else (m.place.map Prod.snd).sum
/-- Blocks allocated to a namespace (R485). -/
def nsAlloc (s : State) (nsid : Nat) : Nat := ((s.granary.models.filter (fun m => m.nsid == nsid)).map placed).sum
/-- A namespace's quota (R440). -/
def nsQuota (s : State) (nsid : Nat) : Nat :=
  match mapFind s.granary.spaces nsid with
  | none => 0
  | some n => if n.quota = 0 then 1048576 else n.quota

/-- Open or suspended. -/
def pendingSt (m : Model) : Bool := m.st == .open_ || m.st == .suspended

/-- The region a model block is placed in (R448, R452). -/
def placeRegion : List (Nat × Nat) → Nat → Option Nat
  | [], _ => none
  | (f, n) :: r, k => if k < n then some f else placeRegion r (k - n)
def blkRegion (m : Model) (k : Nat) : Option Nat :=
  if m.repair then (m.place.find? (fun e => e.1 == k)).map Prod.snd else placeRegion m.place k

/-- Blocks of a region reserved by committals and not yet taken from the pool: neither done nor being programmed. -/
def reserved (s : State) (f : Nat) : Nat :=
  ((s.granary.models.filter pendingSt).map (fun m =>
    let n := if m.repair then (m.place.filter (fun e => e.2 == f)).length
      else ((m.place.filter (fun e => e.1 == f)).map Prod.snd).sum
    n - (m.done.filter (fun e => e.2.1 == f)).length -
      ((region s f).jobs.filter (fun j => j.commit == m.commit && j.phys.isSome)).length)).sum

/-- Poisoned codewords of a model. -/
def poisoned (s : State) (m : Model) : Nat := (m.done.map (fun e => (gblock (region s e.2.1) e.2.2.1).poison.length)).sum
/-- Model blocks that hold a poisoned codeword, with their regions (R452). -/
def badBlks (s : State) (m : Model) : List (Nat × Nat) :=
  (m.done.filter (fun e => !(gblock (region s e.2.1) e.2.2.1).poison.isEmpty)).map (fun e => (e.1, e.2.1))

/-- True when a function may act on a namespace (R441). -/
def nsPermits (s : State) (fn nsid : Nat) : Bool := fn == 0 || boundNs s fn == some nsid

/-- The Hopper rows of a model's handle in the bound partition take a state at the next beat (R392, R447). -/
def rowsNext (s : State) (m : Model) (st : Nat) : State :=
  match nsPart s m.nsid with
  | none => s
  | some p => { s with hop := { s.hop with models := s.hop.models ++ [(p, m.handle, st)] } }

/-- The key slots of a half that is up take the keys of the namespaces there are (R444, log 118). -/
def keysLoad (s : State) (h : Nat) : State :=
  if !halfUp s h then s
  else { s with halves := mapMod {} s.halves h (fun x => { x with keySlots := s.granary.spaces.map (fun e => (e.1, e.2.key1, e.2.key2)) }) }

/-- NS_CREATE (R440, R444, R448): a namespace that exists is WRONG_STATE; the quotas together may not exceed the
module's blocks. -/
def execNsCreate (fn : FnId) (ring : Fin 8) (s : State) : Out :=
  .next (verbStart s fn ring 0x50 (fun v s =>
    let nsid := bits v.op0 7 0
    let q := bits v.op0 27 8
    let n := if q = 0 then 1048576 else q
    let total := (s.granary.spaces.map (fun e => nsQuota s e.1)).sum
    if !gryReady s then verbDone s v 0x17
    else if v.fn ≠ 0 then verbDone s v 0x1A
    else if (mapFind s.granary.spaces nsid).isSome then verbDone s v 0x04
    else if total + n > 1048576 then verbDone s v 0x18
    else
      let (d, s1) := draw s
      let x : Ns := ⟨q, (Config.freeVec d).extractLsb' 0 256, (Config.freeVec d).extractLsb' 256 256⟩
      let s2 := keysLoad (keysLoad (setGry s1 { s1.granary with spaces := mapInsert s1.granary.spaces nsid x }) 0) 1
      verbDone (mAdd s2 { kind := 0xA, nsid := nsid, data := [q] }) v 0))

/-- The front job of a region takes a physical block, erasing it first when none is erased (R453, R456); with none free
its verb ends with NO_SPACE (R481), and so on through the n jobs that wait. -/
def progNext (f : Nat) : Nat → State → State
  | 0, s => s
  | n + 1, s =>
    match (region s f).jobs with
    | [] => s
    | j :: rest =>
      if j.phys.isSome then s
      else if gryHeld s f then modRegion s f (fun r => { r with jobs := { j with held := true } :: rest })
      else
        match pickBlk (region s f) with
        | none => progNext f n (verbEnd (modRegion s f (fun r => { r with jobs := rest })) j.verb 0x11)
        | some b =>
          let s1 := if (gblock (region s f) b).erased then s else eraseBlk s f b
          let s2 := modBlk s1 f b (fun k => { k with st := .used, erased := false })
          modRegion s2 f (fun r => { r with jobs := { j with phys := some b, held := false } :: rest })

/-- The next job of a region begins (R454). -/
def progBegin (s : State) (f : Nat) : State := progNext f (region s f).jobs.length s

/-- End a committal: its record, its blocks freed, its verbs in progress completed with RESET where the cause is the end
of its namespace (R456, R482). -/
def abortCommit (cause : Nat) (s : State) (m : Model) : State :=
  let s1 := mAdd s { kind := 6, nsid := m.nsid, handle := m.handle, commit := m.commit, data := [cause] }
  let jobs := s1.granary.regions.flatMap (fun e => (e.2.jobs.filter (fun j => j.commit == m.commit)).map (fun j => (e.1, j)))
  let s2 := jobs.foldl (fun s e =>
    let s := modRegion s e.1 (fun r => { r with jobs := r.jobs.filter (fun j => j.commit != m.commit) })
    let s := match e.2.phys with
      | some b => freeBlk s (e.1, b)
      | none => s
    progBegin (verbEnd s e.2.verb 0x19) e.1) s1
  dropModel ((modelBlks m).foldl freeBlk s2) m.commit

/-- NS_DESTROY: the keys go first, then the blocks (R444, R482). -/
def execNsDestroy (fn : FnId) (ring : Fin 8) (s : State) : Out :=
  .next (verbStart s fn ring 0x51 (fun v s =>
    let nsid := bits v.op0 7 0
    if !gryReady s then verbDone s v 0x17
    else if v.fn ≠ 0 then verbDone s v 0x1A
    else if (mapFind s.granary.spaces nsid).isNone then verbDone s v 0x04
    else
      let s1 := keysLoad (keysLoad (setGry s { s.granary with spaces := mapErase s.granary.spaces nsid }) 0) 1
      let mine := s1.granary.models.filter (fun m => m.nsid == nsid)
      let s2 := (mine.filter pendingSt).foldl (abortCommit 3) s1
      let s3 := (mine.filter (fun m => !pendingSt m)).foldl (fun s m => rowsNext (dropModel ((modelBlks m).foldl freeBlk s) m.commit) m 0) s2
      verbDone (mAdd s3 { kind := 0xB, nsid := nsid }) v 0))

/-- Fields of a placement entry (R448): region and blocks; none for a field out of range or a reserved bit set. -/
def placeEntry (w : Word) : Option (Nat × Nat) :=
  if bits w 30 24 > 79 ∨ bits w 23 13 ≠ 0 ∨ bits w 12 0 = 0 then none
  else some (bits w 31 31 * 80 + bits w 30 24, bits w 12 0)

/-- The least block at which a free range of n blocks begins in a namespace (R443). -/
def nsBase (s : State) (nsid n : Nat) : Option Nat :=
  let used := (s.granary.models.filter (fun m => m.nsid == nsid && !m.repair)).map (fun m => (m.base, m.base + m.blocks))
  let starts := (0 :: used.map Prod.snd).filter (fun b => b + n ≤ 1048576 && used.all (fun e => b + n ≤ e.1 || e.2 ≤ b))
  starts.foldl (fun (m : Option Nat) b => some (match m with | none => b | some x => min x b)) none

/-- The fault of a verb's access to a list or source in the device (R53): address and reason. -/
def srcFault (s : State) (fn : Nat) (dev : Bool) (addr n : Nat) : Option (Nat × Nat) :=
  if !dev then none
  else if addr ≥ 2 ^ 48 then some (addr % 2 ^ 48, 1)
  else accFault s (fnAgent fn 0) addr ((addr % 16 + n + 15) / 16) false
/-- ADDR_FAULT of a verb whose list or source faults (R53). -/
def srcSay (s : State) (v : Verb) (dev : Bool) (addr n : Nat) : State :=
  match srcFault s v.fn dev addr n with
  | none => s
  | some (fa, r) => raise s .addrFault (if v.fn = 0 then none else some v.fn) 6 v.fn
      [(48, fa), (22, 2 ^ 21 + 0x18 + ringPort s v.fn v.ring), (8, r)]

/-- Reads of a list or source: bytes a bin holds, else what the read of host memory or of a crib gives; none where the
read faults or meets poison (R448, R450). -/
def srcBytes (s : State) (fn : Nat) (dev : Bool) (addr n : Nat) (given : Option (List Byte)) : Option Mem :=
  let given := given.map (memOfBytes 0)
  if !dev then given
  else
    let rg := nbits addr 47 44
    if (rg ≠ 1 ∧ rg ≠ 2) ∨ (srcFault s fn dev addr n).isSome then none
    else if rg = 2 then given
    else
      let b := nbits addr 39 36
      let o := nbits addr 35 0
      if (List.range ((o + n - 1) / 64 - o / 64 + 1)).any (fun k => (binSt s b).poison.contains (o / 64 + k)) then none
      else some (memPut {} 0 (memGet (binSt s b).mem o n) n)

/-- The committal counts of R450: 16 in the namespace, 64 in the module. -/
def commitLimit (s : State) (nsid : Nat) : Bool :=
  let open_ := s.granary.models.filter pendingSt
  (open_.filter (fun m => m.nsid == nsid)).length ≥ 16 || open_.length ≥ 64

/-- The halves of a placement that are read-only (R480). -/
def roHalf (s : State) (fs : List Nat) : Bool := fs.any (fun f => readOnly s (f / 80))

/-- Blocks allocated or reserved in a half (R437). -/
def halfAlloc (s : State) (h : Nat) : Nat :=
  ((List.range 80).map (fun k =>
    let r := region s (80 * h + k)
    (takenBlks r).length - retiredBlks r + reserved s (80 * h + k))).sum

/-- NO_SPACE: a region, or a half, cannot take blocks placed as (region, count) (R437, R450). -/
def noRoom (s : State) (pl : List (Nat × Nat)) : Bool :=
  let need := fun (f : Nat) => ((pl.filter (fun e => e.1 == f)).map Prod.snd).sum
  pl.any (fun e => need e.1 + reserved s e.1 > freeBlks (region s e.1)) ||
    [0, 1].any (fun h => halfAlloc s h + ((pl.filter (fun e => e.1 / 80 == h)).map Prod.snd).sum > 524288)

/-- A commit of a placement list opens: its model, and its journal records (R448, R449). -/
def commitOpen (s : State) (v : Verb) (pl : List (Nat × Nat)) (base : Nat) : State :=
  let nsid := bits v.op0 7 0
  let handle := bits v.op0 23 8
  let total := (pl.map Prod.snd).sum
  let id := s.granary.nextId
  let m : Model := { commit := id, nsid := nsid, handle := handle, part := if v.fn = 0 then none else some v.fn
                     st := .open_, base := base, blocks := total, place := pl }
  let s1 := setGry s { s.granary with models := s.granary.models ++ [m], nextId := id + 1 }
  let s2 := mAdd s1 { kind := 1, nsid := nsid, handle := handle, commit := id, data := [base, total, 0, pl.length] }
  (List.range ((pl.length + 7) / 8)).foldl (fun s k => mAdd s
    { kind := 2, nsid := nsid, handle := handle, commit := id
      data := ((pl.drop (8 * k)).take 8).map (fun e => e.1 / 80 * 2 ^ 31 + e.1 % 80 * 2 ^ 24 + e.2) }) s2

/-- COMMIT_BEGIN with REPAIR 0, its checks in R451's order; the list as read. -/
def execCommitBegin (fn : FnId) (ring : Fin 8) (list : Option (List Byte)) (s : State) : Out :=
  .next (
    match verbNext s fn ring 0x52 with
    | none => s
    | some v0 =>
      if bit v0.op0 24 then s
      else verbStart s fn ring 0x52 (fun v s =>
        let nsid := bits v.op0 7 0
        let handle := bits v.op0 23 8
        let n := bits v.op0 39 32
        if !gryReady s then verbDone s v 0x17
        else if !nsPermits s v.fn nsid then verbDone s v 0x1A
        else
          let entries := (srcBytes s v.fn (bit v.op0 25) (bits v.op1 63 0) (4 * n) list).bind (fun m =>
            (List.range n).mapM (fun k => placeEntry (word (memGet m (4 * k) 4))))
          match entries with
          | none => verbDone (srcSay s v (bit v.op0 25) (bits v.op1 63 0) (4 * n)) v 0x02
          | some pl =>
            let total := (pl.map Prod.snd).sum
            if handle = 0xFFFF ∨ n = 0 ∨ n > 160 ∨ (mapFind s.granary.spaces nsid).isNone then verbDone s v 0x02
            else if roHalf s (pl.map Prod.fst) then verbDone s v 0x12
            else if (byHandle s nsid handle).isSome then verbDone s v 0x13
            else if commitLimit s nsid then verbDone s v 0x1C
            else if nsAlloc s nsid + total > nsQuota s nsid then verbDone s v 0x18
            else
              match noRoom s pl, nsBase s nsid total with
              | true, _ | _, none => verbDone s v 0x11
              | false, some base =>
                verbDone (commitOpen s v pl base) v 0 (packFields [(32, s.granary.nextId), (20, base), (20, total)])))

/-- COMMIT_BEGIN with REPAIR 1 (R452). -/
def execCommitRepairBegin (fn : FnId) (ring : Fin 8) (s : State) : Out :=
  .next (
    match verbNext s fn ring 0x52 with
    | none => s
    | some v0 =>
      if !bit v0.op0 24 then s
      else verbStart s fn ring 0x52 (fun v s =>
        let nsid := bits v.op0 7 0
        let handle := bits v.op0 23 8
        if !gryReady s then verbDone s v 0x17
        else if !nsPermits s v.fn nsid then verbDone s v 0x1A
        else if handle = 0xFFFF ∨ (mapFind s.granary.spaces nsid).isNone then verbDone s v 0x02
        else
          match byHandle s nsid handle with
          | none => verbDone s v 0x04
          | some m =>
            let bad := badBlks s m
            if m.st ≠ .degraded ∨ s.granary.models.any (fun r => r.repair && r.nsid == nsid && r.handle == handle && pendingSt r)
            then verbDone s v 0x04
            else if roHalf s (bad.map Prod.snd) then verbDone s v 0x12
            else if commitLimit s nsid then verbDone s v 0x1C
            else if nsAlloc s nsid + bad.length > nsQuota s nsid then verbDone s v 0x18
            else if noRoom s (bad.map (fun e => (e.2, 1))) then verbDone s v 0x11
            else
              let id := s.granary.nextId
              let r : Model := { commit := id, nsid := nsid, handle := handle, part := if v.fn = 0 then none else some v.fn
                                 st := .open_, base := m.base, blocks := m.blocks, place := bad, repair := true }
              let s1 := setGry s { s.granary with models := s.granary.models ++ [r], nextId := id + 1 }
              let s2 := mAdd s1 { kind := 1, nsid := nsid, handle := handle, commit := id, data := [m.base, m.blocks, 1, 0] }
              verbDone s2 v 0 (packFields [(32, id), (20, m.base), (20, m.blocks)])))

/-! ### Programming -/

/-- COMMIT_DATA (R453, R454, R456); the source's bytes as read. -/
def execCommitData (fn : FnId) (ring : Fin 8) (data : Option (List Byte)) (s : State) : Out :=
  .next (verbStart s fn ring 0x53 (fun v s =>
    let k := bits v.op0 51 32
    let len := bits v.op0 77 53
    match modelOf s (bits v.op0 31 0) with
    | none => verbDone s v (if gryReady s then 0x04 else 0x17)
    | some m =>
      if !gryReady s then verbDone s v 0x17
      else if !nsPermits s v.fn m.nsid then verbDone s v 0x1A
      else if len = 0 ∨ len > 16777216 ∨ k ≥ m.blocks then verbDone s v 0x02
      else if m.st ≠ .open_ then verbDone s v 0x04
      else
        match blkRegion m k, mapFind m.done k with
        | none, _ => verbDone s v 0x10
        | _, some _ => verbDone s v 0x10
        | some f, none =>
          if (region s f).jobs.any (fun j => j.commit == m.commit && j.mblock == k) then verbDone s v 0x04
          else
            match srcBytes s v.fn (bit v.op0 52) (bits v.op1 63 0) len data with
            | none => verbDone (srcSay s v (bit v.op0 52) (bits v.op1 63 0) len) v 0x16
            | some bytes =>
              progBegin (modRegion s f (fun r => { r with jobs := r.jobs ++
                [{ verb := v.id, commit := m.commit, mblock := k, bytes := bytes, len := len }] })) f))

/-- The deepest program-verify loop count of a region is kept in GRY_F_VERIFY (R480). -/
def verifyDepth (s : State) (f : FieldId) (depth : Nat) : State :=
  if regF s (rGryF f 0xC) 7 0 < depth then setRegF s (rGryF f 0xC) 7 0 (min depth 255) else s

/-- COMMIT_DATA_DONE: the block's pages have been programmed, with the deepest verify loop count; or a program failed
(R453, R480, R481). A block that retires is replaced by another. -/
def execCommitDataDone (f : FieldId) (depth : Nat) (fail : Bool) (s : State) : Out :=
  .next (
    match (region s f).jobs with
    | [] => s
    | j :: rest =>
      match j.phys with
      | none => s
      | some b =>
        if j.held then s
        else
          let s0 := incReg s (rGryF f 0x20) ((j.len + 16383) / 16384)
          let s1 := verifyDepth s0 f depth
          if fail || depth > regF s (rGry 0x14) 7 0 then
            let s2 := retireBlk s1 f b (if fail then 2 else 1)
            progBegin (modRegion s2 f (fun r => { r with jobs := { j with phys := none } :: rest })) f
          else
            let s2 := modBlk s1 f b (fun k => { k with len := j.len, data := j.bytes, reads := 0, poison := [] })
            let (nsid, handle) := match modelOf s2 j.commit with
              | some m => (m.nsid, m.handle)
              | none => (0, 0)
            let s3 := jAdd s2 f { kind := 4, nsid := nsid, handle := handle, commit := j.commit, mblock := j.mblock, phys := b
                                  data := [j.len] }
            let s4 := modModel s3 j.commit (fun m => { m with done := mapInsert m.done j.mblock (f.val, b, j.len) })
            progBegin (verbEnd (modRegion s4 f (fun r => { r with jobs := rest })) j.verb 0) f)

/-- A committal verb on an identifier: its checks, then its effect (R450, R455, R456, R462). -/
def commitVerb (code : Nat) (fn : FnId) (ring : Fin 8) (s : State) (k : Verb → Model → State → State) : State :=
  verbStart s fn ring code (fun v s =>
    if !gryReady s then verbDone s v 0x17
    else
      match modelOf s (bits v.op0 31 0) with
      | none => verbDone s v 0x04
      | some m => if !nsPermits s v.fn m.nsid then verbDone s v 0x1A else k v m s)

/-- The seal of a repair: its blocks replace the poisoned ones, which are freed, and the model is SEALED (R456); one that
has come to hold another poisoned codeword stays DEGRADED (R446). -/
def sealRepair (s : State) (r : Model) : State :=
  match byHandle s r.nsid r.handle with
  | none => dropModel s r.commit
  | some m =>
    let old := r.done.filterMap (fun e => (mapFind m.done e.1).map (fun o => (o.1, o.2.1)))
    let done := r.done.foldl (fun d e => mapInsert d e.1 e.2) m.done
    let st := if poisoned s { m with done := done } = 0 then GmSt.sealed else .degraded
    let s1 := modModel s m.commit (fun m => { m with st := st, done := done })
    dropModel (old.foldl freeBlk s1) r.commit

/-- A model becomes DEGRADED (R447). -/
def degrade (s : State) (m : Model) (scope unit : Nat) : State :=
  raise (rowsNext (modModel s m.commit (fun m => { m with st := .degraded })) m 3) .modelDegraded (nsPart s m.nsid) scope unit
    [(8, m.nsid), (16, m.handle), (16, poisoned s m)]

/-- A model is sealed (R455); one with a poisoned codeword is DEGRADED (R446, R447). -/
def sealModel (s : State) (m : Model) : State :=
  let s1 := modModel s m.commit (fun m => { m with st := .sealed, time := s.time })
  if poisoned s m = 0 then s1 else degrade s1 m 0 0

/-- COMMIT_SEAL (R455, R456). -/
def execCommitSeal (fn : FnId) (ring : Fin 8) (s : State) : Out :=
  .next (commitVerb 0x54 fn ring s (fun v m s =>
    if m.st ≠ .open_ ∨ m.done.length < (if m.repair then m.place.length else m.blocks) then verbDone s v 0x04
    else
      let s1 := mAdd s { kind := 5, nsid := m.nsid, handle := m.handle, commit := m.commit }
      let s2 := if m.repair then sealRepair s1 m else sealModel s1 m
      verbDone s2 v 0))

/-- COMMIT_ABORT (R456). -/
def execCommitAbort (fn : FnId) (ring : Fin 8) (s : State) : Out :=
  .next (commitVerb 0x55 fn ring s (fun v m s =>
    if !pendingSt m then verbDone s v 0x04 else verbDone (abortCommit 1 s m) v 0))

/-- COMMIT_RESUME (R462): the model blocks still without a BLOCK record. -/
def execCommitResume (fn : FnId) (ring : Fin 8) (s : State) : Out :=
  .next (commitVerb 0x56 fn ring s (fun v m s =>
    if m.st ≠ .suspended then verbDone s v 0x04
    else verbDone (modModel s m.commit (fun m => { m with st := .open_, idle := 0 })) v 0
      ((if m.repair then m.place.length else m.blocks) - m.done.length)))

/-- A verb on a model by namespace and handle (R448, R450). -/
def modelVerb (code : Nat) (fn : FnId) (ring : Fin 8) (s : State) (k : Verb → Nat → Nat → State → State) : State :=
  verbStart s fn ring code (fun v s =>
    let nsid := bits v.op0 7 0
    if !gryReady s then verbDone s v 0x17
    else if !nsPermits s v.fn nsid then verbDone s v 0x1A
    else if (mapFind s.granary.spaces nsid).isNone ∨ bits v.op0 23 8 = 0xFFFF then verbDone s v 0x02
    else k v nsid (bits v.op0 23 8) s)

/-- MODEL_FREE (R456, R482): a repair of the model that is pending ends with it. -/
def execModelFree (fn : FnId) (ring : Fin 8) (s : State) : Out :=
  .next (modelVerb 0x57 fn ring s (fun v nsid h s =>
    match byHandle s nsid h with
    | none => verbDone s v 0x04
    | some m =>
      if pendingSt m then verbDone s v 0x04
      else
        let s1 := (s.granary.models.filter (fun r => r.repair && r.nsid == nsid && r.handle == h)).foldl (abortCommit 1) s
        let s2 := mAdd s1 { kind := 7, nsid := nsid, handle := h, commit := m.commit }
        verbDone ((modelBlks m).foldl freeBlk (rowsNext (dropModel s2 m.commit) m 0)) v 0))

/-- The state code of a model (R449). -/
def gmCode : GmSt → Nat
  | .open_ => 1
  | .suspended => 2
  | .sealed => 3
  | .degraded => 4

/-- The model record (R449). -/
def modelRecord (s : State) (nsid h : Nat) : List (BitVec 128) :=
  match byHandle s nsid h with
  | none => [BitVec.ofNat 128 (h * 2 ^ 80), 0]
  | some m =>
    [BitVec.ofNat 128 (packFields [(17, min (poisoned s m) (2 ^ 17 - 1)), (20, m.done.length), (20, m.blocks), (20, m.base),
       (3, gmCode m.st), (16, h), (32, m.commit)]),
     BitVec.ofNat 128 (m.time * 2 ^ 64)]

/-- MODEL_QUERY (R449, R581). -/
def execModelQuery (fn : FnId) (ring : Fin 8) (ok : Bool) (s : State) : Out :=
  .next (modelVerb 0x58 fn ring s (fun v nsid h s => verbResult s v (modelRecord s nsid h) ok))

/-- COMMIT_SUSPENDED (R461). -/
def saySuspended (s : State) (m : Model) : State :=
  raise s .commitSuspended (nsPart s m.nsid) 0 0 [(8, m.nsid), (16, m.handle), (32, m.commit), (20, m.done.length)]

/-! ### Journal replay (R460) -/

/-- The namespaces that the master journal leaves, with the keys of the Dampers' store (R444, R458). -/
def replaySpaces (g : Granary) (l : List JRec) : SMap Ns :=
  l.foldl (fun (m : SMap Ns) r =>
    match r.kind with
    | 0xA => mapInsert m r.nsid (match mapFind g.spaces r.nsid with
        | some n => { n with quota := r.data.getD 0 0 }
        | none => ⟨r.data.getD 0 0, 0, 0⟩)
    | 0xB => mapErase m r.nsid
    | _ => m) []
/-- The model blocks of a committal that have a BLOCK or RELOCATE record. -/
def replayDone (g : Granary) (commit : Nat) : SMap (Nat × Nat × Nat) :=
  g.regions.foldl (fun m e => ((jBlocks (jRecords e.2.journal)).filter (fun x => x.1 == commit)).foldl
    (fun m x => mapInsert m x.2.1 (e.1, x.2.2)) m) []
/-- A committal as its records leave it: SEALED or SUSPENDED. What no record holds, the function that opened it, is kept from before. -/
def replayModel (g : Granary) (l : List JRec) (c : JRec) : Model :=
  let sealed := jHas l 5 c.commit
  { commit := c.commit, nsid := c.nsid, handle := c.handle, base := c.data.getD 0 0, blocks := c.data.getD 1 0
    repair := c.data.getD 2 0 == 1, place := jPlace l c.commit, done := replayDone g c.commit
    st := if sealed then .sealed else .suspended
    part := (g.models.find? (fun m => m.commit == c.commit)).bind (fun m => m.part)
    time := ((l.find? (fun r => r.kind == 5 && r.commit == c.commit)).map (fun r => r.time)).getD 0 }
/-- The committals that neither an ABORT nor a FREE record ends. -/
def replayAlive (g : Granary) (l : List JRec) : List Model :=
  (l.filter (fun c => c.kind == 1 && !jHas l 6 c.commit && !jFreed l c)).map (replayModel g l)
/-- The models and committals: sealed repairs take the place of the blocks they replaced. -/
def replayModels (g : Granary) (l : List JRec) : List Model :=
  let alive := replayAlive g l
  let fixes := fun (m : Model) => alive.filter (fun r => r.repair && r.st == .sealed && r.nsid == m.nsid && r.handle == m.handle)
  (alive.filter (fun m => !(m.repair && m.st == .sealed))).map (fun m =>
    if m.repair then m
    else { m with done := (fixes m).foldl (fun d r => r.done.foldl (fun d e => mapInsert d e.1 e.2) d) m.done })
/-- A region's data blocks as its journal leaves them: a block that no model and no committal holds is in the free pool. -/
def replayBlocks (r : Region) (held : Nat → Bool) : SMap GBlock :=
  let l := jRecords r.journal
  let poison := jPoison l
  let keys := ((dataBlks r).map Prod.fst ++ (l.map (fun e => e.phys)).filter (fun b => blkRole b == .data)).foldl setAdd []
  keys.foldl (fun m b => mapMod {} m b (fun k =>
    { k with
      pe := (jPe l b).getD k.pe
      poison := mapGet [] poison b
      erased := k.erased && k.st == .free
      st := if jRetired l b then .retired else if held b then .used else .free })) r.blocks
/-- What the journals say takes the place of what the Granary held (R460). -/
def replayed (s : State) : State :=
  let g := s.granary
  let l := jMaster g.master0 g.master1
  let ms := replayModels g l
  let held := fun (f b : Nat) => ms.any (fun m => m.done.any (fun e => e.2.1 == f && e.2.2.1 == b))
  let rs := g.regions.map (fun e => (e.1, { e.2 with blocks := replayBlocks e.2 (held e.1) }))
  let s1 := setGry s { g with
    regions := rs, spaces := replaySpaces g l, models := ms
    nextId := l.foldl (fun n r => max n (if r.kind = 1 then r.commit + 1 else 0)) g.nextId
    master0 := jMend g.master0 g.master1, master1 := jMend g.master1 g.master0 }
  let find := fun (m : Model) => { m with
    st := if m.st = .sealed ∧ poisoned s1 m ≠ 0 then .degraded else m.st
    place := if m.repair then (match byHandle s1 m.nsid m.handle with | some b => badBlks s1 b | none => []) else m.place
    idle := s.time }
  setGry s1 { s1.granary with models := ms.map find }

/-- JOURNAL_REPLAY (R460): the journals are read back, records whose CRC fails are passed over, the two master copies agree, the
committals the journals leave unfinished are SUSPENDED and said so where they were not before, and READY becomes 1 (R461, log 25). -/
def execJournalReplay (s : State) : Out :=
  .next (
    if gryReady s then s
    else
      let s1 := keysLoad (keysLoad (orReg (replayed s) (rGry 4) 1) 0) 1
      let was := fun (m : Model) => (modelOf s m.commit).any (fun o => o.st == .suspended)
      (s1.granary.models.filter (fun m => m.st == .suspended && !was m)).foldl saySuspended s1)

/-- RESUME_LIMIT seconds of cadence time have passed since a committal was suspended, or since the last replay (R462, log 119). -/
def resumeOver (s : State) (m : Model) : Bool := s.time ≥ m.idle + regF s (rGry 0) 15 0 * 1000000000

/-- COMMIT_EXPIRY (R462): a committal suspended for RESUME_LIMIT seconds. -/
def execCommitExpiry (id : BitVec 32) (s : State) : Out :=
  .next (
    match modelOf s id.toNat with
    | none => s
    | some m =>
      if m.st ≠ .suspended ∨ !gryReady s ∨ !resumeOver s m then s
      else
        raise (incReg (abortCommit 2 s m) (rGry 0x2C)) .commitExpired (nsPart s m.nsid) 0 0
          [(8, m.nsid), (16, m.handle), (32, m.commit)])

/-- A committal with blocks placed in a half (R451, R452, R461). -/
def placedIn (h : Nat) (m : Model) : Bool := m.place.any (fun e => (if m.repair then e.2 else e.1) / 80 == h)

/-- OPEN committals a test picks are suspended, their programs stopped and their blocks freed; a verb ends with RESET (R461). While the
bus is lost nothing is said: the replay that follows says it. -/
def suspendCommits (s : State) (p : Model → Bool) : State :=
  let ms := s.granary.models.filter (fun m => m.st == .open_ && p m)
  ms.foldl (fun s m =>
    let jobs := s.granary.regions.flatMap (fun e => (e.2.jobs.filter (fun j => j.commit == m.commit)).map (fun j => (e.1, j)))
    let s1 := jobs.foldl (fun s e =>
      let s := modRegion s e.1 (fun r => { r with jobs := r.jobs.filter (fun j => j.commit != m.commit) })
      let s := match e.2.phys with
        | some b => freeBlk s (e.1, b)
        | none => s
      progBegin (verbEnd s e.2.verb 0x19) e.1) s
    if s1.pwr.bus then saySuspended (modModel s1 m.commit (fun m => { m with st := .suspended, idle := s1.time })) { m with st := .suspended }
    else s1) s

/-! ### Readability, refresh and wear -/

/-- An uncorrectable codeword of a block (R474): poisoned once, journaled and said; cause 1 READ, 2 SCRUB. -/
def gryTell (s : State) (f b cw cause : Nat) : State :=
  if (gblock (region s f) b).poison.contains cw then s
  else
    let s1 := incReg (modBlk s f b (fun k => { k with poison := setAdd k.poison cw })) (rGryF f 0x18)
    let owner := s1.granary.models.find? (fun m => m.done.any (fun e => e.2.1 == f && e.2.2.1 == b))
    match owner with
    | none => jAdd s1 f { kind := 0xC, phys := b, data := [cw / 4, cw % 4] }
    | some m =>
      let k := ((m.done.find? (fun e => e.2.1 == f && e.2.2.1 == b)).map Prod.fst).getD 0
      let s2 := jAdd s1 f { kind := 0xC, nsid := m.nsid, handle := m.handle, commit := m.commit, mblock := k, phys := b
                            data := [cw / 4, cw % 4] }
      let s3 := raise s2 .granaryUe (nsPart s m.nsid) 2 (fieldUnit f)
        [(8, m.nsid), (16, m.handle), (20, k), (8, regionCode f), (10, cw / 4), (2, cw % 4), (4, cause)]
      if m.st = .sealed then degrade s3 m 2 (fieldUnit f) else s3

/-- Decode a codeword: hard decision, then retries and one soft decode, whose finding is under the codeword's key plus
2^40 (R474). -/
def gryDecode (fs : EccFinds) (key f b cw cause : Nat) (s : State) : State :=
  if (gblock (region s f) b).poison.contains cw then s
  else
    match finding fs key with
    | .ok => s
    | .corrected => incReg s (rGryF f 0x10)
    | .uncorrectable =>
      match finding fs (key + 2 ^ 40) with
      | .uncorrectable => gryTell s f b cw cause
      | _ => incReg s (rGryF f 0x14)

/-- Pages that bytes a to b of a block of a length sense: those beyond its length are not read (R453). -/
def pagesSensed (len a b : Nat) : Nat := let e := min len b; if e ≤ a then 0 else (e - 1) / 16384 - a / 16384 + 1

/-- A page read counts toward the block's refresh (R476). -/
def gryCount (s : State) (f b pages : Nat) : State :=
  modBlk s f b (fun k => { k with reads := k.reads + pages, marked := k.marked || k.reads + pages ≥ 2 ^ regF s (rGry 0x10) 4 0 })

/-- GRANARY_SCRUB_READ: the scrubber's next page of a programmed block, with what its codewords decode to and the most bits
corrected in a codeword that decodes; REFRESH_BITS or more mark the block (R474, R475). -/
def execGranaryScrubRead (f : FieldId) (ecc : EccFinds) (most : Nat) (s : State) : Out :=
  .next (
    let r := region s f
    let progd := ((dataBlks r).filter (fun e => e.2.st == .used && e.2.len != 0)).flatMap
      (fun e => (List.range ((e.2.len + 16383) / 16384)).map (fun p => 1024 * e.1 + p))
    match (progd.find? (fun k => k ≥ r.scrub)).or progd.head? with
    | none => s
    | some k =>
      let b := k / 1024
      let p := k % 1024
      let s1 := setRegion s f { r with scrub := k + 1 }
      let s2 := (List.range 4).foldl (fun s c => gryDecode ecc (4 * p + c) f b (4 * p + c) 2 s) s1
      let s3 := gryCount s2 f b 1
      if most ≥ regF s (rGry 0x10) 23 16 then modBlk s3 f b (fun k => { k with marked := true }) else s3)

/-- A calibration block is rewritten with its pattern (R478). -/
def calibRefresh (s : State) (f b : Nat) : State :=
  incReg (incReg (modBlk (eraseBlk s f b) f b (fun k => { k with erased := false })) (rGryF f 0x20) 1024) (rGryF f 0x24)

/-- BLOCK_REFRESH (R477, R478, R480, R481): the lowest marked data block is copied into a new one; with no block free the
refresh waits, said once a run. With none marked, a marked calibration block is rewritten. -/
def execBlockRefresh (f : FieldId) (depth : Nat) (fail : Bool) (s : State) : Out :=
  .next (
    let r := region s f
    let marked := (dataBlks r).filter (fun e => e.2.st == .used && e.2.marked)
    match marked, pickBlk r with
    | [], _ =>
      match [4, 5].find? (fun b => (gblock r b).marked) with
      | some b => if gryHeld s f then s else calibRefresh (setRegion s f { r with blocked := false }) f b
      | none => setRegion s f { r with blocked := false }
    | (_, _) :: _, none =>
      if r.blocked then s
      else raise (orReg (setRegion s f { r with blocked := true }) (rGryF f 0) 1) .refreshBlocked none 2 (fieldUnit f)
        [(8, regionCode f), (16, marked.length)]
    | (b, k) :: _, some n =>
      if gryHeld s f then s
      else
        let s0 := setRegion s f { r with blocked := false }
        let s1 := if (gblock r n).erased then s0 else eraseBlk s0 f n
        let s2 := verifyDepth (incReg s1 (rGryF f 0x20) ((k.len + 16383) / 16384)) f depth
        if fail || depth > regF s (rGry 0x14) 7 0 then retireBlk s2 f n (if fail then 2 else 1)
        else
          let s3 := modBlk s2 f n (fun x => { x with st := .used, erased := false, len := k.len, data := k.data, reads := 0, poison := k.poison })
          let owner := s3.granary.models.find? (fun m => m.done.any (fun e => e.2.1 == f.val && e.2.2.1 == b))
          let s4 := match owner with
            | none => s3
            | some m =>
              let j := ((m.done.find? (fun e => e.2.1 == f.val && e.2.2.1 == b)).map Prod.fst).getD 0
              let s := jAdd s3 f { kind := 9, nsid := m.nsid, handle := m.handle, commit := m.commit, mblock := j, phys := n
                                   data := [b, k.len] }
              modModel s m.commit (fun m => { m with done := mapInsert m.done j (f.val, n, k.len) })
          incReg (freeBlk s4 (f.val, b)) (rGryF f 0x24))

/-- BLOCK_ERASE: the lowest free block not yet erased is erased in the background; or its erase fails (R456, R459,
R480). -/
def execBlockErase (f : FieldId) (fail : Bool) (s : State) : Out :=
  .next (
    match (dataBlks (region s f)).find? (fun e => e.2.st == .free && !e.2.erased) with
    | none => s
    | some (b, _) =>
      if gryHeld s f then s
      else if fail then
        retireBlk (jAdd (modBlk s f b (fun k => { k with pe := k.pe + 1 })) f { kind := 3, phys := b }) f b 3
      else eraseBlk s f b)

/-- PROGRAM_HOLD_TIMEOUT: a verb held for 60 s ends with TEMP_WINDOW or POWER_HOLD, its committal still OPEN (R479). -/
def execProgramHoldTimeout (f : FieldId) (s : State) : Out :=
  .next (
    match (region s f).jobs with
    | [] => s
    | j :: rest =>
      if !j.held || !gryHeld s f then s
      else
        let s1 := modRegion s f (fun r => { r with jobs := rest })
        let s2 := match j.phys with
          | some b => freeBlk s1 (f.val, b)
          | none => s1
        progBegin (verbEnd s2 j.verb (if regBit s (rGryF f 0) 2 then 0x14 else 0x15)) f)

/-- PROGRAM_RESUME: the conditions return and the held block goes on (R479, R482). -/
def execProgramResume (f : FieldId) (s : State) : Out :=
  .next (
    match (region s f).jobs with
    | [] => s
    | j :: rest =>
      if !j.held || gryHeld s f then s
      else progBegin (modRegion s f (fun r => { r with jobs := { j with held := false } :: rest })) f)

/-- The programs of a region are held, or may go on, as its conditions stand (R479): bits of GRY_F_STATUS, 2 TEMP_HOLD
and 3 POWER_HOLD. -/
def gryHold (s : State) (f b : Nat) (on : Bool) : State :=
  let s1 := setRegF s (rGryF f 0) b b (bnat on)
  if gryHeld s1 f then modRegion s1 f (fun r => match r.jobs with
    | j :: rest => { r with jobs := { j with held := true } :: rest }
    | [] => r)
  else s1

end Sys2Proof.Machine
end

