-- ==== Sys2Proof/Machine/Hopper.lean ====
section
/-!
DEFINITION. The Hopper (R378 to R432): its entries, slots and model rows, the serving verbs, the admission pass, and the
dispatch ring.
-/
namespace Sys2Proof.Machine

/-! ### Registers and entries -/

/-- A register of the HOP_ block of a partition, with its selector (R428 to R431). -/
def rHop (p off : Nat) (sel : Nat := 0) : RegLoc := rPart p 7 off sel
/-- A register of a request table's die (R432). -/
def rTbl (t off : Nat) : RegLoc := rDie (0x18 + t) 7 off

/-- A partition's segment: base, size (R379). -/
def segBase (s : State) (p : Nat) : Nat := regF s (rHop p 4) 30 16
def hopSize (s : State) (p : Nat) : Nat := regF s (rHop p 4) 15 0
/-- The key of a partition's entry. -/
def entKey (s : State) (p i : Nat) : Nat := 32768 * segTable s p + segBase s p + i

def setHop (s : State) (h : Hopper) : State := { s with hop := h }
/-- An entry. -/
def entAt (s : State) (p i : Nat) : HEntry := mapGet {} s.hop.entries (entKey s p i)
def setEnt (s : State) (p i : Nat) (e : HEntry) : State := setHop s { s.hop with entries := mapSet {} s.hop.entries (entKey s p i) e }
def modEnt (s : State) (p i : Nat) (f : HEntry → HEntry) : State := setEnt s p i (f (entAt s p i))
/-- The indices of a partition's listed entries. -/
def entList (s : State) (p : Nat) : List Nat :=
  s.hop.entries.filterMap (fun e =>
    if entKey s p 0 ≤ e.1 ∧ e.1 < entKey s p 0 + hopSize s p then some (e.1 - entKey s p 0) else none)

/-- What the Hopper keeps for a partition. -/
def hpart (s : State) (p : Nat) : HPart := mapGet {} s.hop.parts p
def setHpart (s : State) (p : Nat) (x : HPart) : State := setHop s { s.hop with parts := mapSet {} s.hop.parts p x }

/-- A state is terminal (R383). -/
def terminal : HState → Bool
  | .done | .refused | .failed | .cancelled => true
  | _ => false
/-- A state's code (R383). -/
def stCode : HState → Nat
  | .free => 0 | .queued => 1 | .deferred => 2 | .prefill => 3 | .decode => 4 | .cancelling => 5
  | .done => 8 | .refused => 9 | .failed => 0xA | .cancelled => 0xB

/-- The 64 bytes of an entry, as a number (R381). -/
def entBits (e : HEntry) : Nat :=
  let row0 := [(4, stCode e.st), (4, e.reason), (28, 0), (6, e.part), (3, 0), (3, e.prio), (1, bnat e.quar), (1, bnat e.late),
    (1, bnat e.stream), (1, bnat e.eager), (4, e.specK), (8, e.gen.toNat), (16, e.draft.toNat), (16, e.model.toNat), (32, e.cookie.toNat)]
  let row1 := [(16, e.kv), (16, e.dkv), (32, 0), (64, e.deadline)]
  let row2 := [(32, e.estBeat), (12, 0), (4, e.held.length), (20, e.generated), (20, e.length), (20, e.maxLen), (20, e.inputLen)]
  let row3 := [(32, e.admitted), (16, 0), (16, e.stall), (16, e.spills), (48, e.input)]
  packFields (row0 ++ row1 ++ row2 ++ row3)

/-! ### Model rows -/

/-- The row of a handle: the lowest that holds it (R391, log 35). -/
def modelRow (s : State) (p : Nat) (h : BitVec 16) : Option Nat :=
  (List.range 256).find? (fun r => regF s (rHop p 0x64 r) 15 0 == h.toNat)
def rowState (s : State) (p r : Nat) : Nat := regF s (rHop p 0x64 r) 31 30
def rowBase (s : State) (p r : Nat) : Nat := regF s (rHop p 0x68 r) 15 0
def rowSlots (s : State) (p r : Nat) : Nat := regF s (rHop p 0x68 r) 31 16
def rowTokens (s : State) (p r : Nat) : Nat := regF s (rHop p 0x6C r) 31 16
def rowRate (s : State) (p r : Nat) : Nat := max 1 (regF s (rHop p 0x6C r) 15 0)
def rowRing (s : State) (p r : Nat) : Nat := regF s (rHop p 0x70 r) 31 28
def rowContext (s : State) (p r : Nat) : Nat := regF s (rHop p 0x70 r) 19 0
def rowHeld (s : State) (p r : Nat) : Nat := regF s (rHop p 0x74 r) 31 16
def rowRelease (s : State) (p r : Nat) : Nat := regF s (rHop p 0x74 r) 15 0

/-- The row of a handle when it can serve: neither EMPTY nor DEGRADED (R387, R395). -/
def rowUsable (s : State) (p : Nat) (h : BitVec 16) : Option Nat :=
  match modelRow s p h with
  | some r => if rowState s p r = 0 ∨ rowState s p r = 3 then none else some r
  | none => none

/-- The slots of a row's pool that entries hold, or that released entries withhold (R398). -/
def slotsUsed (s : State) (p r : Nat) : List Nat :=
  ((hpart s p).withheld.filter (fun e => e.1 == r)).map Prod.snd ++
  (entList s p).flatMap (fun i =>
    let e := entAt s p i
    (if e.rowM = some r then [e.kv] else []) ++ (if e.rowD = some r then [e.dkv] else []))

/-- The lowest free slot of a row's pool (R395). -/
def slotFree (s : State) (p r : Nat) : Nat :=
  let used := slotsUsed s p r
  (((List.range (rowSlots s p r)).map (fun k => rowBase s p r + k)).find? (fun k => !used.contains k)).getD (rowBase s p r)

/-- A row takes a slot, or regains one (R396). -/
def rowTake (s : State) (p r : Nat) : State := setRegF s (rHop p 0x74 r) 31 16 (rowHeld s p r + 1)
def rowGive (s : State) (p r : Nat) : State :=
  let s1 := setRegF s (rHop p 0x74 r) 31 16 (rowHeld s p r - 1)
  let x := hpart s1 p
  setHpart s1 p { x with regained := mapMod 0 x.regained r (· + 1) }

/-- An entry's slots return to their pools (R398). -/
def slotsReturn (s : State) (p i : Nat) : State :=
  let e := entAt s p i
  let s1 := match e.rowM with | some r => rowGive s p r | none => s
  let s2 := match e.rowD with | some r => rowGive s1 p r | none => s1
  modEnt s2 p i (fun e => { e with rowM := none, rowD := none, quar := false })

/-- An entry is released (R398): the slots of a quarantined one stay withheld until its partition is reset. -/
def slotsLeave (s : State) (p i : Nat) : State :=
  let e := entAt s p i
  if !e.quar then slotsReturn s p i
  else
    let x := hpart s p
    setHpart s p { x with withheld := x.withheld ++ (e.rowM.toList.map (fun r => (r, e.kv))) ++ (e.rowD.toList.map (fun r => (r, e.dkv))) }

/-! ### Output and dispatch -/

/-- An output record of an entry waits for the ring (R408, R409). -/
def outAdd (s : State) (p i : Nat) (k : OutKind) : State :=
  let e := entAt s p i
  let x := hpart s p
  setHpart s p { x with out := x.out ++ [⟨i, e.gen, e.cookie, k⟩] }

/-- A dispatch record of an entry waits for its ring (R400, R401). -/
def dispAdd (s : State) (p i kind row1 : Nat) : State :=
  let e := entAt s p i
  let row0 := packFields [(64, e.deadline), (16, e.draft.toNat), (16, e.model.toNat), (2, 0), (3, e.prio), (15, i), (8, e.gen.toNat), (4, kind)]
  let x := hpart s p
  setHpart s p { x with disp := x.disp ++ [(BitVec.ofNat 128 row0, BitVec.ofNat 128 (row1 + e.dkv * 2 ^ 16 + e.kv))] }

/-- The START, EXTEND, CANCEL and STOP records (R401). -/
def dispStart (s : State) (p i : Nat) : State :=
  let e := entAt s p i
  dispAdd s p i 1 (packFields [(34, 0), (1, bnat e.stream), (1, bnat e.eager), (4, e.specK), (20, e.maxLen), (20, e.inputLen), (48, e.input)])
def dispExtend (s : State) (p i : Nat) : State :=
  let e := entAt s p i
  dispAdd s p i 3 (packFields [(34, 0), (1, bnat e.stream), (25, 0), (20, e.inputLen), (48, e.input)])
def dispCancel (s : State) (p i : Nat) : State := dispAdd s p i 4 0
def dispStop (s : State) (p i : Nat) : State := dispAdd s p i 5 0

/-! ### Pending expert charges -/

/-- A counter of the MOE_ block for an expert (R434). -/
def rMoe (p off : Nat) (e : Nat := 0) : RegLoc := rPart p 9 off e
/-- Nibble i of a charge word. -/
def nib (w i : Nat) : Nat := w / 16 ^ i % 16
/-- The sum of nibbles i to 7. -/
def nibSum (w i : Nat) : Nat := ((List.range 8).filter (fun k => i ≤ k)).foldl (fun a k => a + nib w k) 0

/-- A charge is resolved with a tokens accepted (R425). -/
def chargeEnd (a : Nat) (s : State) (c : MoeCharge) : State :=
  let all := nibSum c.tent 0
  let lost := nibSum c.tent a
  let t := (reg s (rMoe c.part 0xC c.expert)).toNat
  let s1 := setReg s (rMoe c.part 0xC c.expert) (word (t - all))
  incReg (incReg s1 (rMoe c.part 8 c.expert) (all - lost)) (rMoe c.part 0x10 c.expert) lost

/-- Every charge of an entry is resolved with a tokens accepted; 0 reclaims them all (R425). -/
def chargesEnd (s : State) (p i a : Nat) : State :=
  let e := entAt s p i
  let mine := fun (c : MoeCharge) => c.part == p && c.entry == i && c.gen == e.gen
  (s.hop.charges.filter mine).foldl (chargeEnd a) (setHop s { s.hop with charges := s.hop.charges.filter (fun c => !mine c) })

/-! ### Ends -/

/-- The tentative tokens of an entry are discarded, retracted in eager mode (R389, R415). -/
def dropHeld (s : State) (p i : Nat) : State :=
  let e := entAt s p i
  match e.held with
  | [] => s
  | t :: ts =>
    let first := ts.foldl (fun m t => min m t.pos) t.pos
    let s1 := if e.eager then outAdd s p i (.retract first e.held.length) else s
    setEnt s1 p i { e with held := [] }

/-- An entry leaves DECODE: its charges are reclaimed (R425). -/
def leaveDecode (s : State) (p i : Nat) : State := if (entAt s p i).st = .decode then chargesEnd s p i 0 else s

/-- An entry enters a terminal state (R384, R398, R408): tokens discarded, slots returned unless quarantined, FINAL last. -/
def entEnd (s : State) (p i : Nat) (st : HState) (reason : Nat) (quar : Bool := false) : State :=
  let s1 := leaveDecode (dropHeld s p i) p i
  let s2 := if quar then modEnt s1 p i (fun e => { e with quar := true }) else slotsReturn s1 p i
  let s3 := modEnt s2 p i (fun e => { e with st := st, reason := reason })
  let s4 := if st = .failed then incReg s3 (rHop p 0x4C) else if st = .refused then incReg s3 (rHop p 0x48) else s3
  let e := entAt s4 p i
  outAdd s4 p i (.final (stCode st) reason e.generated e.spills)

/-! ### Serving verbs -/

/-- True when a partition serves (R379, R385, R428). -/
def hopEnabled (s : State) (p : Nat) : Bool := regBit s (rHop p 0) 31 && hopSize s p != 0

/-- The entry a name's operand gives: its index, when it is current (R382, R385). -/
def named (s : State) (p : Nat) (op : BitVec 128) : Option Nat :=
  let i := bits op 22 8
  if i < hopSize s p ∧ (entAt s p i).gen.toNat = bits op 7 0 then some i else none

/-- A verb on a named entry (R385). -/
def entryVerb (code : Nat) (always : Bool) (fn ring : Nat) (s : State) (k : Verb → Nat → State → State) : State :=
  verbStart s fn ring code (fun v s =>
    if hopSize s v.fn = 0 || (!always && !hopEnabled s v.fn) then verbDone s v 5
    else
      match named s v.fn v.op0 with
      | none => verbDone s v 3
      | some i => k v i s)

/-- The input of n positions of 4 bytes lies within the partition's bin windows (R387, log 36). -/
def inputOk (s : State) (p a n : Nat) : Bool :=
  let b := nbits a 39 36
  let o := nbits a 35 0
  nbits a 47 40 == 0x10 && o + 4 * n ≤ 2 ^ 36 && binAllows s b o p && binAllows s b (o + 4 * n - 1) p

/-- BAD_ARGS of SUBMIT (R387). -/
def submitBad (s : State) (v : Verb) : Bool :=
  let k := bits v.op1 39 36
  let n := bits v.op1 79 60
  k > 8 || (k ≥ 1 && bits v.op0 79 64 == 0xFFFF) || (bit v.op1 35 && (k == 0 || !regBit s (rHop v.fn 0) 30)) ||
    bits v.op1 59 40 == 0 || (n == 0 && !bit v.op1 34) || (n > 0 && !inputOk s v.fn (bits v.op1 127 80) n)

/-- Entries of a partition that are neither FREE nor terminal. -/
def activeCount (s : State) (p : Nat) : Nat :=
  ((entList s p).filter (fun i => let st := (entAt s p i).st; st != .free && !terminal st)).length

/-- The entry a SUBMIT allocates (R381, R386). -/
def newEntry (s : State) (v : Verb) (gen : BitVec 8) : HEntry :=
  { cookie := BitVec.ofNat 32 (bits v.op0 127 96), model := BitVec.ofNat 16 (bits v.op0 95 80)
    draft := BitVec.ofNat 16 (bits v.op0 79 64), gen := gen, specK := bits v.op1 39 36, eager := bit v.op1 35, stream := bit v.op1 34
    prio := bits v.op1 33 31, part := v.fn, st := .queued, deadline := bits v.op0 63 0, inputLen := bits v.op1 79 60
    maxLen := bits v.op1 59 40, input := bits v.op1 127 80, order := (hpart s v.fn).order }

/-- The state with the entry that a SUBMIT allocates at index i (R386). -/
def submitPut (s : State) (v : Verb) (i : Nat) : State :=
  setEnt (setHpart s v.fn { hpart s v.fn with order := (hpart s v.fn).order + 1 }) v.fn i (newEntry s v (entAt s v.fn i).gen)

/-- Why an allocated entry is refused at once, if it is: 4 its model or draft absent or its request too long, 3 too many
active entries (R386). -/
def submitWhy (s : State) (p : Nat) (e : HEntry) (active : Nat) : Option Nat :=
  match rowUsable s p e.model with
  | none => some 4
  | some r =>
    if e.draft != 0xFFFF && (rowUsable s p e.draft).isNone || e.inputLen + e.maxLen > rowContext s p r then some 4
    else if active ≥ regF s (rHop p 8) 31 16 then some 3
    else none

/-- SUBMIT (R386, R387). -/
def execSubmit (fn : FnId) (ring : Fin 8) (s : State) : Out :=
  .next (verbStart s fn ring 0x40 (fun v s =>
    let p := v.fn
    if !hopEnabled s p then verbDone s v 5
    else if submitBad s v then verbDone s v 2
    else
      match (List.range (hopSize s p)).find? (fun i => (entAt s p i).st == .free) with
      | none => verbDone s v 1
      | some i =>
        let gen := (entAt s p i).gen
        let s1 := submitPut s v i
        let s2 := match submitWhy s1 p (newEntry s v gen) (activeCount s p) with
          | some why => entEnd s1 p i .refused why
          | none => s1
        verbDone s2 v 0 (i * 256 + gen.toNat)))

/-- EXTEND (R388); with no row for its model there is no MAX_CONTEXT to break. -/
def execExtend (fn : FnId) (ring : Fin 8) (s : State) : Out :=
  .next (entryVerb 0x41 false fn ring s (fun v i s =>
    let p := v.fn
    let e := entAt s p i
    let n := bits v.op0 63 44
    let running := e.st == .prefill || e.st == .decode
    if !e.stream || !(running || e.st == .queued || e.st == .deferred) then verbDone s v 4
    else
      let long := match modelRow s p e.model with | some r => n + e.maxLen > rowContext s p r | none => false
      if n < e.inputLen || long then verbDone s v 2
      else
        let s1 := setEnt s p i { e with inputLen := n, stream := bit v.op0 43, deadline := bits v.op0 127 64 }
        verbDone (if running then dispExtend s1 p i else s1) v 0))

/-- CANCEL (R389). -/
def execCancel (fn : FnId) (ring : Fin 8) (s : State) : Out :=
  .next (entryVerb 0x42 false fn ring s (fun v i s =>
    let p := v.fn
    match (entAt s p i).st with
    | .queued | .deferred => verbDone (entEnd s p i .cancelled 0) v 0
    | .prefill | .decode =>
      let s1 := leaveDecode (dropHeld s p i) p i
      verbDone (dispCancel (modEnt s1 p i (fun e => { e with st := .cancelling })) p i) v 0
    | _ => verbDone s v 4))

/-- RELEASE (R382, R390): the entry is FREE, and its name changes. -/
def execRelease (fn : FnId) (ring : Fin 8) (s : State) : Out :=
  .next (entryVerb 0x43 true fn ring s (fun v i s =>
    let e := entAt s v.fn i
    if terminal e.st then verbDone (setEnt (slotsLeave s v.fn i) v.fn i { gen := e.gen + 1 }) v 0 else verbDone s v 4))

/-- QUERY (R385): the entry as it stands. -/
def execQuery (fn : FnId) (ring : Fin 8) (ok : Bool) (s : State) : Out :=
  .next (entryVerb 0x44 true fn ring s (fun v i s =>
    let w := entBits (entAt s v.fn i)
    verbResult s v ((List.range 4).map (fun k => BitVec.ofNat 128 (w / 2 ^ (128 * k)))) ok))

/-! ### Admission -/

/-- Candidate i goes before candidate j (R394). -/
def before (a b : HEntry) : Bool :=
  if a.prio ≠ b.prio then a.prio > b.prio
  else if a.deadline ≠ b.deadline then b.deadline == 0 || (a.deadline != 0 && a.deadline < b.deadline)
  else a.order < b.order

/-- Insert a candidate in order. -/
def insertEnt (s : State) (p i : Nat) : List Nat → List Nat
  | [] => [i]
  | j :: r => if before (entAt s p i) (entAt s p j) then i :: j :: r else j :: insertEnt s p i r

/-- A partition's candidates in the order of R394. -/
def candidates (s : State) (p : Nat) : List Nat :=
  ((entList s p).filter (fun i => let st := (entAt s p i).st; st == .queued || st == .deferred)).foldl (fun l i => insertEnt s p i l) []

/-- A pass under way (R395): the budget used of each row, rows blocked, requests ahead, requests deferred, and the rows whose
standby state deferred one. -/
structure Pass where
  s        : State
  budget   : SMap Nat := []
  blocked  : List Nat := []
  ahead    : SMap Nat := []
  deferred : Nat := 0
  wanted   : List Nat := []

/-- The decision for one candidate (R395), at beat b with cadence time t and beat length len; no candidate is served while
the Damper's record has a sheaf of the partition fenced (R735). -/
def passOne (p b t len : Nat) (held : Bool) (x : Pass) (i : Nat) : Pass :=
  let s := x.s
  let e := entAt s p i
  let dOk := e.draft == 0xFFFF || (rowUsable s p e.draft).isSome
  match rowUsable s p e.model with
  | none => { x with s := entEnd s p i .refused 4 }
  | some m =>
    let need := 1 + (e.inputLen + rowRate s p m - 1) / rowRate s p m
    let d := if e.draft = 0xFFFF then none else rowUsable s p e.draft
    let budget := rowTokens s p m - mapGet 0 x.budget m
    let freeOk := fun r => rowState s p r == 1 && rowHeld s p r < rowSlots s p r
    let draftOk := match d with | none => true | some r => freeOk r
    if !dOk then { x with s := entEnd s p i .refused 4 }
    else if e.deadline ≠ 0 ∧ t + need * len > e.deadline then { x with s := entEnd s p i .refused 2 }
    else if !held && !x.blocked.contains m && freeOk m && draftOk && (e.inputLen ≤ budget || budget == rowTokens s p m) then
      let kv := slotFree s p m
      let s1 := setEnt (rowTake s p m) p i { e with st := .prefill, kv := kv, rowM := some m, admitted := b % 2 ^ 32, stall := 0 }
      let s2 := match d with
        | none => s1
        | some r => modEnt (rowTake s1 p r) p i (fun e => { e with dkv := slotFree s1 p r, rowD := some r })
      { x with s := dispStart (incReg s2 (rHop p 0x40)) p i, budget := mapSet 0 x.budget m (mapGet 0 x.budget m + e.inputLen) }
    else
      let y := { x with blocked := setAdd x.blocked m }
      let w := (16 * (mapGet 0 x.ahead m + 1) + max (rowRelease s p m) 1 - 1) / max (rowRelease s p m) 1
      if w > regF s (rHop p 0xC) 7 0 ∨ x.deferred ≥ regF s (rHop p 8) 15 0 then { y with s := entEnd s p i .refused 1 }
      else if e.deadline ≠ 0 ∧ t + w * len + need * len > e.deadline then { y with s := entEnd s p i .refused 2 }
      else
        { y with s := incReg (setEnt s p i { e with st := .deferred, estBeat := (b + w) % 2 ^ 32 }) (rHop p 0x44)
                 ahead := mapMod 0 x.ahead m (· + 1), deferred := x.deferred + 1
                 wanted := ((m :: d.toList).filter (fun r => rowState s p r == 2)).foldl setAdd x.wanted }

/-- A row whose standby deferred a request in this pass (R391, R392): WANTED, and MODEL_WANTED once per run. -/
def rowWanted (p : Nat) (s : State) (r : Nat) : State :=
  let s1 := incReg s (rHop p 0x78 r)
  let x := hpart s1 p
  if x.wanted.contains r then s1
  else raise (setHpart s1 p { x with wanted := setAdd x.wanted r }) .modelWanted (some p) 6 p [(6, p), (8, r), (16, regF s (rHop p 0x64 r) 15 0)]

/-- True while the Damper's record has a current sheaf of a partition fenced (R735). -/
def recFenced (s : State) (p : Nat) : Bool :=
  (List.range 5760).any (fun sh => sheafPart s sh == p && mapGet PortRec.fenced s.record (portKey (.sheaf sh)) == .fenced)

/-- ADMISSION_PASS of a partition (R393 to R395): the candidates that 80% of the beat reaches, one every 4 cycles. -/
def admissionPass (s : State) (p b t len : Nat) : State :=
  if !hopEnabled s p then s
  else
    let all := candidates s p
    let most := len * 22 / 100
    let x := (all.take most).foldl (passOne p b t len (recFenced s p)) { s := s }
    let s1 := x.wanted.foldl (rowWanted p) x.s
    let y := hpart s1 p
    let runs := y.wanted.filter (fun r => rowState s1 p r != 1)
    setHpart s1 p { y with wanted := runs, cut := all.length - most, cutTold := y.cutTold && all.length > most }

/-- HOPPER_PASS_CUT: the last pass did not reach every candidate (R393). -/
def execHopperPassCut (part : PartId) (s : State) : Out :=
  .next (
    let x := hpart s part
    if x.cut = 0 then s
    else
      let t := segTable s part
      let s1 := incReg (orReg (setHpart s part { x with cut := 0, cutTold := true }) (rHop part 0x38) 2) (rTbl t 4)
      if x.cutTold then s1 else raise s1 .hopperPassCut (some part) 5 (0x18 + t) [(1, t), (6, part.val), (16, min x.cut 0xFFFF)])

/-- RELEASE16_UPDATE of a partition's rows (R396). -/
def releaseBeat (s : State) (p : Nat) : State :=
  let x := hpart s p
  (List.range 256).foldl (fun s r =>
    let v := rowRelease s p r
    let n := mapGet 0 x.regained r
    if v = 0 ∧ n = 0 then s else setRegF s (rHop p 0x74 r) 15 0 (min (v - v / 8 + 2 * n) 0xFFFF)) (setHpart s p { x with regained := [] })

/-- STALL_CHECK of a partition (R407). -/
def stallBeat (s : State) (p : Nat) : State :=
  let lim := regF s (rHop p 0) 15 0
  (entList s p).foldl (fun s i =>
    let e := entAt s p i
    if e.st != .prefill && e.st != .decode && e.st != .cancelling then s
    else
      let n := min (e.stall + 1) 0xFFFF
      let s1 := setEnt s p i { e with stall := n }
      if lim = 0 ∨ n < lim then s1
      else
        let s2 := orReg (dispCancel s1 p i) (rHop p 0x38) 1
        let s3 := if e.st = .cancelling then entEnd s2 p i .cancelled 0 true else entEnd s2 p i .failed 9 true
        raise s3 .requestStalled (some p) 6 p [(6, p), (15, i), (8, e.gen.toNat), (4, stCode e.st)]) s

/-- MODEL_ROW_UPDATE: rows of models degraded or freed take their state (R392, R447). -/
def modelBeat (s : State) : State :=
  s.hop.models.foldl (fun s e =>
    (List.range 256).foldl (fun s r =>
      if regF s (rHop e.1 0x64 r) 15 0 = e.2.1 then setRegF s (rHop e.1 0x64 r) 31 30 e.2.2 else s) s)
    (setHop s { s.hop with models := [] })

/-! ### The dispatch ring -/

/-- The sheaf a location field of a partition names (R429), translated (R556), when it names one. -/
def locSheaf (s : State) (p : Nat) (w : Word) : Option Nat :=
  if sheafCodeOk (bits w 13 0) then some (xlatSheaf s p (sheafOfCode (bits w 13 0))) else none

/-- The Hopper's access to a sheaf of its partition: the reason it faults, if it does (R52, R380). -/
def hopFault (s : State) (p : Nat) (loc : Word) : Option Nat :=
  match locSheaf s p loc with
  | none => some 2
  | some sh => if sheafOwner s sh = some p then none else some 3

/-- ADDR_FAULT of a Hopper's access (R53). -/
def hopAddrFault (s : State) (p : Nat) (loc : Word) (off reason : Nat) : State :=
  let t := segTable s p
  let a := 2 ^ 38 + bits loc 13 13 * 2 ^ 37 + bits loc 12 6 * 2 ^ 30 + bits loc 5 0 * 2 ^ 24 + off
  raise s .addrFault (some p) 5 (0x18 + t) [(48, a), (22, 2 ^ 21 + 0x18 + t), (8, reason)]

/-- The NOTIFY that a partition's Hopper sends a binder from its home port die (R278, R380, R400). -/
def hopNotify (s : State) (p sh nc : Nat) : Packet :=
  let d := homePort s p
  { type := .notify, mc := false, tag := 0, dst := coordV (sheafPort sh), src := coordV (dieRouter d 0)
    epoch := BitVec.ofNat 9 (epochOf s (.die d)), part := BitVec.ofNat 6 p
    len := 0, tally := 0, cw := 0, status := 0, addr := BitVec.ofNat 48 nc, body := [] }

/-- DISPATCH_RECORD_WRITE: the oldest dispatch record is written when the ring has space, and its binder notified (R400). A
record for a sheaf that drains or that the partition does not hold is lost. -/
def execDispatchRecordWrite (part : PartId) (s : State) : Out :=
  .next (
    let p := part.val
    let x := hpart s p
    let loc := reg s (rHop p 0x10)
    let base := regF s (rHop p 0x14) 17 0 / 32 * 32
    let n := 2 ^ regF s (rHop p 0x14) 31 28
    match x.disp with
    | [] => s
    | (r0, r1) :: rest =>
      let s0 := setHpart s p { x with disp := rest }
      match hopFault s p loc with
      | some r => hopAddrFault s0 p loc base r
      | none =>
        let sh := (locSheaf s p loc).getD 0
        if drains s (.sheaf sh) then s0
        else
          let tail := x.dispTail % n
          if (tail + 1) % n = memGet (sheaf s sh).bmem base 4 % n then s
          else
            let a := base + 32 + 32 * tail
            let s1 := bmemWrite (bmemWrite s0 sh a 16 r0.toNat) sh (a + 16) 16 r1.toNat
            sendPkt (setHpart s1 p { hpart s1 p with dispTail := (tail + 1) % n }) (hopNotify s1 p sh (bits loc 18 16)))

/-- The copy of ERG_REF_CTRL in the ring's header (R400); a header that has moved gets one. -/
def refBeat (s : State) (p : Nat) : State :=
  let v := reg s { rPart p 0x19 0xC with sel := 0 }
  let x := hpart s p
  let now := (v, reg s (rHop p 0x10), reg s (rHop p 0x14))
  if now = x.refCopy || (hopFault s p (reg s (rHop p 0x10))).isSome then s
  else
    let sh := (locSheaf s p (reg s (rHop p 0x10))).getD 0
    let base := regF s (rHop p 0x14) 17 0 / 32 * 32
    setHpart (if drains s (.sheaf sh) then s else bmemWrite s sh (base + 4) 4 v.toNat) p { x with refCopy := now }

end Sys2Proof.Machine
end

