-- ==== Sys2Proof/Machine/Reports.lean ====
section
/-!
DEFINITION. Report rings and output records of the Hopper (R402 to R416), the expert ledger (R421 to R426), and the swing
groups (R417 to R420).
-/
namespace Sys2Proof.Machine

/-! ### Polling -/

/-- A report ring of a partition. -/
def repRing (s : State) (p k : Nat) : RepRing := mapGet {} s.hop.rings (16 * p + k)
def setRep (s : State) (p k : Nat) (x : RepRing) : State := setHop s { s.hop with rings := mapSet {} s.hop.rings (16 * p + k) x }

def rpKind (r : BitVec 128) : Nat := bits r 127 124
def rpGen (r : BitVec 128) : Nat := bits r 123 116
def rpEntry (r : BitVec 128) : Nat := bits r 115 101

/-- The entry a report names, when its name is current (R382). -/
def rpNamed (s : State) (p : Nat) (r : BitVec 128) : Option Nat :=
  if rpEntry r < hopSize s p ∧ (entAt s p (rpEntry r)).gen.toNat = rpGen r then some (rpEntry r) else none

/-- Leading 1s of an acceptance mask among k bits, bit 0 first (R406, R413). -/
def leadOnes (w : Nat) : Nat → Nat → Nat
  | 0, a => a
  | k + 1, a => if w / 2 ^ a % 2 = 1 then leadOnes w k (a + 1) else a

/-- A report is malformed (R406). -/
def rpBad (s : State) (p : Nat) (r0 : BitVec 128) : Bool :=
  let k := rpKind r0
  let spec := (rpNamed s p r0).map (fun i => (entAt s p i).specK)
  if k = 0 ∨ k > 7 then true
  else if k = 5 then bits r0 99 96 != 5
  else if k = 6 then !(bits r0 99 96 == 8 || bits r0 99 96 == 0xB || bits r0 99 96 == 0xC)
  else
    match spec with
    | none => false
    | some n =>
      if k = 1 then bit r0 79 && (n == 0 || bits r0 77 74 ≥ n)
      else if k = 3 then n == 0 || bits r0 79 76 != n || bits r0 67 48 != (bits r0 99 80 + leadOnes (bits r0 75 68) 8 0) % 2 ^ 20
      else false

/-- A report that is dropped is counted (R405). -/
def rpOrphan (s : State) (p : Nat) : State := incReg s (rHop p 0x54)

/-- A malformed report (R406): its entry fails when its name is current. One whose name is stale, or whose entry has ended or is
CANCELLING, is dropped and counted as any other (R405, log 117). -/
def rpMalformed (s : State) (p k : Nat) (r0 : BitVec 128) : State :=
  let s1 := raiseOnceAt (orReg s (rHop p 0x38) 4) p .reportMalformed (some p) 6 p
    [(6, p), (4, k), (4, rpKind r0), (15, rpEntry r0), (8, rpGen r0)]
  match rpNamed s1 p r0 with
  | none => rpOrphan s1 p
  | some i =>
    let s2 := modEnt s1 p i (fun e => { e with stall := 0 })
    if (entAt s1 p i).quar then rpOrphan (slotsReturn s1 p i) p
    else
      match (entAt s1 p i).st with
      | .queued | .deferred | .prefill | .decode => entEnd s2 p i .failed 0xB
      | _ => rpOrphan s2 p

/-- HEAD is written to the ring (R402). -/
def headWrite (s : State) (p k : Nat) : State :=
  let x := repRing s p k
  if x.since = 0 then s
  else
    let sh := (locSheaf s p (reg s (rHop p 0x1C k))).getD 0
    setRep (bmemWrite s sh (regF s (rHop p 0x20 k) 17 0 / 32 * 32) 4 x.head) p k { x with since := 0 }

/-- REPORT_POLL: the record at HEAD is consumed when its PHASE is the one expected; while the output ring has backed up,
nothing is (R402, R406, R410, R743). -/
def execReportPoll (part : PartId) (ring : Fin 16) (ecc : EccFinds) (s : State) : Out :=
  .next (
    let p := part.val
    let x := repRing s p ring
    let loc := reg s (rHop p 0x1C ring)
    let base := regF s (rHop p 0x20 ring) 17 0 / 32 * 32
    let n := 2 ^ regF s (rHop p 0x20 ring) 31 28
    if !bit loc 31 || x.hand.isSome || (hpart s p).out.length ≥ 4096 then s
    else
      match hopFault s p loc with
      | some r => hopAddrFault s p loc base r
      | none =>
        let sh := (locSheaf s p loc).getD 0
        if drains s (.sheaf sh) then s
        else
          let a := base + 32 + 32 * (x.head % n)
          let (d, s1) := bmemRead s sh a 32 ecc 4
          let r0 := BitVec.ofNat 128 d
          let torn := bmemPoisoned s1 sh a 32
          if !torn && bit r0 100 == x.pass then headWrite s1 p ring
          else
            let y : RepRing := { x with head := (x.head % n + 1) % n, pass := if x.head % n + 1 ≥ n then !x.pass else x.pass, since := x.since + 1 }
            let s2 := setRep s1 p ring y
            let s3 := if torn || rpBad s2 p r0 then rpMalformed s2 p ring r0
              else setRep s2 p ring { y with hand := some (r0, BitVec.ofNat 128 (d / 2 ^ 128)) }
            if (repRing s3 p ring).since ≥ 8 then headWrite s3 p ring else s3)

/-- Apply the report a ring has consumed when it is of a kind (R405): a stale name is dropped and counted; a quarantined
entry gets its slots back; any report ends a stall. -/
def report (p ring kind : Nat) (s : State) (k : Nat → BitVec 128 → BitVec 128 → State → State) : State :=
  match (repRing s p ring).hand with
  | none => s
  | some (r0, r1) =>
    if rpKind r0 ≠ kind then s
    else
      let s1 := setRep s p ring { repRing s p ring with hand := none }
      match rpNamed s1 p r0 with
      | none => rpOrphan s1 p
      | some i =>
        if (entAt s1 p i).quar then rpOrphan (slotsReturn s1 p i) p
        else k i r0 r1 (modEnt s1 p i (fun e => { e with stall := 0 }))

/-- Tokens emitted as final are counted; at MAX_LEN the entry is DONE with LENGTH and a STOP is dispatched (R413, R416). -/
def emitted (s : State) (p i n : Nat) : State :=
  let s1 := modEnt s p i (fun e => { e with generated := (e.generated + n) % 2 ^ 20, length := (e.length + n) % 2 ^ 20 })
  let e := entAt s1 p i
  if e.generated ≥ e.maxLen then entEnd (dispStop s1 p i) p i .done 6 else s1

/-- The token of a TOKEN report (R403). -/
def rpTok (r0 r1 : BitVec 128) : Tok := ⟨bits r0 99 80, bits r1 127 96, bit r0 78, bits r0 73 66, bits r0 77 74⟩

/-- TOKEN_REPORT (R412, R414 to R416, R423): a tentative token is held, and written at once in eager mode. -/
def execTokenReport (part : PartId) (ring : Fin 16) (s : State) : Out :=
  .next (report part ring 1 s (fun i r0 r1 s =>
    let p := part.val
    if (entAt s p i).st ≠ .decode then rpOrphan s p
    else
      let t := rpTok r0 r1
      let s1 := modEnt s p i (fun e => { e with spills := min (e.spills + t.spills) 0xFFFF })
      if bit r0 79 then
        let s2 := modEnt s1 p i (fun e => { e with held := e.held.filter (fun h => h.didx != t.didx) ++ [t] })
        if (entAt s2 p i).eager then outAdd s2 p i (.token true t) else s2
      else emitted (outAdd s1 p i (.token false t)) p i 1))

/-- PREFILL_DONE (R384, R416): its token is generated token 0. -/
def execPrefillDone (part : PartId) (ring : Fin 16) (s : State) : Out :=
  .next (report part ring 2 s (fun i r0 r1 s =>
    let p := part.val
    if (entAt s p i).st ≠ .prefill then rpOrphan s p
    else
      let s1 := modEnt s p i (fun e => { e with st := .decode, generated := 0, length := e.inputLen })
      emitted (outAdd s1 p i (.token false ⟨bits r0 99 80, bits r1 127 96, false, 0, 0⟩)) p i 1))

/-- VERIFY_REPORT (R413 to R416, R425). -/
def execVerifyReport (part : PartId) (ring : Fin 16) (s : State) : Out :=
  .next (report part ring 3 s (fun i r0 r1 s =>
    let p := part.val
    let e := entAt s p i
    if e.st ≠ .decode then rpOrphan s p
    else
      let k := e.specK
      let a := leadOnes (bits r0 75 68) 8 0
      let room := e.maxLen - e.generated
      let n := min a room
      let first := bits r0 99 80
      let carry := bits r1 127 96
      let s1 := chargesEnd s p i n
      let keep := (List.range n).filterMap (fun d => e.held.find? (fun t => t.didx == d))
      let s2 := if e.eager then (if n < k then outAdd s1 p i (.retract (first + n) (k - n)) else s1)
        else keep.foldl (fun s t => outAdd s p i (.token false t)) s1
      let s3 := if a < room then outAdd s2 p i (.token false ⟨first + a, carry, false, 0, 0⟩) else s2
      let s4 := modEnt s3 p i (fun e => { e with held := [] })
      let s5 := dispAdd s4 p i 2 (packFields [(68, 0), (32, carry), (4, k - n), (4, n), (20, first)])
      emitted s5 p i (n + bnat (decide (a < room)))))

/-- Ends an entry from a report: CANCELLING becomes CANCELLED; PREFILL and DECODE take the state given (R384, R405). -/
def reportEnd (p i : Nat) (st : Option (HState × Nat)) (s : State) : State :=
  match (entAt s p i).st, st with
  | .cancelling, _ => entEnd s p i .cancelled 0
  | .prefill, some (t, r) | .decode, some (t, r) => entEnd s p i t r
  | _, _ => rpOrphan s p

/-- DONE_REPORT (R384, R427). -/
def execDoneReport (part : PartId) (ring : Fin 16) (s : State) : Out :=
  .next (report part ring 5 s (fun i _ _ s => reportEnd part i (some (.done, 5)) s))

/-- FAIL_REPORT (R384, R427). -/
def execFailReport (part : PartId) (ring : Fin 16) (s : State) : Out :=
  .next (report part ring 6 s (fun i r0 _ s => reportEnd part i (some (.failed, bits r0 99 96)) s))

/-- CANCEL_ACK (R384). -/
def execCancelAck (part : PartId) (ring : Fin 16) (s : State) : Out :=
  .next (report part ring 7 s (fun i _ _ s => reportEnd part i none s))

/-! ### The expert ledger -/

/-- Spills of an expert in the beat (R426): at the threshold the event, while armed. -/
def spillAdd (s : State) (p e n : Nat) : State :=
  let key := 1024 * p + e
  let old := mapGet 0 s.hop.spill key
  let new := old + n
  let th := regF s (rMoe p 0) 15 0
  let s1 := setHop s { s.hop with spill := mapSet 0 s.hop.spill key new }
  if th = 0 ∨ old ≥ th ∨ new < th then s1
  else if s1.hop.off.contains key then incReg s1 (rMoe p 0x24 e)
  else
    raise (setHop s1 { s1.hop with off := setAdd s1.hop.off key }) .expertSpillHigh (some p) 6 p
      [(6, p), (10, e), (16, min new 0xFFFF)]

/-- At a beat, experts with at most half the threshold arm again, and the beat's counts start over (R426). -/
def spillBeat (s : State) : State :=
  setHop s { s.hop with
    off := s.hop.off.filter (fun key => mapGet 0 s.hop.spill key > regF s (rMoe (key / 1024) 0) 15 0 / 2)
    spill := [] }

/-- The tentative charges of a report are kept for its entry (R424); a full store counts them as unresolved. -/
def chargeAdd (s : State) (p i e tent : Nat) : State :=
  let t := segTable s p
  let n := (s.hop.charges.filter (fun c => segTable s c.part == t)).length
  if n ≥ 2048 then
    raiseOnceAt (orReg (incReg s (rMoe p 0x20 e) (nibSum tent 0)) (rMoe p 0x1C) 2) p .moePendingFull (some p) 5 (0x18 + t) [(1, t), (6, p)]
  else
    incReg (setHop s { s.hop with charges := s.hop.charges ++ [⟨p, i, (entAt s p i).gen, e, tent⟩] }) (rMoe p 0xC e) (nibSum tent 0)

/-- EXPERT_REPORT (R405, R424, R425). -/
def execExpertReport (part : PartId) (ring : Fin 16) (s : State) : Out :=
  .next (
    let p := part.val
    match (repRing s p ring).hand with
    | none => s
    | some (r0, r1) =>
      if rpKind r0 ≠ 4 then s
      else
        let s1 := setRep s p ring { repRing s p ring with hand := none }
        let e := bits r0 99 90
        let tent := bits r1 127 96
        let counted := fun (s : State) =>
          let s := incReg (incReg s (rMoe p 8 e) (bits r0 89 74)) (rMoe p 0x18 e) (bits r0 73 66)
          spillAdd (incReg s (rMoe p 0x14 e) (bits r0 65 58)) p e (bits r0 65 58)
        let on := regBit s1 (rMoe p 0) 31
        if tent = 0 then (if on then counted s1 else s1)
        else
          match rpNamed s1 p r0 with
          | none => if on then rpOrphan (incReg (counted s1) (rMoe p 0x10 e) (nibSum tent 0)) p else s1
          | some i =>
            let x := entAt s1 p i
            if x.quar then rpOrphan (slotsReturn s1 p i) p
            else
              let s2 := modEnt s1 p i (fun e => { e with stall := 0 })
              if !on then s2 else if x.st = .decode then chargeAdd (counted s2) p i e tent else rpOrphan s2 p)

/-! ### Output records -/

/-- The rows of an output record (R408). -/
def outRows (r : OutRec) (phase late : Bool) (time : Nat) : List (BitVec 128) :=
  let (kind, tent, spill, row1) := match r.kind with
    | .token tent t => (1, tent, t.spill, packFields [(68, 0), (32, t.token), (8, min t.spills 255), (20, t.pos)])
    | .retract first n => (2, false, false, packFields [(104, 0), (4, n), (20, first)])
    | .final st reason g sp => (3, false, false, packFields [(84, 0), (16, sp), (20, g), (4, reason), (4, st)])
  [BitVec.ofNat 128 (packFields [(64, time), (1, 0), (1, bnat late), (1, bnat spill), (1, bnat tent), (4, kind), (1, bnat phase),
     (15, r.entry), (8, r.gen.toNat), (32, r.cookie.toNat)]), BitVec.ofNat 128 row1]

/-- A final token leaves (R411): whether it is late, and the entry's deadline ends. -/
def outLate (s : State) (p : Nat) (r : OutRec) : State × Bool :=
  match r.kind with
  | .token false _ =>
    let e := entAt s p r.entry
    if e.gen ≠ r.gen ∨ e.deadline = 0 then (s, false)
    else
      let late := decide (s.time > e.deadline)
      let s1 := setEnt s p r.entry { e with deadline := 0, late := e.late || late }
      if !late then (s1, false)
      else
        let s2 := incReg s1 (rHop p 0x50)
        (if e.late then s2
         else raise s2 .deadlineMissed (some p) 6 p [(6, p), (15, r.entry), (64, e.deadline), (32, s.time)], true)
  | _ => (s, false)

/-- OUTPUT_RECORD_WRITE: the oldest output record goes to host memory; whether the host takes the write (R408 to R411,
R590). A full ring holds it. -/
def execOutputRecordWrite (part : PartId) (ok : Bool) (s : State) : Out :=
  .next (
    let p := part.val
    let x := hpart s p
    let n := 2 ^ min 20 (regF s (rHop p 0x2C) 4 0)
    let tail := regF s (rHop p 0x34) 19 0
    match x.out with
    | [] => s
    | r :: rest =>
      if !portUp s (homePort s p) || !regBit s (rHst p 0) 31 then s
      else if (tail + 1) % n = regF s (rHop p 0x30) 19 0 % n then
        let s1 := orReg (setHpart s p { x with fullTold := true }) (rHop p 0x38) (2 ^ 3)
        if x.fullTold then s1 else raise s1 .outputRingFull (some p) 6 p [(6, p), (16, x.out.length)]
      else
        let s0 := setHpart s p { x with out := rest, fullTold := false }
        if !ok then writeFault s0 p (homePort s p) 3
        else
          let (s1, late) := outLate s0 p r
          let at_ := hostBase s (rHop p 0x24) (rHop p 0x28) 32 + 32 * tail
          let s2 := hostSend s1 (.write (homePort s p) at_ (outRows r (!x.outPass) late s.time))
          let s3 := setRegF s2 (rHop p 0x34) 19 0 ((tail + 1) % n)
          let s4 := if tail + 1 ≥ n then setHpart s3 p { hpart s3 p with outPass := !x.outPass } else s3
          let s5 := signal s4 (homePort s p) p (regF s (rHst p 0) 3 0) false
          match r.kind with
          | .token _ _ => incReg s5 (rHop p 0x58)
          | .retract _ c => incReg s5 (rHop p 0x5C) c
          | .final _ _ _ _ => s5)

/-! ### Swing groups -/

/-- A register of the SWG_ block (R433), with its group. -/
def rSwg (p off : Nat) (g : Nat := 0) : RegLoc := rPart p 8 off g
def swing (s : State) (p g : Nat) : Swing := mapGet {} s.hop.swings (16 * p + g)
def setSwing (s : State) (p g : Nat) (x : Swing) : State := setHop s { s.hop with swings := mapSet {} s.hop.swings (16 * p + g) x }
/-- A group's role: 1 PREFILL, 2 DECODE. The partition's start latches its initial role; until then it is the reset value of
INIT_ROLE (R433). -/
def swingRole (s : State) (p g : Nat) : Nat := (swing s p g).role.getD 2
/-- At a partition's start each group takes the role that INIT_ROLE gives it (R433). -/
def swingStart (s : State) (p : Nat) : State :=
  (List.range 16).foldl (fun s g =>
    setSwing s p g { swing s p g with role := some (regF s (rSwg p 0x20 g) 19 18) }) s

/-- The sheaves of a group (R417). -/
def swingSheaves (w : Word) : List Nat :=
  (List.range (bits w 11 6)).flatMap (fun j => (List.range (bits w 17 12)).filterMap (fun i =>
    let x := bits w 29 24 + i
    let y := bits w 23 18 + j
    if x < 60 ∧ y < 48 then some (sheafOfGrain (grainAt (bits w 30 30) (16 * x) (16 * y))) else none))

/-- Write a group's role word into the binder memories of its sheaves, translated (R420, R556); one that drains takes none. -/
def roleWords (s : State) (p g role b : Nat) : State :=
  let ofs := regF s (rSwg p 0x14) 17 0 / 4 * 4
  ((swingSheaves (reg s (rSwg p 0x1C g))).map (xlatSheaf s p)).foldl (fun s sh =>
    if sheafOwner s sh ≠ some p then hopAddrFault s p (word (sheafCode sh)) ofs 3
    else if drains s (.sheaf sh) then s
    else bmemWrite s sh ofs 4 (role * 2 ^ 30 + (b + 2) % 2 ^ 30)) s

/-- At a boundary every group has held its role for one more beat (R419, R433). -/
def swingHeld (s : State) (p : Nat) : State :=
  (List.range 16).foldl (fun s g =>
    let x := swing s p g
    if regBit s (rSwg p 0x1C g) 31 then setSwing s p g { x with held := min (x.held + 1) 1023 } else s) s

/-- SWING_ROLE_APPLY: changes named for a beat take effect (R420). -/
def swingApply (b : Nat) (s : State) : State :=
  s.hop.swings.foldl (fun s e =>
    match e.2.change with
    | some (role, at_) => if at_ = b then setHop s { s.hop with swings := mapSet {} s.hop.swings e.1 { role := some role } } else s
    | none => s) s

/-- SWING_DECISION of a partition (R418, R419): the ratio and the streaks at every boundary, changes while ENABLE is 1. -/
def swingBeat (s : State) (p b : Nat) : State :=
  let ctl := reg s (rSwg p 0)
  let es := (entList s p).map (entAt s p)
  let pn := ((es.filter (fun e => e.st == .prefill || e.st == .deferred)).map (fun e => e.inputLen)).sum
  let dn := (es.filter (fun e => e.st == .decode)).length
  let wp := bits ctl 23 16 * pn
  let wd := bits ctl 15 8 * dn
  let r := if wp + wd = 0 then 0 else min 255 (256 * wp / (wp + wd))
  let s1 := setReg (setReg (setReg s (rSwg p 8) (word r)) (rSwg p 0xC) (word (min pn (2 ^ 32 - 1)))) (rSwg p 0x10) (word (min dn 0xFFFF))
  let hyst := regF s (rSwg p 4) 31 24
  let step := if bit ctl 31 then max 1 (bits ctl 30 28) else 0
  ((List.range 16).foldl (fun (a : State × Nat) g =>
    let (s, left) := a
    let x := swing s p g
    let th := regF s (rSwg p 0x20 g) 31 24
    if !regBit s (rSwg p 0x1C g) 31 || x.change.isSome then a
    else
      let role := swingRole s p g
      let fits := if role = 2 then r ≥ th + hyst else if role = 1 then r ≤ th - hyst else false
      let y : Swing := { x with streak := if fits then min (x.streak + 1) 255 else 0 }
      if fits && y.streak ≥ regF s (rSwg p 4) 23 16 && y.held ≥ regF s (rSwg p 4) 15 8 && left > 0 then
        let new := 3 - role
        let s1 := setSwing s p g { y with change := some (new, b + 2) }
        let s2 := roleWords (incReg s1 (rSwg p 0x24)) p g new b
        (raise s2 .swingChange (some p) 6 p [(6, p), (4, g), (2, new), (32, (b + 2) % 2 ^ 32)], left - 1)
      else (setSwing s p g y, left)) (s1, step)).1

/-! ### A beat, and a reset of the partition -/

/-- The partitions with a request segment or a swing group in force. -/
def hopParts (s : State) : List Nat :=
  (List.range 64).filter (fun p => hopSize s p != 0 || regBit s (rSwg p 0) 31 || (List.range 16).any (fun g => regBit s (rSwg p 0x1C g) 31))

/-- What the Hoppers do at the beat b that starts at cadence time t, with beats of len ns (R392 to R396, R400, R407, R418 to
R420, R426). -/
def hopBeat (b t len : Nat) (s : State) : State :=
  let s1 := modelBeat (spillBeat (swingApply b ((hopParts s).foldl swingHeld s)))
  (hopParts s1).foldl (fun s p => swingBeat (admissionPass (refBeat (releaseBeat (stallBeat s p) p) p) p b t len) p b) s1

/-- A partition reset (R384, R398, R427): its entries fail with RESET, its slots return, its rings, charges and role words are
forgotten, and its output ring starts a first pass. -/
def hopReset (s : State) (p : Nat) : State :=
  let s1 := (entList s p).foldl (fun s i =>
    let e := entAt s p i
    if e.st = .free then s
    else if terminal e.st then modEnt (slotsReturn s p i) p i (fun e => { e with st := .failed, reason := 0xA })
    else entEnd s p i .failed 0xA) s
  let x := hpart s1 p
  let s2 := setHpart s1 p { out := x.out, fullTold := x.fullTold, order := x.order }
  setHop s2 { s2.hop with
    rings := mapDrop (fun k => k / 16 == p) s2.hop.rings
    charges := s2.hop.charges.filter (fun c => c.part != p)
    off := s2.hop.off.filter (fun k => k / 1024 != p)
    spill := mapDrop (fun k => k / 1024 == p) s2.hop.spill
    swings := mapDrop (fun k => k / 16 == p) s2.hop.swings }

end Sys2Proof.Machine
end

