-- ==== Sys2Proof/Machine/Rick.lean ====
section
/-!
DEFINITION. Sending on a Draught link (R593 to R597), and the rick as this module knows it: link-state records, the
coordinator, positions and sweep order (R602 to R604).
-/
namespace Sys2Proof.Machine

/-- A register of a port's DRT_ block, with its selector (R619 to R621). -/
def rDrt (p off : Nat) (sel : Nat := 0) : RegLoc := rDie (0x18 + p) 0x10 off sel
/-- A link. -/
def lk (s : State) (p l : Nat) : Link := mapGet {} s.links (4 * p + l)
def setLk (s : State) (p l : Nat) (x : Link) : State := { s with links := mapSet {} s.links (4 * p + l) x }
/-- The state of a link (R619): 0 DOWN, 1 TRAINING, 2 IDENT, 3 UP, 4 REFUSED, 5 FAILED. -/
def linkSt (s : State) (p l : Nat) : Nat := regF s (rDrt p 8 l) 31 29
def setLinkSt (s : State) (p l v : Nat) : State := setRegF s (rDrt p 8 l) 31 29 v
def linkUp (s : State) (p l : Nat) : Bool := linkSt s p l == 3
/-- The partner's serial (R619). -/
def peerSerial (s : State) (p l : Nat) : BitVec 64 :=
  BitVec.ofNat 64 ((reg s (rDrt p 0xC l)).toNat + (reg s (rDrt p 0x10 l)).toNat * 2 ^ 32)
/-- True when the partner is a crib (R619). -/
def linkCrib (s : State) (p l : Nat) : Bool := regBit s (rDrt p 8 l) 28
/-- The link of a lane of a port (R592): by DRT_CTRL.SPLIT. -/
def laneLink (s : State) (p lane : Nat) : Nat :=
  match regF s (rDrt p 0) 1 0 with
  | 0 => 0
  | 1 => lane / 8
  | 2 => lane / 4
  | _ => if lane < 8 then 0 else if lane < 12 then 1 else 2

/-- Every link of the module. -/
def allLinks : List (Nat × Nat) := (List.range 24).map (fun k => (k / 4, k % 4))
/-- Module links that are UP. -/
def modLinks (s : State) : List (Nat × Nat) := allLinks.filter (fun e => linkUp s e.1 e.2 && !linkCrib s e.1 e.2)

/-- Send a frame: it takes the next SEQ and stays in the replay buffer until acknowledged (R593, R594). -/
def frameSend (s : State) (p l : Nat) (txn : Option Txn) (ctl : Option Ctl) : State :=
  let x := lk s p l
  incReg (setLk s p l { x with txSeq := (x.txSeq + 1) % 2 ^ 24, frames := x.frames + 1, replay := x.replay ++ [⟨x.txSeq, txn, ctl⟩] })
    (rDrt p 0x24 l)

/-- Send a CONTROL message on a link that is UP (R595). -/
def ctlSend (s : State) (p l : Nat) (c : Ctl) : State := if linkUp s p l then frameSend s p l none (some c) else s

/-- Requests travel on the request channel (R595, R597). -/
def txnReq (t : Txn) : Bool := t.op == .read || t.op == .write || t.op == .send
/-- Units of a transaction (R597). -/
def txnUnits (t : Txn) : Nat := 1 + t.body.length

/-- True when a transaction may be sent now: credit of its channel, and room in the replay buffer (R594, R595). -/
def txnFits (x : Link) (t : Txn) : Bool := txnUnits t ≤ (if txnReq t then x.credReq else x.credRsp) && x.replay.length < 8192

/-- Send a transaction and take its credit. -/
def txnGo (s : State) (p l : Nat) (t : Txn) : State :=
  let x := lk s p l
  let x1 := if txnReq t then { x with credReq := x.credReq - txnUnits t } else { x with credRsp := x.credRsp - txnUnits t }
  frameSend (setLk s p l x1) p l (some t) none

/-- Send a transaction, or let it wait behind those of its channel that wait (R595). -/
def txnSend (s : State) (p l : Nat) (t : Txn) : State :=
  let x := lk s p l
  if txnFits x t && !x.wait.any (fun w => txnReq w == txnReq t) then txnGo s p l t
  else setLk s p l { x with wait := x.wait ++ [t] }

/-- Transactions that wait go while their credit lasts, each channel in order. -/
def txnFlush (s : State) (p l : Nat) : State :=
  let ws := (lk s p l).wait
  let s0 := setLk s p l { lk s p l with wait := [] }
  ws.foldl (fun s t => txnSend s p l t) s0

/-! ### The rick -/

def setRick (s : State) (r : Rick) : State := { s with rick := r }

/-- This module's own link-state record (R602). -/
def ownRecord (s : State) : LsRecord :=
  { serial := Config.moduleSerial, version := s.rick.version, coord := regBit s (rDrt 0 0x100) 30
    links := (modLinks s).map (fun e => ⟨e.1, e.2, peerSerial s e.1 e.2, regF s (rDrt e.1 8 e.2) 15 13, regF s (rDrt e.1 8 e.2) 12 11,
      regF s (rDrt e.1 8 e.2) 27 23⟩) }

/-- Send a message over every module link that is UP, one apart. -/
def flood (s : State) (c : Ctl) (but : Option (Nat × Nat)) : State :=
  (modLinks s).foldl (fun s e => if some e = but then s else ctlSend s e.1 e.2 c) s

/-- The newest record of a serial. -/
def recOf (s : State) (n : BitVec 64) : Option LsRecord := s.rick.records.find? (fun r => r.serial == n)
/-- Keep a record in place of an older one of its serial. -/
def keepRec (s : State) (r : LsRecord) : State :=
  setRick s { s.rick with records := s.rick.records.filter (fun q => q.serial != r.serial) ++ [r] }

/-- True when the records link two serials, each naming the other (R602). -/
def linked (s : State) (a b : BitVec 64) : Bool :=
  let names := fun (x y : BitVec 64) => match recOf s x with
    | some r => r.links.any (fun e => e.peer == y)
    | none => false
  names a b && names b a

/-- The serials the records connect to this module, in k rounds (R602). -/
def reach (s : State) : Nat → List (BitVec 64) → List (BitVec 64)
  | 0, l => l
  | k + 1, l =>
    let more := (s.rick.records.map (fun r => r.serial)).filter (fun n => !l.contains n && l.any (fun m => linked s m n))
    reach s k (l ++ more.eraseDups)

/-- The members of the rick. -/
def members (s : State) : List (BitVec 64) := reach s 16 [Config.moduleSerial]

/-- The lowest serial of a list. -/
def lowest (l : List (BitVec 64)) : Option (BitVec 64) :=
  l.foldl (fun (m : Option (BitVec 64)) n => some (match m with | none => n | some x => if n.toNat < x.toNat then n else x)) none

/-- The coordinator's serial (R603): an existing one that remains, else the lowest candidate, else the lowest member. -/
def coordOfRick (s : State) (ms : List (BitVec 64)) : Option (BitVec 64) :=
  let held := s.rick.topo.bind (fun t => (t.members.find? (fun e => e.1 == t.coord)).map Prod.snd)
  match held.filter (fun n => ms.contains n) with
  | some n => some n
  | none => (lowest (ms.filter (fun n => match recOf s n with | some r => r.coord | none => false))).or (lowest ms)

/-- Positions (R603): members that remain keep theirs; the others take the lowest free, in increasing serial order. -/
def givePositions (old : List (Nat × BitVec 64)) : List (BitVec 64) → Nat → List (Nat × BitVec 64)
  | _, 0 => old
  | new, k + 1 =>
    match lowest new with
    | none => old
    | some n =>
      let p := ((List.range 16).find? (fun p => !old.any (fun e => e.1 == p))).getD 15
      givePositions (old ++ [(p, n)]) (new.filter (· != n)) k

/-- The serial of a position. -/
def serialAt (t : TopoRecord) (p : Nat) : Option (BitVec 64) := (t.members.find? (fun e => e.1 == p)).map Prod.snd
/-- This module's position. -/
def ownPos (t : TopoRecord) : Option Nat := (t.members.find? (fun e => e.2 == Config.moduleSerial)).map Prod.fst

/-- True when the records link two positions. -/
def posLinked (s : State) (ms : List (Nat × BitVec 64)) (a b : Nat) : Bool :=
  match ms.find? (fun e => e.1 == a), ms.find? (fun e => e.1 == b) with
  | some x, some y => linked s x.2 y.2
  | _, _ => false

/-- Depth-first order with its returns, neighbours in increasing position (R604). -/
def dfs (s : State) (ms : List (Nat × BitVec 64)) : Nat → List Nat → Nat → List Nat × List Nat
  | 0, seen, p => ([p], seen)
  | k + 1, seen, p =>
    ((List.range 16).filter (fun q => posLinked s ms p q)).foldl (fun (acc : List Nat × List Nat) q =>
      if acc.2.contains q then acc
      else
        let r := dfs s ms k acc.2 q
        (acc.1 ++ r.1 ++ [p], r.2)) ([p], p :: seen)

/-- The sweep order (R604). -/
def sweepOrder (s : State) (ms : List (Nat × BitVec 64)) (c : Nat) : List Nat :=
  let ring := (List.range 16).filter (fun p => ms.any (fun e => e.1 == p))
  let cyc := (ring.filter (fun p => c ≤ p)) ++ (ring.filter (fun p => p < c))
  if (cyc.zip (cyc.tail ++ [c])).all (fun e => posLinked s ms e.1 e.2) then cyc else (dfs s ms 16 [] c).1

/-- Take a topology: the rick registers, RICK_CHANGED, and COORD_CHANGED when the coordinator moved (R603, R609, R621). -/
def adopt (s : State) (t : TopoRecord) : State :=
  let old := s.rick.topo
  let me := (ownPos t).getD 0
  let used := t.members.foldl (fun m e => m ||| 2 ^ e.1) 0
  let s1 := setRick s { s.rick with topo := some t }
  let s2 := setReg (setReg s1 (rDrt 0 0x10C) (word (used + t.coord * 2 ^ 23 + me * 2 ^ 27 + 2 ^ 31))) (rDrt 0 0x110) (word t.version)
  let s3 := raise s2 .rickChanged none 5 0x18 [(32, t.version), (16, used), (4, t.coord)]
  match old with
  | none => s3
  | some o =>
    if serialAt o o.coord = serialAt t t.coord then s3 else raise s3 .coordChanged none 5 0x18 [(4, o.coord), (4, t.coord)]

/-- Make, take and announce a topology with a given coordinator (R603). -/
def announce (s : State) (ms : List (BitVec 64)) (c : BitVec 64) : State :=
  let kept := (s.rick.topo.map (fun t => t.members.filter (fun e => ms.contains e.2))).getD []
  let ps := givePositions kept (ms.filter (fun n => !kept.any (fun e => e.2 == n))) 16
  let cp := ((ps.find? (fun e => e.2 == c)).map Prod.fst).getD 0
  let t : TopoRecord := { version := (s.rick.topo.map (fun t => t.version)).getD 0 + 1, members := ps, coord := cp, order := sweepOrder s ps cp }
  flood (adopt s t) (.topology t) none

/-- The membership may have changed: the coordinator announces a new topology when it has; a module alone is in no rick
(R602, R603). -/
def rickUpdate (s : State) : State :=
  let ms := members s
  if ms.length ≤ 1 then
    match s.rick.topo with
    | none => s
    | some _ => setReg (setRick s { s.rick with topo := none }) (rDrt 0 0x10C) 0
  else
    match coordOfRick s ms with
    | none => s
    | some c =>
      if c ≠ Config.moduleSerial then s
      else
        let ps := (s.rick.topo.map (fun t => t.members)).getD []
        let same := ms.all (fun n => ps.any (fun e => e.2 == n)) && ps.all (fun e => ms.contains e.2) &&
          (s.rick.topo.map (fun t => t.order)) == (s.rick.topo.map (fun t => sweepOrder s t.members t.coord))
        if same then s else announce s ms c

/-- A module link changed state: a new version of the own record is flooded (R602). -/
def rickChanged (s : State) : State :=
  let s1 := setRick s { s.rick with version := s.rick.version + 1 }
  let r := ownRecord s1
  rickUpdate (flood (keepRec s1 r) (.linkState r) none)

/-- LINK_STATE_RECORD: forwarded and kept when newer (R602). -/
def execLinkStateRecord (port : DieId) (link : Fin 4) (r : LsRecord) (s : State) : Out :=
  .next (
    let newer := match recOf s r.serial with
      | some q => decide (q.version < r.version)
      | none => true
    if !linkUp s port link || r.serial == Config.moduleSerial || !newer then s
    else rickUpdate (flood (keepRec s r) (.linkState r) (some (port.val, link.val))))

/-- TOPOLOGY_RECORD: the coordinator's positions and order are taken and passed on when newer (R603). -/
def execTopologyRecord (port : DieId) (link : Fin 4) (t : TopoRecord) (s : State) : Out :=
  .next (
    let newer := match s.rick.topo with
      | some o => decide (o.version < t.version)
      | none => true
    if !linkUp s port link || !newer then s
    else flood (adopt s t) (.topology t) (some (port.val, link.val)))

/-- The topology as RICK_TOPOLOGY returns it (R605). -/
def topoRows (s : State) : List (BitVec 128) :=
  match s.rick.topo with
  | none => List.replicate 210 0
  | some t =>
    let posOf := fun (n : BitVec 64) => (t.members.find? (fun e => e.2 == n)).map Prod.fst
    let ends := (List.range 16).flatMap (fun a =>
      match (serialAt t a).bind (recOf s) with
      | none => []
      | some r => (List.range 24).flatMap (fun k => (r.links.filter (fun e => e.port == k / 4 && e.link == k % 4)).filterMap (fun e =>
          (posOf e.peer).bind (fun b => if a < b then some (a, b, e) else none))))
    let row := fun (x : Nat × Nat × LsLink) => BitVec.ofNat 128
      (2 ^ 127 + x.1 * 2 ^ 120 + x.2.2.port * 2 ^ 116 + x.2.2.link * 2 ^ 112 + x.2.1 * 2 ^ 108 + x.2.2.pport * 2 ^ 104 +
        x.2.2.plink * 2 ^ 100 + x.2.2.lanes * 2 ^ 91)
    let mem := (List.range 16).map (fun p => match serialAt t p with
      | some n => BitVec.ofNat 128 (2 ^ 127 + n.toNat)
      | none => 0)
    let ls := (ends.take 192).map row
    [BitVec.ofNat 128 (packFields [(32, t.version), (5, t.members.length), (4, t.coord), (8, ls.length)]), 0] ++ mem ++ ls ++
      List.replicate (192 - ls.length) 0

/-- RICK_TOPOLOGY (R581, R605). -/
def execRickTopology (fn : FnId) (ring : Fin 8) (ok : Bool) (s : State) : Out :=
  .next (ownerVerb s fn ring 0x32 0x26 (fun v s => verbResult s v (topoRows s) ok))

end Sys2Proof.Machine
end

