-- ==== Sys2Proof/Machine/Relay.lean ====
section
/-!
DEFINITION. Routes in the rick (R598), and how SENDs and send descriptors end (R606, R607, R614).
-/
namespace Sys2Proof.Machine

/-! ### Routes in the rick -/

/-- The first link toward a position on a shortest path of the records (R598): positions one hop away are those of the
module links that are UP; the others are reached through them, nearest first. -/
def nextHopIn (s : State) (t : TopoRecord) : Nat → List (Nat × (Nat × Nat)) → Nat → Option (Nat × Nat)
  | 0, seen, pos => (seen.find? (fun e => e.1 == pos)).map Prod.snd
  | k + 1, seen, pos =>
    match seen.find? (fun e => e.1 == pos) with
    | some e => some e.2
    | none =>
      let more := (List.range 16).filterMap (fun q =>
        if seen.any (fun e => e.1 == q) then none
        else (seen.find? (fun e => posLinked s t.members e.1 q)).map (fun e => (q, e.2)))
      nextHopIn s t k (seen ++ more) pos

/-- The link a SEND for a position leaves by. -/
def nextHop (s : State) (pos : Nat) : Option (Nat × Nat) :=
  match s.rick.topo with
  | none => none
  | some t =>
    let near := (modLinks s).filterMap (fun e => (t.members.find? (fun m => m.2 == peerSerial s e.1 e.2)).map (fun m => (m.1, e)))
    nextHopIn s t 16 near pos

/-- The answer to a request transaction (R597). -/
def txnReply (t : Txn) (op : TxnOp) (status : Nat) (body : List (BitVec 128 × Bool)) : Txn :=
  { op := op, len := body.length, dest := t.src, src := t.dest, tag := t.tag, part := t.part
    status := BitVec.ofNat 8 status, addr := t.addr, body := body }

/-- Answer a SEND toward the module that made it; one that came straight from it goes back on its link (R598). -/
def sendAnswer (s : State) (back : Nat × Nat) (t : Txn) (status : Nat) : State :=
  let e := (nextHop s t.src.toNat).getD back
  if linkUp s e.1 e.2 then txnSend s e.1 e.2 (txnReply t .sendAck status []) else s

/-! ### Send descriptors -/

def sdSrc (q : SendRun) : Nat := bits q.row0 127 80
def sdDest (q : SendRun) : Nat := bits q.row0 79 76
def sdChan (q : SendRun) : Nat := bits q.row0 75 68
def sdRows (q : SendRun) : Nat := if bits q.row0 67 48 = 0 then 1048576 else bits q.row0 67 48
def sdDrow (q : SendRun) : Nat := bits q.row0 47 28
def sdNc (q : SendRun) : Nat := bits q.row0 27 25

/-- A running send descriptor by its number. -/
def sendOf (s : State) (id : Nat) : Option SendRun := s.sends.find? (fun q => q.id == id)
def modSend (s : State) (id : Nat) (f : SendRun → SendRun) : State :=
  { s with sends := s.sends.map (fun q => if q.id = id then f q else q) }

/-- Entries of a send ring, and the address of one (R370, R606, R620). -/
def sendSize (s : State) (d r : Nat) : Nat := 2 ^ regF s (rDrt d 0x84 r) 31 28
def sendSlot (s : State) (d r i : Nat) : Nat := regF s (rDrt d 0x84 r) 17 0 / 32 * 32 + 32 * i

/-- A send descriptor ends when it has failed, or when every SEND is answered: its result is written, HEAD passes it,
nc[NC] increments, and a failure raises SEND_FAULT (R606, R607). -/
def sendCheck (s : State) (id : Nat) : State :=
  match sendOf s id with
  | none => s
  | some q =>
    if q.fault.isNone && q.left ≠ 0 then s
    else
      let res := match q.fault with
        | none => 2 ^ 124
        | some why => 2 * 2 ^ 124 + why * 2 ^ 120
      let s1 := bmemWrite { s with sends := s.sends.filter (fun x => x.id != id) } q.sh (sendSlot s q.die q.ring q.index + 16) 16
        (q.row1.toNat % 2 ^ 120 + res)
      let s2 := setRegF s1 (rDrt q.die 0x8C q.ring) 15 0 ((q.index + 1) % sendSize s q.die q.ring)
      let s3 := ncInc s2 q.sh (sdNc q) 1
      match q.fault with
      | none => s3
      | some why =>
        raiseOnceAt s3 (8 * q.die + q.ring) .sendFault (sheafOwner s q.sh) 5 (0x18 + q.die)
          [(6, sheafPart s q.sh), (5, 0x18 + q.die), (3, q.ring), (8, why), (4, sdDest q)]

/-- A send descriptor fails: 1 REFUSED, 2 ABSENT, 3 GONE, 4 LINK_DOWN, 5 SRC_FAULT (R606). -/
def sendFail (s : State) (id why : Nat) : State :=
  sendCheck (modSend s id (fun q => { q with fault := some (q.fault.getD why) })) id

/-- A tag of this module's own SENDs is answered (0 OK, or a failure): the send descriptor or the RICK load that waits
for it (R470, R607). -/
def tagAnswer (s : State) (tag why : Nat) : State :=
  match s.sends.find? (fun q => q.tags.any (fun e => e.1 % 2 ^ 32 == tag)) with
  | some q =>
    let s1 := modSend s q.id (fun q => { q with
      tags := q.tags.filter (fun e => e.1 % 2 ^ 32 != tag)
      left := q.left - 1
      fault := if why = 0 then q.fault else some (q.fault.getD why) })
    sendCheck s1 q.id
  | none =>
    s.granary.regions.foldl (fun s e => modRegion s e.1 (fun r =>
      { r with runs := r.runs.map (fun q =>
          if q.tags.any (fun e => e.1 % 2 ^ 32 == tag) then
            { q with
              tags := q.tags.filter (fun e => e.1 % 2 ^ 32 != tag)
              left := q.left - 1
              fault := if why = 0 then q.fault else some (q.fault.getD 8) }
          else q) })) s

/-- Tags of this module's own SENDs that left by a link. -/
def tagsOn (s : State) (k : Nat) : List Nat :=
  let pick := fun (l : List (Nat × Nat)) => (l.filter (fun e => e.2 == k)).map (fun e => e.1 % 2 ^ 32)
  s.sends.flatMap (fun q => pick q.tags) ++ s.granary.regions.flatMap (fun e => e.2.runs.flatMap (fun q => pick q.tags))

/-- A link has gone down: own SENDs that left by it fail with LINK_DOWN, and SENDs relayed over it are answered GONE (R606,
R614). -/
def sendsLost (s : State) (p l : Nat) : State :=
  let k := 4 * p + l
  let s1 := (tagsOn s k).foldl (fun s t => tagAnswer s t 4) s
  let lost := s1.relays.filter (fun e => e.1 == k)
  lost.foldl (fun s e => sendAnswer s (p, l) e.2 3) { s1 with relays := s1.relays.filter (fun e => e.1 != k) }

/-- Rows of a send descriptor have been read: they leave as a SEND (R597, R606, R607). -/
def sendRows (s : State) (id off : Nat) (rows : List (BitVec 128 × Bool)) : State :=
  match sendOf s id with
  | none => s
  | some q =>
    match s.rick.topo with
    | none => sendFail s id 2
    | some t =>
      if (serialAt t (sdDest q)).isNone then sendFail s id 2
      else
        match nextHop s (sdDest q) with
        | none => sendFail s id 4
        | some (p, l) =>
          let x : Txn := { op := .send, len := rows.length, dest := BitVec.ofNat 4 (sdDest q), src := BitVec.ofNat 4 ((ownPos t).getD 0)
                           tag := BitVec.ofNat 32 s.nextTag, part := BitVec.ofNat 6 (sheafPart s q.sh)
                           status := BitVec.ofNat 8 (sdChan q), addr := BitVec.ofNat 62 (sdDrow q + off), body := rows }
          let s1 := txnSend { s with nextTag := s.nextTag + 1 } p l x
          modSend s1 id (fun q => { q with tags := q.tags ++ [(s.nextTag, 4 * p + l)] })

end Sys2Proof.Machine
end

