-- ==== Sys2Proof/Machine/Clock.lean ====
section
/-!
DEFINITION. The sources of cadence time and its states (R624 to R633): how sources qualify and are lost, and what that changes.
-/
namespace Sys2Proof.Machine

/-- A register of the CAD_ block (R656). -/
def rCad (off : Nat) : RegLoc := rModule 0x11 off
def setCad (s : State) (x : Cadence) : State := { s with cad := x }
/-- CAD_STATUS.STATE (R628): 0 UNSET, 1 ACQUIRING, 2 LOCKED, 3 HOLDOVER, 4 FREERUN. -/
def cadState (s : State) : Nat := regF s (rCad 4) 3 0
def setCadState (s : State) (v : Nat) : State := setRegF s (rCad 4) 3 0 v
/-- The source in use (R656). -/
def cadInUse (s : State) : Nat := regF s (rCad 4) 5 4
/-- The primary and secondary source (R624). -/
def cadPrimary (s : State) : Nat := regF s (rCad 0) 31 30
def cadSecondary (s : State) : Nat := regF s (rCad 0) 29 28
/-- True for a source that CAD_CTRL names. -/
def cadNamed (s : State) (src : Nat) : Bool := src != 0 && (src == cadPrimary s || src == cadSecondary s)
/-- True while a source is qualified (R626). -/
def qualified (s : State) (src : Nat) : Bool := s.cad.quals.getD src false
/-- β in ns (R634). -/
def beta (s : State) : Nat := 1000 * regF s (rCad 0x18) 13 0
/-- A signed number as an unsigned one of 64 bits. -/
def int64 (x : Int) : Nat := (x % (2 ^ 64 : Int)).toNat
/-- A signed number in 32 bits, saturating. -/
def int32 (x : Int) : Word := word ((max (-(2 ^ 31 : Int)) (min (2 ^ 31 - 1) x)) % (2 ^ 32 : Int)).toNat

/-- A source is taken (R628, R629): cadence is ACQUIRING on it. -/
def takeSource (s : State) (src : Nat) : State :=
  setCad (setCadState (setRegF s (rCad 4) 5 4 src) 1) { s.cad with last := src, taken := s.time, nearAt := none, farAt := none }

/-- CADENCE_SOURCE (R629); its causes are unknown to the manual. -/
def saySource (s : State) (old new : Nat) : State := raise s .cadenceSource none 0 0 [(4, old), (4, new), (4, 0)]

/-- A change of source, which never steps cadence time (R629, R630). -/
def switchSource (s : State) (src : Nat) : State := takeSource (saySource s (cadInUse s) src) src

/-- How long an offset has stayed within LOCK_NS, and beyond four times it (R629). -/
def noteOffset (s : State) (off : Int) : State :=
  let lim := regF s (rCad 0x30) 15 0
  setCad s { s.cad with
    nearAt := if off.natAbs ≤ lim then some (s.cad.nearAt.getD s.time) else none
    farAt := if off.natAbs > 4 * lim then some (s.cad.farAt.getD s.time) else none }

/-- A measured offset of a source, in ns (R632): shown while the source is in use, with the alarm once per crossing. The
steering it asks for is a free value (R623, log 2). -/
def measured (s : State) (src : Nat) (off : Int) : State :=
  if cadInUse s ≠ src ∨ (cadState s ≠ 1 ∧ cadState s ≠ 2) then s
  else
    let (d, s0) := draw (setReg (noteOffset s off) (rCad 0x1C) (int32 off))
    let s1 := setReg s0 (rCad 0x20) (Config.freeWord d)
    let big := decide (off.natAbs > 1000 * regF s1 (rCad 0x30) 31 16)
    let s2 := setCad s1 { s1.cad with alarm := big }
    if big && !s1.cad.alarm then raise (orReg s2 (rCad 4) (2 ^ 12)) .cadenceOffset none 0 0 [(64, int64 off), (4, src)] else s2

/-- A source qualifies with an offset (R626, R629): from UNSET the first-lock step is pending; from HOLDOVER and FREERUN it is
taken, the primary in place of a secondary that qualified in the same second (R655). -/
def qualify (s : State) (src : Nat) (off : Int) : State :=
  if qualified s src then s
  else
    let s1 := setCad s { s.cad with quals := s.cad.quals.set! src true, qualAt := s.cad.qualAt.set! src s.time }
    if !cadNamed s1 src then s1
    else
      match cadState s1 with
      | 0 => if s1.cad.first.isSome && src != cadPrimary s1 then s1
        else setCad (setRegF s1 (rCad 4) 5 4 src) { s1.cad with first := some off }
      | 3 | 4 => switchSource s1 src
      | _ => if src = cadPrimary s1 ∧ cadInUse s1 ≠ src ∧ s1.time < s1.cad.taken + 1000000000 then switchSource s1 src else s1

/-- A source stops being qualified (R626, R629). -/
def unqualify (s : State) (src : Nat) : State :=
  if !qualified s src then s
  else
    let s1 := setCad s { s.cad with quals := s.cad.quals.set! src false }
    if cadInUse s1 ≠ src then s1
    else
      let other := if src = cadPrimary s1 then cadSecondary s1 else cadPrimary s1
      match cadState s1 with
      | 0 => if other ≠ 0 ∧ qualified s1 other then setRegF s1 (rCad 4) 5 4 other
        else setCad (setRegF s1 (rCad 4) 5 4 0) { s1.cad with first := none }
      | 1 | 2 =>
        if other ≠ 0 ∧ qualified s1 other then switchSource s1 other
        else
          let s2 := setRegF (setCadState s1 3) (rCad 4) 5 4 0
          raise (setCad (setReg s2 (rCad 0x24) 0) { s2.cad with holdFrom := s2.time }) .cadenceHoldover none 0 0 [(4, src), (4, 0)]
      | _ => s1

/-- A register of the CAL_ block (R657). -/
def rCal (off : Nat) (sel : Nat := 0) : RegLoc := rModule 0x12 off sel
def setCal (s : State) (x : Cal) : State := { s with cal := x }

/-- The lanes of a link that goes DOWN leave a calibration run, those already measured too, and are counted (R651). -/
def calLinkLost (s : State) (p l : Nat) : State :=
  match s.cal.run with
  | none => s
  | some r =>
    let gone := fun (k : Nat) => k / 16 == p && laneLink s p (k % 16) == l
    let left := r.left.filter (fun e => !(e.1 == 0 && gone e.2))
    let shadow := r.shadow.filter (fun e => !(e.1 < 96 && gone e.1))
    let n := (r.left.length - left.length) + (r.shadow.length - shadow.length)
    let s1 := setRegF s (rCal 0) 31 24 (satAdd 8 (regF s (rCal 0) 31 24) n)
    if n = 0 then s
    else setRegF (setCal s1 { s1.cal with run := some { r with left := left, shadow := shadow } }) (rCal 0) 3 0 (if left.isEmpty then 3 else 2)

/-- The link that CAD_CTRL names for DRAUGHT. -/
def cadLink (s : State) : Nat × Nat := (regF s (rCad 0) 27 25, regF s (rCad 0) 24 23)
/-- A link is no longer UP, or its upstream role has moved here: DRAUGHT on it is lost (R626, R642). -/
def cadLinkLost (s : State) (p l : Nat) : State :=
  if cadLink s = (p, l) then unqualify (setCad s { s.cad with wordSince := none }) 3 else s

end Sys2Proof.Machine
end

