-- ==== Sys2Proof/Machine/Sweep.lean ====
section
/-!
DEFINITION. The telemetry sweep (R611 to R613): the token, the record each module adds (R744), the handshake, the result.
-/
namespace Sys2Proof.Machine

/-- True when this module is the rick coordinator (R603, R608). -/
def isCoord (s : State) : Bool :=
  match s.rick.topo with
  | none => false
  | some t => ownPos t == some t.coord

def setSweep (s : State) (x : Sweep) : State := setRick s { s.rick with sweep := x }

/-- A reading as 16 bits, two's complement. -/
def read16 (x : Int) : Nat := (x % (2 ^ 16 : Int)).toNat
/-- The last reading of a thermal channel (R692). -/
def chanRead (s : State) (c : Nat) : Int := (mapGet {} s.thm.chans c).reading
/-- The hottest of n channels from c on. -/
def hottestOf (s : State) (c n : Nat) : Int := (List.range n).foldl (fun m k => max m (chanRead s (c + k))) (chanRead s c)
/-- Hopper entries not FREE in a table (R611). -/
def tableUse (s : State) (t : Nat) : Nat := (s.hop.entries.filter (fun e => e.1 / 32768 == t && e.2.st != .free)).length

/-- This module's record of a sweep (R744): rows 0 to 3, row 0 in the low bits. -/
def ownTelemetry (s : State) : BitVec 512 :=
  let trip := bnat s.thm.await
  let thr := bnat (s.thm.chans.any (fun e => e.1 < 160 && e.2.duty < 256))
  let flags := trip + 2 * thr + 4 * bnat (cadState s == 2) + 8 * bnat (regF s (rModule 0xD 0) 3 0 == 5)
  BitVec.ofNat 512 (packFields
    [(16, 0), (16, read16 (hottestOf s 160 16)), (16, read16 (hottestOf s 0 160)), (16, min s.pwr.meter.watts 0xFFFF),
      (64, Config.moduleSerial.toNat),
     (4, flags), (12, 0), (16, spareCount s 1), (16, spareCount s 0), (16, tableUse s 1), (16, tableUse s 0), (16, s.thm.flow),
      (16, read16 (chanRead s 193)), (16, read16 (chanRead s 192)),
     (64, 0), (64, s.time)])

/-- Members without a record: T (R612). -/
def tokMissing (t : SweepTok) : List Nat := (List.range 16).filter (fun p => t.present.testBit p && !t.recs.any (fun e => e.1 == p))
/-- The modules in the order of a leg (R604, R612): the sweep order, or the other way round. -/
def legOrder (t : TopoRecord) (rev : Bool) : List Nat :=
  if rev then t.coord :: (t.order.tail.reverse.dropWhile (· == t.coord)) else t.order
/-- The own record is added to a token that does not have it (R611). -/
def tokAdd (s : State) (me : Nat) (t : SweepTok) : SweepTok :=
  if (tokMissing t).contains me then { t with recs := t.recs ++ [(me, ownTelemetry s)] } else t

/-- A token is passed to a position, and kept until its receiver acknowledges it (R612); none when no link leads there. -/
def tokPass (s : State) (topo : TopoRecord) (t : SweepTok) (p : Nat) : Option State :=
  match (serialAt topo p).bind (fun n => (modLinks s).find? (fun e => peerSerial s e.1 e.2 == n)) with
  | none => none
  | some e => some (ctlSend (setSweep s { s.rick.sweep with kept := some (t, e.1, e.2) }) e.1 e.2 (.token t))

/-- One module of a leg (R612): the own record is added, and the token passed on; none when it goes back. -/
def tokLeg (s : State) (topo : TopoRecord) (me : Nat) (t : SweepTok) : SweepTok × Option State :=
  let t1 := tokAdd s me { t with path := me :: t.path }
  if (tokMissing t1).isEmpty then (t1, none)
  else
    match (legOrder topo t.rev)[t1.path.length]? with
    | none => (t1, none)
    | some p => (t1, tokPass s topo t1 p)

/-- A token goes back one module along its path (R612). With no link there it is lost, and R612's time-out follows. -/
def tokBack (s : State) (topo : TopoRecord) (t : SweepTok) : State :=
  match t.path.tail with
  | [] => s
  | p :: rest => (tokPass s topo { t with back := true, path := p :: rest } p).getD s

/-- The rows of a sweep's result (R613). -/
def sweepRows (s : State) (t : SweepTok) (missing : Nat) : List (BitVec 128) :=
  let slot := fun (p : Nat) =>
    let r := ((t.recs.find? (fun e => e.1 == p)).map Prod.snd).getD 0
    (List.range 4).map (fun k => r.extractLsb' (128 * k) 128)
  [BitVec.ofNat 128 (packFields [(64, t.start), (16, missing), (16, t.present), (32, t.seq)]),
    BitVec.ofNat 128 (packFields [(64, 0), (64, s.time)])] ++ (List.range 16).flatMap slot

/-- A sweep finishes (R613): the result of each RICK_SWEEP, and SWEEP_INCOMPLETE when members have no record. -/
def sweepEnd (s : State) (t : SweepTok) : State :=
  let x := s.rick.sweep
  let missing := (tokMissing t).foldl (fun m p => m ||| 2 ^ p) 0
  let s1 := setSweep s { x with running := none, verbs := [], done := t.seq }
  let s2 := if missing = 0 then s1 else raise s1 .sweepIncomplete none 5 0x18 [(32, t.seq), (16, missing)]
  x.verbs.foldl (fun s id =>
    match verbOf s id with
    | none => s
    | some v => verbResult s v (sweepRows s t missing) (portUp s (ringPort s v.fn v.ring)) 0 (t.seq + missing * 2 ^ 32)) s2

/-- A leg leaves the coordinator, or ends there at once: the reverse leg follows the forward one (R612). -/
def sweepLeg (s : State) (topo : TopoRecord) (me : Nat) (t : SweepTok) : State :=
  let go := fun (t : SweepTok) => (tokLeg s topo me t).2.map (fun s1 => setSweep s1 { s1.rick.sweep with running := some t })
  let t0 := { t with path := [], back := false }
  let t1 := (tokLeg s topo me t0).1
  match go t0 with
  | some s1 => s1
  | none =>
    if (tokMissing t1).isEmpty || t.rev then sweepEnd s t1
    else
      match go { t1 with rev := true, path := [] } with
      | some s1 => s1
      | none => sweepEnd s t1

/-- The token is back at the coordinator (R612). -/
def sweepReturn (s : State) (topo : TopoRecord) (me : Nat) (t : SweepTok) : State :=
  if (tokMissing t).isEmpty || t.rev then sweepEnd s t else sweepLeg s topo me { t with rev := true }

/-- A sweep starts at the coordinator with the members there are (R611). -/
def sweepStart (s : State) (topo : TopoRecord) (me : Nat) (verbs : List Nat) : State :=
  let x := s.rick.sweep
  let seq := (x.seq + 1) % 2 ^ 32
  let present := topo.members.foldl (fun m e => m ||| 2 ^ e.1) 0
  sweepLeg (setSweep s { x with seq := seq, verbs := verbs }) topo me
    { seq := seq, present := present, recs := [], rev := false, path := [], back := false, start := s.time }

/-- RICK_SWEEP: at the coordinator a sweep runs, or the one in progress is joined; elsewhere NOT_COORDINATOR with the
coordinator's serial (R611). -/
def execRickSweep (fn : FnId) (ring : Fin 8) (s : State) : Out :=
  .next (ownerVerb s fn ring 0x31 0x26 (fun v s =>
    match s.rick.topo with
    | none => verbDone s v 0x32
    | some t =>
      if !isCoord s then verbDone s v 0x32 (((serialAt t t.coord).map BitVec.toNat).getD 0)
      else
        let x := s.rick.sweep
        match x.running with
        | some _ => setSweep s { x with verbs := x.verbs ++ [v.id] }
        | none => sweepStart s t t.coord [v.id]))

/-- SWEEP_TIMER: the coordinator's period has passed (R611). -/
def execSweepTimer (s : State) : Out :=
  .next (
    match s.rick.topo with
    | none => s
    | some t => if isCoord s && regF s (rDrt 0 0x100) 15 0 != 0 && s.rick.sweep.running.isNone then sweepStart s t t.coord [] else s)

/-- SWEEP_TOKEN: acknowledged; one already acknowledged is dropped (log 50); the others are taken as R612 states. -/
def execSweepToken (port : DieId) (link : Fin 4) (tok : SweepTok) (s : State) : Out :=
  .next (
    if !linkUp s port link then s
    else
      let s1 := ctlSend s port link (.tokenAck tok.seq)
      let x := s1.rick.sweep
      let key := (tok.seq, tok.rev, tok.back, tok.path.length)
      if x.seen.contains key then s1
      else
        let s2 := setSweep s1 { x with seen := (x.seen.filter (fun k => k.1 == tok.seq)) ++ [key] }
        match s.rick.topo with
        | none => s2
        | some topo =>
          match ownPos topo with
          | none => s2
          | some me =>
            if isCoord s then
              match x.running with
              | none => s2
              | some r =>
                if r.seq ≠ tok.seq ∨ r.rev ≠ tok.rev then s2
                else if tok.back then sweepReturn s2 topo me tok
                else
                  let (t1, go) := tokLeg s2 topo me tok
                  go.getD (sweepReturn s2 topo me t1)
            else if tok.back then tokBack s2 topo tok
            else
              let (t1, go) := tokLeg s2 topo me tok
              go.getD (tokBack s2 topo t1))

/-- SWEEP_HANDSHAKE_ACK: the token kept is released (R612). -/
def execSweepHandshakeAck (port : DieId) (link : Fin 4) (seq : Nat) (s : State) : Out :=
  .next (
    let x := s.rick.sweep
    match x.kept with
    | some (t, p, l) => if linkUp s port link && t.seq = seq && p = port.val && l = link.val then setSweep s { x with kept := none } else s
    | none => s)

/-- SWEEP_TOKEN_TIMEOUT: the reverse leg starts with a copy that holds only the own record; in the reverse leg the sweep
finishes with the records the coordinator has (R612, log 50). -/
def execSweepTokenTimeout (s : State) : Out :=
  .next (
    match s.rick.sweep.running, s.rick.topo with
    | some t, some topo =>
      if t.rev then sweepEnd s (tokAdd s topo.coord t)
      else sweepLeg s topo topo.coord { t with rev := true, recs := t.recs.filter (fun e => e.1 == topo.coord) }
    | some t, none => sweepEnd s t
    | none, _ => s)

/-- A link has gone down with a token kept on it: the token goes back along its path (R612). -/
def sweepLinkLost (s : State) (p l : Nat) : State :=
  let x := s.rick.sweep
  match x.kept, s.rick.topo with
  | some (t, kp, kl), some topo =>
    if kp ≠ p ∨ kl ≠ l then s
    else
      let s1 := setSweep s { x with kept := none }
      if isCoord s then (if x.running.isSome then sweepReturn s1 topo topo.coord t else s1)
      else if t.back then s1
      else tokBack s1 topo t
  | _, _ => s

end Sys2Proof.Machine
end

