-- ==== Sys2Proof/Machine/Links.lean ====
section
/-!
DEFINITION. Draught links (R591 to R601): training, identity, frames, acknowledgements and credits, keys; and the cribs
behind them (R501 to R509).
-/
namespace Sys2Proof.Machine

/-! ### Crib slots -/

/-- A crib slot's serial (R519). -/
def slotSerial (s : State) (k : Nat) : BitVec 64 :=
  BitVec.ofNat 64 ((reg s (rCrb 0x10 k)).toNat + (reg s (rCrb 0x14 k)).toNat * 2 ^ 32)
def setCribState (s : State) (k v : Nat) : State :=
  setRegF (setRegF s (rCrb 0xC k) 31 30 v) (rCrb 4) k k (bnat (v == 1))

/-- The link of a port that leads to a slot's crib. -/
def slotLink (s : State) (k p : Nat) : Option Nat :=
  (List.range 4).find? (fun l => linkUp s p l && linkCrib s p l && peerSerial s p l == slotSerial s k)

/-- CRB_SLOT.LANES follows the lanes of the link the slot is on (R519). -/
def slotLanes (s : State) (k : Nat) : State :=
  let p := cribPort s k
  match slotLink s k p with
  | none => s
  | some l => setRegF s (rCrb 0xC k) 21 17 (regF s (rDrt p 8 l) 27 23)

/-- Send a crib transaction on the slot's present port (R506, R597). -/
def cribSend (s : State) (x : CribTx) : State :=
  let p := cribPort s x.slot
  match slotLink s x.slot p with
  | none => s
  | some l =>
    txnSend s p l
      { op := if x.pkt.type = .write then .write else .read, len := x.pkt.len.toNat, dest := 0, src := 0
        tag := BitVec.ofNat 32 x.tag, part := x.pkt.part, status := 0
        addr := BitVec.ofNat 62 (nbits x.pkt.addr.toNat 38 0 / 16 * 16), body := x.pkt.body }

/-- A mesh request for a slot reaches the port die: it becomes a transaction the die keeps until it is answered (R506,
R597). -/
def cribRequest (s : State) (r : Nat) (p : Packet) : State :=
  let x : CribTx := { tag := s.nextTag, slot := nbits p.addr.toNat 41 39, pkt := p, at_ := r }
  cribSend { s with nextTag := s.nextTag + 1, cribTx := s.cribTx ++ [x] } x

/-- A slot becomes LOST (R508): everything outstanding to it is answered GONE. -/
def slotLost (s : State) (k : Nat) : State :=
  let out := s.cribTx.filter (fun x => x.slot == k)
  let s1 := out.foldl (fun s x => sendGone s x.at_ (.die (0x18 + cribPort s k)) x.pkt) { s with cribTx := s.cribTx.filter (fun x => x.slot != k) }
  let s2 := orReg (setCribState s1 k 2) (rCrb 4) (2 ^ (8 + k))
  let say := fun s p => raise s .cribLost p 0 0 [(3, k), (64, (slotSerial s2 k).toNat), (16, out.length)]
  (cribParts s2 k).foldl (fun s p => say s (some p)) (say s2 none)

/-- The slot moves to its other port: its transactions are sent again there (R506). -/
def slotMove (s : State) (k : Nat) (alt : Bool) : State :=
  let s1 := slotLanes (setRegF s (rCrb 0xC k) 22 22 (bnat alt)) k
  let txs : List CribTx := s1.cribTx.map (fun (x : CribTx) => if x.slot = k then { x with tries := 0 } else x)
  (txs.filter (fun x => x.slot == k)).foldl cribSend { s1 with cribTx := txs }

/-- CRIB_TIMEOUT: a transaction unanswered for TIMEOUT_US is resent, or the slot moves to its alternate port, or is lost
(R506). -/
def execCribTimeout (tag : BitVec 32) (s : State) : Out :=
  .next (
    match s.cribTx.find? (fun x => x.tag == tag.toNat) with
    | none => s
    | some x =>
      let k := x.slot
      if x.tries < regF s (rCrb 0) 15 12 then
        let y := { x with tries := x.tries + 1 }
        cribSend (incReg { s with cribTx := s.cribTx.map (fun z => if z = x then y else z) } (rCrb 0x2C k)) y
      else if regBit s (rCrb 0xC k) 29 && !regBit s (rCrb 0xC k) 22 then slotMove s k true
      else slotLost s k)

/-- An attachment of a slot's crib is gone: the slot goes on with the other, or is LOST (R508); one that a new crib had not
finished binding is EMPTY again. -/
def slotDrop (s : State) (k p : Nat) : State :=
  let alt := regBit s (rCrb 0xC k) 29
  let isAlt := alt && regF s (rCrb 0xC k) 25 23 == p && regF s (rCrb 0xC k) 28 26 != p
  if cribState s k = 3 then
    (if (cribSt s k).back then setCribState s k 2
     else setReg (setReg (setReg s (rCrb 0xC k) 0) (rCrb 0x10 k) 0) (rCrb 0x14 k) 0)
  else if cribState s k ≠ 1 then s
  else if isAlt then
    (if regBit s (rCrb 0xC k) 22 then slotMove s k false else s) |> fun s => setRegF s (rCrb 0xC k) 29 29 0
  else if alt && (slotLink s k (regF s (rCrb 0xC k) 25 23)).isSome then
    if regBit s (rCrb 0xC k) 22 then s else slotMove s k true
  else slotLost s k

/-- Note whether the crib a slot binds returns after a loss. -/
def setBack (s : State) (k : Nat) (b : Bool) : State := { s with cribs := mapMod {} s.cribs k (fun c => { c with back := b }) }

/-- Bind a crib's attachment (R501, R502, R508, R601): a known serial's second attachment is its alternate port; else
the slot of its serial that is LOST, else the lowest EMPTY slot. None when no slot takes it. -/
def cribBind (s : State) (p : Nat) (id : Ident) : Option State :=
  let ser := id.serial
  let set := fun (s : State) (k : Nat) =>
    setCribState (setReg (setReg (setReg s (rCrb 0xC k) (word (p * 2 ^ 26))) (rCrb 0x10 k) (word (ser.toNat % 2 ^ 32)))
      (rCrb 0x14 k) (word (ser.toNat / 2 ^ 32))) k 3
  match (List.range 8).find? (fun k => cribState s k != 0 && slotSerial s k == ser) with
  | some k =>
    if cribState s k = 2 then some (setBack (set s k) k true)
    else some (setRegF (setRegF s (rCrb 0xC k) 29 29 1) (rCrb 0xC k) 25 23 p)
  | none => ((List.range 8).find? (fun k => cribState s k == 0)).map (set s)

/-- A crib's link went from it before or after it came UP: the slot of its serial loses the attachment (R508, log 93). -/
def cribGone (s : State) (p : Nat) (ser : BitVec 64) : State :=
  match (List.range 8).find? (fun k => cribState s k != 0 && slotSerial s k == ser) with
  | some k => slotDrop s k p
  | none => s

/-- True when a training link's partner has named itself a crib. -/
def cribMet (x : Link) : Bool := (x.peer.map (fun id => id.crib)).getD false

/-! ### Link states -/

/-- A link goes DOWN and trains again (R594): cause 1 SIGNAL, 2 INTEGRITY, 3 RETRAIN. A role change not yet applied is
dropped, and its verb completes with LINK_DOWN (R614). -/
def linkDown (s : State) (p l cause : Nat) : State :=
  let x := lk s p l
  let was := linkUp s p l
  let s1 := setLkDown s
  let s2 := if was then raise (calLinkLost s1 p l) .linkDown none 5 (0x18 + p) [(3, p), (2, l), (4, cause)] else s1
  let s3 := match x.ask with
    | some a => verbEnd s2 a.verb 0x30
    | none => s2
  if linkCrib s p l && (was || linkSt s p l == 2 && cribMet x) then cribGone s3 p (peerSerial s p l)
  else if !was then s3
  else sweepLinkLost (cadLinkLost (sendsLost (rickChanged s3) p l) p l) p l
where
  /-- The link's record and state after it went down. -/
  setLkDown (s : State) : State :=
    setRegF (setRegF (setLinkSt (setLk s p l { retrain := (lk s p l).retrain }) p l 0) (rDrt p 8 l) 18 16 0) (rDrt p 0x18 l) 15 0 0

/-- LANE_SIGNAL: FEC lock is sought on a lane of an enabled port, one of the link's lanes (R592); the link begins training, a REFUSED one again as its partner
retrains (R599, R601). -/
def execLaneSignal (port : DieId) (link : Fin 4) (lane : Fin 16) (s : State) : Out :=
  .next (
    if !regBit s (rDrt port 0) 31 || laneLink s port lane != link.val then s
    else
      let x := lk s port link
      if linkSt s port link = 4 then setLinkSt (setLk s port link { signal := 2 ^ lane.val }) port link 1
      else
        let s1 := setLk s port link { x with signal := x.signal ||| 2 ^ lane.val }
        if linkSt s port link = 0 then setLinkSt s1 port link 1 else s1)

/-- The lanes in use of a link (R619), and of the crib slots it carries (R519). -/
def setLanes (s : State) (p l m : Nat) : State :=
  (List.range 8).foldl (fun s k => if cribState s k = 1 then slotLanes s k else s)
    (setRegF (setReg s (rDrt p 0x18 l) (word m)) (rDrt p 8 l) 27 23 (popc 16 m))

/-- LANE_DROP: the link goes on without the lane, or, with none left, goes DOWN (R592). -/
def execLaneDrop (port : DieId) (link : Fin 4) (lane : Fin 16) (s : State) : Out :=
  .next (
    let m := regF s (rDrt port 0x18 link) 15 0
    let m1 := if m / 2 ^ lane.val % 2 = 1 then m - 2 ^ lane.val else m
    if m1 = m then s
    else if m1 = 0 then linkDown s port link 1
    else setLanes s port link m1)

/-- TRAIN_FRAME: lanes with errors or lane numbers that do not match are left out; the lanes that are good (R599). -/
def execTrainFrame (port : DieId) (link : Fin 4) (lanes : BitVec 16) (s : State) : Out :=
  .next (
    let m := (lanes &&& BitVec.ofNat 16 (lk s port link).signal).toNat
    if linkSt s port link ≠ 1 ∨ m = 0 then s
    else setLinkSt (setLanes s port link m) port link 2)

/-- The reason a partner is refused (R601). -/
def identRefuse (s : State) (id : Ident) : Option Nat :=
  let own := (reg s (rDrt 0 0x104)).toNat + (reg s (rDrt 0 0x108)).toNat * 2 ^ 32
  let apart := !(members s).contains id.serial
  if !id.certOk then some 1
  else if id.version ≠ 1 then some 2
  else if id.serial = Config.moduleSerial then some 3
  else if id.crib then none
  else if id.rickId.toNat ≠ own ∨ id.rickId = 0 ∨ !regBit s (rDrt 0 0x100) 31 then some 4
  else if apart && (members s).length + max id.members 1 > 16 then some 5
  else none

/-- LINK_REFUSED (R601). -/
def linkRefuse (s : State) (p l : Nat) (id : Ident) (why : Nat) : State :=
  raise (setRegF (setLinkSt s p l 4) (rDrt p 8 l) 22 19 why) .linkRefused none 5 (0x18 + p)
    [(3, p), (2, l), (64, id.serial.toNat), (8, why)]

/-- IDENT: the partner is refused, or taken, and key agreement begins (R600, R601). A crib of another capacity, or with
no slot for it, is CRIB_REFUSED (R501); both module ends with one CADENCE claim settle it by serial (R608). -/
def execIdent (port : DieId) (link : Fin 4) (id : Ident) (s : State) : Out :=
  .next (
    if linkSt s port link ≠ 2 then s
    else
      let x := lk s port link
      let s0 := setReg (setReg s (rDrt port 0xC link) (word (id.serial.toNat % 2 ^ 32))) (rDrt port 0x10 link) (word (id.serial.toNat / 2 ^ 32))
      let s1 := setRegF (setRegF (setRegF s0 (rDrt port 8 link) 28 28 (bnat id.crib)) (rDrt port 8 link) 15 13 id.port.toNat)
        (rDrt port 8 link) 12 11 id.link.toNat
      let s2 := setLk s1 port link { x with peer := some id, credReq := id.creditReq, credRsp := id.creditRsp }
      match identRefuse s id with
      | some why => linkRefuse s2 port link id why
      | none =>
        if id.crib then
          let refuse := fun (why : Nat) => linkRefuse (raise s2 .cribRefused none 0 0 [(3, port), (64, id.serial.toNat), (4, why)]) port link id 6
          if id.capacity ≠ 512 then refuse 1
          else
            match cribBind s2 port id with
            | none => refuse 2
            | some s3 => s3
        else
          let mine := regBit s (rDrt port 0x14 link) 0
          let low := decide (Config.moduleSerial.toNat < id.serial.toNat)
          let up := if mine = id.cadUp then low else mine
          let s3 := setRegF s2 (rDrt port 8 link) 18 18 (bnat up)
          if mine = id.cadUp then raise s3 .roleConflict none 5 (0x18 + port) [(3, port), (2, link), (4, if up then 1 else 2)] else s3)

/-- KEY_AGREEMENT_CONFIRM: the link is UP (R599); a crib's slot is BOUND, and a returned crib said so (R508). -/
def execKeyAgreementConfirm (port : DieId) (link : Fin 4) (s : State) : Out :=
  .next (
    let x := lk s port link
    match x.peer with
    | none => s
    | some id =>
      if linkSt s port link ≠ 2 then s
      else
        let s1 := setLinkSt (setLk s port link { x with tries := 0, retrain := [] }) port link 3
        let s2 := x.retrain.foldl (fun s v => verbEnd s v 0) s1
        let s3 := raise s2 .linkUp none 5 (0x18 + port)
          [(3, port), (2, link), (4, 1 + bnat id.crib), (64, id.serial.toNat), (5, regF s (rDrt port 8 link) 27 23)]
        if id.crib then
          match (List.range 8).find? (fun k => cribState s3 k == 3 && slotSerial s3 k == id.serial) with
          | none => s3
          | some k =>
            let s4 := setRegF (setCribState (setBack s3 k false) k 1) (rCrb 0xC k) 21 17 (regF s (rDrt port 8 link) 27 23)
            if (cribSt s3 k).back then raise s4 .cribReturned none 0 0 [(3, k), (64, id.serial.toNat)] else s4
        else rickChanged s3)

/-- LINK_TRAIN_TIMEOUT: not UP within 50 ms; after three tries FAILED (R599). Step 1 signal, 2 lock, 3 alignment, 4
identity. -/
def execLinkTrainTimeout (port : DieId) (link : Fin 4) (s : State) : Out :=
  .next (
    let st := linkSt s port link
    let x := lk s port link
    if st ≠ 1 ∧ st ≠ 2 then s
    else
      let step := if st = 1 then (if x.signal = 0 then 1 else 2) else if x.peer.isNone then 3 else 4
      let s0 := if cribMet x then cribGone s port (peerSerial s port link) else s
      if x.tries + 1 < 3 then setLinkSt (setLk s0 port link { x with tries := x.tries + 1, signal := 0, peer := none }) port link 1
      else
        let s1 := setLinkSt (setLk s0 port link {}) port link 5
        let s2 := x.retrain.foldl (fun s v => verbEnd s v 0x30) s1
        raise s2 .linkFailed none 5 (0x18 + port) [(3, port), (2, link), (16, step)])

/-- LINK_FAILED_RETRY: a FAILED link trains again (R599). -/
def execLinkFailedRetry (port : DieId) (link : Fin 4) (s : State) : Out :=
  .next (if linkSt s port link = 5 then setLinkSt s port link 1 else s)

/-- LINK_RETRAIN: the link goes DOWN and training starts again; the verb waits for its end (R594). -/
def execLinkRetrain (fn : FnId) (ring : Fin 8) (s : State) : Out :=
  .next (ownerVerb s fn ring 0x33 0x26 (fun v s =>
    let p := bits v.op0 2 0
    let l := bits v.op0 4 3
    if p > 5 then verbDone s v 0x02
    else
      let s1 := linkDown s p l 3
      setLinkSt (setLk s1 p l { lk s1 p l with retrain := (lk s1 p l).retrain ++ [v.id], tries := 0 }) p l 1))

/-! ### Frames -/

/-- True when a SEQ is at or before an ACK, counted modulo 2^24. -/
def seqAcked (seq ack : Nat) : Bool := (ack + 2 ^ 24 - seq) % 2 ^ 24 < 2 ^ 23

/-- What a frame's header brings: acknowledgements and credits, and with NAK the frames from ACK + 1 on are sent again (R593 to
R595). -/
def headTake (s : State) (p l : Nat) (h : FrameHead) : State :=
  let x := lk s p l
  let x1 := { x with replay := x.replay.filter (fun f => !seqAcked f.seq h.ack.toNat), credReq := x.credReq + h.creditReq.toNat
                     credRsp := x.credRsp + h.creditRsp.toNat, phase := h.keyPhase }
  let n := if h.nak then x1.replay.length else 0
  let s1 := setLk s p l { x1 with frames := x1.frames + n }
  txnFlush (if n = 0 then s1 else incReg s1 (rDrt p 0x24 l) n) p l

/-- A NAK is returned; 16 rejected replays in a row take the link down (R594). -/
def frameReject (s : State) (p l : Nat) : State :=
  let x := lk s p l
  let s1 := incReg (setLk s p l { x with naks := x.naks + 1, rejects := x.rejects + 1 }) (rDrt p 0x20 l)
  if x.rejects + 1 ≥ 16 then linkDown s1 p l 2 else s1

/-- DATA_FRAME: accepted in sequence, or rejected with NAK (R594). A CONTROL frame takes its SEQ here too, with no transactions; its
message is a command of its own (log 124). -/
def execDataFrame (port : DieId) (link : Fin 4) (head : FrameHead) (txns : List Txn) (s : State) : Out :=
  .next (
    if !linkUp s port link then s
    else if !head.tagOk then frameReject (incReg s (rDrt port 0x2C link)) port link
    else
      let s1 := headTake s port link head
      let x := lk s1 port link
      let want := match x.rxSeq with
        | none => 0
        | some n => (n + 1) % 2 ^ 24
      if head.seq.toNat ≠ want then frameReject s1 port link
      else
        let due := x.unacked + 1 ≥ 64
        let x1 := { x with rxSeq := some want, rejects := 0, arrived := x.arrived ++ txns
                           unacked := if due then 0 else x.unacked + 1, ackSent := if due then want else x.ackSent }
        incReg (setLk s1 port link x1) (rDrt port 0x28 link))

/-- IDLE_FRAME (R594). -/
def execIdleFrame (port : DieId) (link : Fin 4) (head : FrameHead) (s : State) : Out :=
  .next (
    if !linkUp s port link then s
    else if !head.tagOk then incReg s (rDrt port 0x2C link)
    else incReg (headTake s port link head) (rDrt port 0x28 link))

/-- Acknowledge what has been received, and return the credits owed (R594, R595). -/
def ackNow (s : State) (p l : Nat) : State :=
  if !linkUp s p l then s
  else
    let x := lk s p l
    setLk s p l { x with unacked := 0, ackSent := x.rxSeq.getD x.ackSent, owedReq := 0, owedRsp := 0 }

/-- ACK_TIMER (R594). -/
def execAckTimer (port : DieId) (link : Fin 4) (s : State) : Out := .next (ackNow s port link)
/-- IDLE_TIMER (R594). -/
def execIdleTimer (port : DieId) (link : Fin 4) (s : State) : Out := .next (ackNow s port link)
/-- LINK_SILENCE_TIMEOUT (R594). -/
def execLinkSilenceTimeout (port : DieId) (link : Fin 4) (s : State) : Out :=
  .next (if linkUp s port link then linkDown s port link 1 else s)

/-- REKEY: a new key exchange after 2^40 frames; the new key takes effect at the first frame with the other phase
(R596). -/
def execRekey (port : DieId) (link : Fin 4) (s : State) : Out :=
  .next (
    let x := lk s port link
    if linkUp s port link && x.frames ≥ 2 ^ 40 then setLk s port link { x with phase := !x.phase, frames := 0 } else s)

/-! ### Transactions -/

/-- A transaction that has arrived is taken: its units are owed back as credit (R595). -/
def txnTake (s : State) (p l : Nat) (t : Txn) : State :=
  let x := lk s p l
  let x1 := { x with arrived := x.arrived.erase t }
  setLk s p l (if txnReq t then { x1 with owedReq := x.owedReq + txnUnits t } else { x1 with owedRsp := x.owedRsp + txnUnits t })

/-- DRAUGHT_READ: a module serves no reads; the answer is ABSENT (R597, log 27). -/
def execDraughtRead (port : DieId) (link : Fin 4) (txn : Txn) (s : State) : Out :=
  .next (if !linkUp s port link then s else txnSend (txnTake s port link txn) port link (txnReply txn .readData 2 []))

/-- DRAUGHT_WRITE: a module takes no writes; the answer is ABSENT (R597, log 27). -/
def execDraughtWrite (port : DieId) (link : Fin 4) (txn : Txn) (s : State) : Out :=
  .next (if !linkUp s port link then s else txnSend (txnTake s port link txn) port link (txnReply txn .writeAck 2 []))

/-- The slot whose crib is the partner of a link. -/
def linkSlot (s : State) (p l : Nat) : Option Nat :=
  (List.range 8).find? (fun k => cribState s k != 0 && slotSerial s k == peerSerial s p l)

/-- CRIB_UE (R509): cause 1 READ, 2 CRIB_PATROL. -/
def cribTell (s : State) (k o cause : Nat) : State :=
  let w := cribCover s k o
  raise (incReg s (rCrb 0x34 k)) .cribUe (w.map winPart) 0 0
    [(3, k), (32, o / 64 * 64), (2, (w.map winKind).getD 0), (6, (w.map winPart).getD 0), (4, cause)]

/-- An answer of a crib: the transaction it ends, or a duplicate dropped and counted (R507, R517). -/
def cribAnswer (s : State) (p l : Nat) (t : Txn) (k : CribTx → State → State) : State :=
  if !linkUp s p l then s
  else
    let s1 := txnTake s p l t
    match linkSlot s p l with
    | none => s1
    | some sl =>
      match s1.cribTx.find? (fun x => x.tag == t.tag.toNat && x.slot == sl) with
      | none => incReg s1 (rCrb 0x30 sl)
      | some x => k x { s1 with cribTx := s1.cribTx.filter (fun y => y.tag != x.tag) }

/-- DRAUGHT_READ_DATA: the rows go back to the requester, poisoned ones told (R489, R509). -/
def execDraughtReadData (port : DieId) (link : Fin 4) (txn : Txn) (s : State) : Out :=
  .next (cribAnswer s port link txn (fun x s =>
    if txn.status ≠ 0 then sendGone s x.at_ (.die (0x18 + port)) x.pkt
    else
      let s1 := incReg s (rCrb 0x24 x.slot) txn.body.length
      let s2 := txn.body.zipIdx.foldl (fun s e => if e.1.2 then cribTell s x.slot (txn.addr.toNat + 16 * e.2) 1 else s) s1
      let q := mkResp x.pkt .readData 0 0 txn.body
      sendPkt s2 { q with src := coordV x.at_, tally := x.pkt.tally, cw := x.pkt.cw }))

/-- DRAUGHT_WRITE_ACK: the writer is acknowledged (R506). -/
def execDraughtWriteAck (port : DieId) (link : Fin 4) (txn : Txn) (s : State) : Out :=
  .next (cribAnswer s port link txn (fun x s =>
    if txn.status ≠ 0 then sendGone s x.at_ (.die (0x18 + port)) x.pkt
    else reply (incReg s (rCrb 0x28 x.slot) x.pkt.len.toNat) x.at_ x.pkt .ack 0 0 []))

/-- DRAUGHT_NOTICE: a crib's patrol found a line uncorrectable (R509). -/
def execDraughtNotice (port : DieId) (link : Fin 4) (txn : Txn) (s : State) : Out :=
  .next (
    if !linkUp s port link then s
    else
      let s1 := txnTake s port link txn
      match linkSlot s port link with
      | none => s1
      | some k => cribTell s1 k txn.addr.toNat 2)

end Sys2Proof.Machine
end

