-- ==== Sys2Proof/Machine/Loader.lean ====
section
/-!
DEFINITION. The Granary loaders (R463 to R473): descriptors, credits, rows, and how descriptors end; and sending over the
rick (R470, R598).
-/
namespace Sys2Proof.Machine

/-- The partition whose permissions a ring in a sheaf's binder memory has: the owner of the sheaf; 64, a partition that holds nothing,
where none owns it (R52, R464, R606). -/
def ringPart (s : State) (sh : Nat) : Nat := (sheafOwner s sh).getD 64
/-- To whom an event about such a ring goes: its partition, else the owner (R23). -/
def ringTell (p : Nat) : Option Nat := if p < 64 then some p else none

/-! ### Descriptors -/

def ldKind (q : LoadRun) : Nat := bits q.row0 127 124
def ldOff (q : LoadRun) : Nat := bits q.row0 123 80
def ldHalf (q : LoadRun) : Nat := bits q.row0 79 79
def ldX (q : LoadRun) : Nat := bits q.row0 78 69
def ldY (q : LoadRun) : Nat := bits q.row0 68 59
def ldW (q : LoadRun) : Nat := bits q.row0 58 49
def ldH (q : LoadRun) : Nat := bits q.row0 48 39
/-- Rows per grain, and the rows of a MEMORY descriptor (R465). -/
def ldRows (q : LoadRun) : Nat := bits q.row0 38 27
def ldMem (q : LoadRun) : Nat := if bits q.row1 79 60 = 0 then 1048576 else bits q.row1 79 60
def ldDrow (q : LoadRun) : Nat := bits q.row0 26 15
def ldTally (q : LoadRun) : Nat := bits q.row0 14 11
def ldCw (q : LoadRun) : Nat := bits q.row0 10 9
def ldChunk (q : LoadRun) : Nat := if bits q.row0 8 1 = 0 then 256 else bits q.row0 8 1
def ldDest (q : LoadRun) : Nat := bits q.row1 127 80
def ldTag (q : LoadRun) : Nat := bits q.row1 59 54
def ldLeaves (q : LoadRun) : Nat := bits q.row1 53 36 / 4 * 4
def ldLeafCount (q : LoadRun) : Nat := bits q.row1 35 28
def ldNc (q : LoadRun) : Nat := bits q.row1 23 21

/-- Rows a descriptor reads (R466, R468 to R470). -/
def ldTotal (q : LoadRun) : Nat :=
  if ldKind q = 2 then ldMem q else if ldKind q = 1 then ldRows q else ldW q * ldH q * ldRows q

/-- Grain g of the rectangle (R466). -/
def ldGrain (q : LoadRun) (g : Nat) : Nat := grainAt (ldHalf q) (ldX q + g % ldW q) (ldY q + g / ldW q)

/-- BAD_DESC (R471): a reserved KIND, a field out of range, a rectangle leaving the half, or R468 not met. -/
def ldBad (s : State) (f : Nat) (q : LoadRun) : Bool :=
  let rect := ldW q == 0 || ldW q > 960 || ldH q == 0 || ldH q > 768 || ldX q + ldW q > 960 || ldY q + ldH q > 768 ||
    ldRows q == 0 || ldDrow q + ldRows q > 3072
  ldOff q % 16 != 0 ||
    (match ldKind q with
     | 0 | 3 => rect
     | 1 =>
       let r := grainAt (ldHalf q) (ldX q) (ldY q)
       rect || ldW q != 1 || ldH q != 1 || ldLeafCount q == 0 || q.ring.isNone ||
         !((List.range 36).any (fun k => granaryRouter f k == r)) || bits (reg s (rTag r (ldTag q))) 10 8 != 4
     | 2 => ldDest q % 16 != 0
     | _ => true)

/-- The physical block of each namespace block a descriptor covers, as it begins (R477). -/
def ldSource (s : State) (q : LoadRun) : SMap (Nat × Nat × Nat) :=
  let b0 := ldOff q / 2 ^ 24
  let b1 := (ldOff q + 16 * ldTotal q - 1) / 2 ^ 24
  (List.range (b1 - b0 + 1)).filterMap (fun k => (nsBlock s q.nsid (b0 + k)).map (fun e => (b0 + k, e)))

/-- One source row, or the reason the descriptor fails there (R463, R471). -/
def ldRow (s : State) (f : Nat) (q : LoadRun) (k : Nat) : Except Nat (BitVec 128 × Bool) :=
  let off := ldOff q + 16 * k
  match mapFind q.src (off / 2 ^ 24) with
  | none => .error 1
  | some (r, b, len) =>
    if r ≠ f then .error 2
    else
      let o := off % 2 ^ 24
      let blk := gblock (region s r) b
      .ok (if o ≥ len then (0, false) else (memRow blk.data o, blk.poison.contains (o / 4096)))

/-- n source rows from row k; the reason of the first that fails. -/
def ldRowsFrom (s : State) (f : Nat) (q : LoadRun) (k n : Nat) : Except Nat (List (BitVec 128 × Bool)) :=
  (List.range n).mapM (fun i => ldRow s f q (k + i))

/-- Change a running descriptor. -/
def modRun (s : State) (f id : Nat) (k : LoadRun → LoadRun) : State :=
  modRegion s f (fun r => { r with runs := r.runs.map (fun q => if q.id = id then k q else q) })
def runOf (s : State) (f id : Nat) : Option LoadRun := (region s f).runs.find? (fun q => q.id == id)
/-- The first fault stops a descriptor (R471). -/
def runFault (s : State) (f id why : Nat) : State := modRun s f id (fun q => { q with fault := some (q.fault.getD why) })

/-- Change one target of a descriptor. -/
def modTgt (q : LoadRun) (i : Nat) (k : LoadTgt → LoadTgt) : LoadRun :=
  { q with tgts := q.tgts.zipIdx.map (fun e => if e.2 = i then k e.1 else e.1) }

/-- The router a loader sends from for a target: the first attach router of its field, or the tree's root (R293, R468). -/
def ldRouter (f : Nat) (q : LoadRun) : Nat := if ldKind q = 1 then grainAt (ldHalf q) (ldX q) (ldY q) else granaryRouter f 0

/-- Request min(CHUNK, rows still owed) credits of a target (R467). -/
def ldAsk (f id : Nat) (s : State) (i : Nat) : State :=
  match runOf s f id with
  | none => s
  | some q =>
    match q.tgts[i]? with
    | none => s
    | some t =>
      let n := min (ldChunk q) (ldRows q - t.sent)
      if q.fault.isSome ∨ n = 0 then s
      else if !(if q.img.isSome then (curSheaves s q.part).contains (t.grain / 256) else grainOwner s t.grain == some q.part) then
        runFault (raise s .addrFault (ringTell q.part) 2 (fieldUnit f)
          [(48, localAddr (ug t.grain) (16 * (ldDrow q + t.sent))), (22, coordOf (ldRouter f q)), (8, 3)]) f id 4
      else
        let s1 := request s (.loader f id i 0 none) (.granary f) .creditReq (ldRouter f q) t.grain q.part 0 n [] 0 (ldCw q)
        modRun s1 f id (fun q => { modTgt q i (fun t => { t with asked := true, back := false }) with left := q.left + 1 })

/-- Send n rows to a target in packets of 4 (R466). -/
def ldSend (f id i : Nat) (s : State) (n : Nat) : State :=
  match runOf s f id with
  | none => s
  | some q =>
    match q.tgts[i]? with
    | none => s
    | some t =>
      (List.range ((n + 3) / 4)).foldl (fun s k =>
        let c := min 4 (n - 4 * k)
        if ((runOf s f id).map (fun q => q.fault.isSome)).getD true then s
        else
          match ldRowsFrom s f q (i * ldRows q + t.sent + 4 * k) c with
          | .error why => runFault s f id why
          | .ok rows =>
            let addr := 16 * (ldDrow q + t.sent + 4 * k)
            let s1 := request s (.loader f id i c none) (.granary f) .writeCredited (ldRouter f q) t.grain q.part c addr rows
              (ldTally q) (ldCw q)
            let s2 := incReg s1 (rGryF f 0x1C) c
            modRun s2 f id (fun q => { modTgt q i (fun t => { t with sent := t.sent + c }) with left := q.left + 1 })) s

/-- Send a batch down the tree of a MULTICAST descriptor, once every leaf has granted it (R468). -/
def ldBatch (s : State) (f id : Nat) : State :=
  match runOf s f id with
  | none => s
  | some q =>
    match q.tgts with
    | [] => s
    | t0 :: _ =>
      let n := q.tgts.foldl (fun m t => min m t.got) t0.got
      if n = 0 ∨ q.fault.isSome then s
      else
        let r := ldRouter f q
        let s1 := (List.range ((n + 3) / 4)).foldl (fun s k =>
          let c := min 4 (n - 4 * k)
          if ((runOf s f id).map (fun q => q.fault.isSome)).getD true then s
          else
            match ldRowsFrom s f q (t0.sent + 4 * k) c with
            | .error why => runFault s f id why
            | .ok rows =>
              let p : Packet :=
                { type := .writeCredited, mc := true, tag := BitVec.ofNat 6 (ldTag q), dst := 0, src := coordV r
                  epoch := BitVec.ofNat 9 (epochOf s (.granary f)), part := BitVec.ofNat 6 q.part, len := BitVec.ofNat 3 c
                  tally := BitVec.ofNat 4 (ldTally q), cw := BitVec.ofNat 2 (ldCw q), status := 0
                  addr := BitVec.ofNat 48 (16 * (ldDrow q + t0.sent + 4 * k)), body := rows }
              let s2 := { s with reqs := s.reqs ++ [⟨r, ldTag q, .loader f id 0 c (some (ldTag q))⟩]
                                 mesh := s.mesh ++ [⟨p, Fin.ofNat 1474560 r, 4⟩] }
              modRun (incReg s2 (rGryF f 0x1C) c) f id (fun q => { q with left := q.left + 1 })) s
        modRun s1 f id (fun q => { q with tgts := q.tgts.map (fun t => { t with sent := t.sent + n, got := t.got - n }) })

/-- The answer of a loader's credit request (R467). -/
def loaderGrant (s : State) (f id i status n : Nat) : State :=
  match runOf s f id with
  | none => s
  | some q =>
    let s1 := modRun s f id (fun q => { modTgt q i (fun t => { t with asked := false }) with left := q.left - 1 })
    if q.fault.isSome then s1
    else
      match status with
      | 0 =>
        if ldKind q = 1 then ldBatch (modRun s1 f id (fun q => modTgt q i (fun t => { t with got := t.got + n }))) f id
        else ldAsk f id (ldSend f id i s1 n) i
      | 3 => modRun s1 f id (fun q => modTgt q i (fun t => { t with back := true }))
      | _ => runFault s1 f id 5

/-- A loader's packet is acknowledged, or its target is GONE (R471). -/
def loaderAck (s : State) (f id i rows : Nat) (tag : Option Nat) (gone : Bool) : State :=
  let s1 := modRun s f id (fun q =>
    let q1 := if tag.isSome then { q with tgts := q.tgts.map (fun t => { t with acked := t.acked + rows }) }
      else modTgt q i (fun t => { t with acked := t.acked + rows })
    { q1 with left := q.left - 1 })
  if gone then runFault (modRun s f id (fun q => { q with left := q.left - 1 })) f id 6
  else
    match tag, runOf s1 f id with
    | some _, some q =>
      if q.tgts.all (fun t => t.acked == t.sent && t.got == 0) then (List.range q.tgts.length).foldl (ldAsk f id) s1 else s1
    | _, _ => s1

/-- Send the packets of a MEMORY descriptor (R469). -/
def ldMemory (f id : Nat) (s : State) (e : Nat × Nat) : State :=
  match runOf s f id with
  | none => s
  | some q =>
    if q.fault.isSome then s
    else
      let a := ldDest q + 16 * e.1
      let rg := nbits a 47 44
      match accFault s (.part q.part) a e.2 true with
      | some (fa, r) =>
        runFault (raise s .addrFault (ringTell q.part) 2 (fieldUnit f) [(48, fa), (22, coordOf (ldRouter f q)), (8, r)]) f id
          (if r = 3 then 4 else 7)
      | none =>
        if rg ≠ 1 ∧ rg ≠ 2 then runFault s f id 7
        else
          match ldRowsFrom s f q e.1 e.2 with
          | .error why => runFault s f id why
          | .ok rows =>
            let s1 := request s (.loader f id 0 e.2 none) (.granary f) .write (ldRouter f q) (targetRouter s (.part q.part) (xlatAddr s q.part a))
              q.part e.2 (xlatAddr s q.part a) rows 0 0 true
            modRun (incReg s1 (rGryF f 0x1C) e.2) f id (fun q => { q with left := q.left + 1 })

/-- Send the rows of a RICK descriptor to every other member (R470, log 28). -/
def ldRick (f id : Nat) (s : State) (e : Nat × Nat) : State :=
  match runOf s f id, s.rick.topo with
  | some q, some t =>
    if q.fault.isSome then s
    else
      match ldRowsFrom s f q e.1 e.2 with
      | .error why => runFault s f id why
      | .ok rows =>
        (t.members.filter (fun m => m.2 != Config.moduleSerial)).foldl (fun s m =>
          match nextHop s m.1 with
          | none => runFault s f id 8
          | some (p, l) =>
            let x : Txn := { op := .send, len := rows.length, dest := BitVec.ofNat 4 m.1, src := BitVec.ofNat 4 ((ownPos t).getD 0)
                             tag := BitVec.ofNat 32 s.nextTag, part := BitVec.ofNat 6 q.part
                             status := BitVec.ofNat 8 (0xF0 + bits q.row1 27 24), addr := BitVec.ofNat 62 e.1, body := rows }
            let s1 := txnSend { s with nextTag := s.nextTag + 1 } p l x
            modRun s1 f id (fun q => { q with tags := q.tags ++ [(s.nextTag, 4 * p + l)], left := q.left + 1 })) s
  | _, _ => runFault s f id 8

/-- While an image operation moves a sheaf, loads of the image reach it at its new place (R557, R560). -/
def opGrain (s : State) (q : LoadRun) (g : Nat) : Nat :=
  match q.img, s.img.op with
  | some _, some o => if o.move && o.part == q.part && o.phase == .act && g / 256 == o.src then o.dst * 256 + g % 256 else g
  | _, _ => g

/-- Begin a descriptor; one read with a poisoned word is BAD_DESC (R743): its codewords are decoded, and its first requests or rows are sent (R466 to R470, R474). -/
def ldBegin (s : State) (f : Nat) (ecc : EccFinds) (q0 : LoadRun) (torn : Bool := false) : State :=
  let q := { q0 with src := ldSource s q0 }
  let s1 := modRegion s f (fun r => { r with runs := r.runs ++ [q] })
  if torn || ldBad s f q then runFault s1 f q.id 3
  else
    let c0 := ldOff q / 4096
    let c1 := (ldOff q + 16 * ldTotal q - 1) / 4096
    let s2 := (ecc.filter (fun e => c0 ≤ e.1 % 2 ^ 40 && e.1 % 2 ^ 40 ≤ c1 && e.1 < 2 ^ 40)).foldl (fun s e =>
      match mapFind q.src (e.1 / 4096) with
      | some (r, b, _) => if r = f then gryDecode ecc e.1 f b (e.1 % 4096) 1 s else s
      | none => s) s1
    let s3 := q.src.foldl (fun s e => gryCount s e.2.1 e.2.2.1
      (pagesSensed e.2.2.2 (ldOff q - e.1 * 2 ^ 24) (min (2 ^ 24) (ldOff q + 16 * ldTotal q - e.1 * 2 ^ 24)))) s2
    match ldKind q with
    | 0 =>
      let ts := (List.range (ldW q * ldH q)).map (fun g =>
        let r := opGrain s q (xlatGrain s q.part (ldGrain q g))
        let n := if (q.only.map (fun sh => sh != r / 256)).getD false then ldRows q else 0
        ({ grain := r, sent := n, acked := n } : LoadTgt))
      (List.range ts.length).foldl (ldAsk f q.id) (modRun s3 f q.id (fun q => { q with tgts := ts }))
    | 1 =>
      let sh := f * 36 + (q.ring.map (fun r => regF s (rGryF f 0x48 r) 5 0)).getD 0
      let leaf := fun k => memGet (sheaf s sh).bmem (ldLeaves q + 4 * k) 4
      let cs := (List.range (ldLeafCount q)).map leaf
      if cs.any (fun c => !coordOk c) then runFault s3 f q.id 3
      else
        let ts := cs.map (fun c => ({ grain := xlatGrain s q.part (grainOfCoord c) } : LoadTgt))
        (List.range ts.length).foldl (ldAsk f q.id) (modRun s3 f q.id (fun q => { q with tgts := ts }))
    | 2 => (packetsOf (ldDest q) (ldMem q)).foldl (ldMemory f q.id) s3
    | _ =>
      if !regBit s (rGry 0) 31 then runFault s3 f q.id 8
      else ((List.range ((ldTotal q + 3) / 4)).map (fun k => (4 * k, min 4 (ldTotal q - 4 * k)))).foldl (ldRick f q.id) s3

/-- A load ring has a descriptor not yet taken (R370, R464, R484). -/
def ringReady (s : State) (f r : Nat) : Bool :=
  regBit s (rGryF f 0x48 r) 31 && regF s (rGryF f 0x48 r) 5 0 < 36 &&
    (region s f).taken.getD r 0 % 2 ^ regF s (rGryF f 0x44 r) 31 28 != regF s (rGryF f 0x50 r) 15 0 % 2 ^ regF s (rGryF f 0x44 r) 31 28

/-- LOAD_DESC_START: the next source in turn that has a descriptor, while fewer than 4 run (R464). -/
def execLoadDescStart (f : FieldId) (ecc : EccFinds) (s : State) : Out :=
  .next (
    let r := region s f
    if !gryReady s || r.runs.length ≥ 4 then s
    else
      let ready := fun (k : Nat) => if k = 8 then !r.queue.isEmpty else ringReady s f k
      match ((List.range 9).map (fun k => (r.turn + k) % 9)).find? ready with
      | none => s
      | some 8 =>
        match r.queue with
        | [] => s
        | q :: rest => ldBegin (setRegion s f { r with queue := rest, turn := 0 }) f ecc q
      | some k =>
        let sh := f.val * 36 + regF s (rGryF f 0x48 k) 5 0
        let n := 2 ^ regF s (rGryF f 0x44 k) 31 28
        let i := r.taken.getD k 0 % n
        let a := regF s (rGryF f 0x44 k) 17 0 / 32 * 32 + 32 * i
        let (d, s1) := bmemRead s sh a 32 ecc 5
        let p := ringPart s sh
        let q : LoadRun := { id := s.nextTag, ring := some k, index := i, verb := none, row0 := BitVec.ofNat 128 d
                             row1 := BitVec.ofNat 128 (d / 2 ^ 128), nsid := (boundNs s p).getD 256, part := p }
        ldBegin (modRegion { s1 with nextTag := s1.nextTag + 1 } f (fun r =>
          { r with turn := (k + 1) % 9, taken := r.taken.set! k ((i + 1) % n) })) f ecc q (bmemPoisoned s1 sh a 32))

/-- True when a descriptor has nothing more to wait for (R471). -/
def ldEnded (q : LoadRun) : Bool :=
  q.left == 0 && (q.fault.isSome ||
    (if ldKind q ≤ 1 then q.tgts.all (fun t => t.acked == ldRows q) else true))

/-- A ring's HEAD passes every descriptor that has ended and has none earlier still running (R464). -/
def ldHead (s : State) (f k : Nat) : Nat → State
  | 0 => s
  | m + 1 =>
    let h := regF s (rGryF f 0x4C k) 15 0
    if (region s f).ended.contains (k, h) then
      ldHead (setRegF (modRegion s f (fun r => { r with ended := r.ended.erase (k, h) })) (rGryF f 0x4C k) 15 0
        ((h + 1) % 2 ^ regF s (rGryF f 0x44 k) 31 28)) f k m
    else s

/-- A MODEL_LOAD verb's descriptor ended (R473). -/
def modelLoadEnd (s : State) (id : Nat) (bad : Bool) : State :=
  match verbOf s id with
  | none => s
  | some v =>
    let n := v.aux + bnat bad
    if v.left ≤ 1 then verbDone s v (if n = 0 then 0 else 0x1B) n
    else modVerb s id (fun v => { v with left := v.left - 1, aux := n })

/-- A LOADS group of an image fails (R546, R564): its partition's start knows its first failure, and a patch ends. -/
def imageLoadFail (s : State) (k why : Nat) : State :=
  let p := k / 65536
  let x := s.img
  { s with img := { x with
    starts := x.starts.map (fun t => if t.part = p then { t with fail := some (t.fail.getD (k % 65536, why)) } else t)
    op := x.op.map (fun o => if o.part = p then { o with fail := true } else o) } }

/-- LOAD_DESC_END: the first descriptor that has ended (R471): on a fault the tally error bits, the ring's fault record
and LOAD_FAULT; the binder's notify counter; blocks no load reads any more. -/
def execLoadDescEnd (f : FieldId) (s : State) : Out :=
  .next (
    match (region s f).runs.find? ldEnded with
    | none => s
    | some q =>
      let s1 := modRegion s f (fun r => { r with runs := r.runs.filter (fun x => x.id != q.id) })
      let s2 := match q.fault with
        | none => s1
        | some why =>
          let short := (q.tgts.filter (fun t => t.acked < ldRows q)).map (fun t => t.grain)
          let s := short.foldl (fun s g => tallyErr s g (ldTally q)) s1
          let s := match q.ring with
            | some k => setReg s (rGryF f 0x54 k) (word (why * 2 ^ 28 + q.index))
            | none => s
          raiseOnceAt s (16 * f.val + q.ring.getD 8) .loadFault (ringTell q.part) 2 (fieldUnit f)
            [(7, f.val % 80), (4, (q.ring.getD 8) + 1), (8, why), (16, q.index)]
      let s3 := match q.ring with
        | some k =>
          let s := ncInc s2 (f.val * 36 + regF s2 (rGryF f 0x48 k) 5 0) (ldNc q) 1
          ldHead (modRegion s f (fun r => { r with ended := r.ended ++ [(k, q.index)] })) f k 65536
        | none => s2
      let s4 := match q.verb, q.img, q.fault with
        | some id, _, _ => modelLoadEnd s3 id q.fault.isSome
        | none, some k, some why => imageLoadFail s3 k why
        | none, _, _ => s3
      s4.granary.regions.foldl (fun s e => reapBlks s e.1) s4)

/-- The load run of descriptor k of a MODEL_LOAD's list: its source offset is moved by the model's first block (R473). -/
def modelRun (m : Model) (mem : Mem) (verb nsid part tag k : Nat) : LoadRun :=
  let d := memGet mem (32 * k) 32
  let r0 := d % 2 ^ 128
  let off := nbits r0 123 80 + m.base * 2 ^ 24
  { id := tag, ring := none, index := k, verb := some verb
    row0 := BitVec.ofNat 128 (r0 - nbits r0 123 80 * 2 ^ 80 + off % 2 ^ 44 * 2 ^ 80)
    row1 := BitVec.ofNat 128 (d / 2 ^ 128), nsid := nsid, part := part }

/-- Queue one load run of a MODEL_LOAD at its region; one whose block is absent has failed (R473). -/
def modelPut (m : Model) (mem : Mem) (verb nsid part : Nat) (s : State) (k : Nat) : State :=
  match nsBlock s nsid ((nbits (memGet mem (32 * k) 32 % 2 ^ 128) 123 80 + m.base * 2 ^ 24) / 2 ^ 24) with
  | none => modelLoadEnd s verb true
  | some (r, _, _) => modRegion { s with nextTag := s.nextTag + 1 } r
      (fun g => { g with queue := g.queue ++ [modelRun m mem verb nsid part s.nextTag k] })

/-- MODEL_LOAD of a committed model with n descriptors (R473). -/
def modelLoadRun (v : Verb) (nsid n : Nat) (m : Model) (mem : Mem) (s : State) : State :=
  let s1 := (List.range n).foldl (modelPut m mem v.id nsid ((nsPart s nsid).getD v.fn)) (modVerb s v.id (fun v => { v with left := n + 1 }))
  match verbOf s1 v.id with
  | none => s1
  | some w => if w.left ≤ 1 then verbDone s1 w (if w.aux = 0 then 0 else 0x1B) w.aux
              else modVerb s1 v.id (fun v => { v with left := v.left - 1 })

/-- MODEL_LOAD (R473): each descriptor goes to the loader of the region that holds its first source byte. -/
def execModelLoad (fn : FnId) (ring : Fin 8) (list : Option (List (BitVec 256))) (s : State) : Out :=
  .next (modelVerb 0x59 fn ring s (fun v nsid h s =>
    match byHandle s nsid h with
    | none => verbDone s v 0x04
    | some m =>
      let n := bits v.op0 47 32
      if pendingSt m then verbDone s v 0x04
      else
        match srcBytes s v.fn (bit v.op0 24) (bits v.op1 63 0) (32 * n) (list.map (fun l => l.flatMap (fun d => toBytes d.toNat 32))) with
        | none => verbDone (srcSay s v (bit v.op0 24) (bits v.op1 63 0) (32 * n)) v 0x02
        | some mem => modelLoadRun v nsid n m mem s))

end Sys2Proof.Machine
end

