-- ==== Sys2Proof/Machine/Send.lean ====
section
/-!
DEFINITION. Send rings, receive channels and relays (R598, R606, R607), and link roles (R608 to R610).
-/
namespace Sys2Proof.Machine

/-! ### Send rings -/

/-- Send the reads of a send descriptor until one faults (R53, R606). -/
def sendReads (id : Nat) (s : State) (e : Nat × Nat) : State :=
  match sendOf s id with
  | none => s
  | some q =>
    let a := sdSrc q + 16 * e.1
    let part := ringPart s q.sh
    let r := dieRouter q.die 0
    match accFault s (.part part) a e.2 false with
    | some (fa, why) =>
      sendFail (raise s .addrFault (ringTell part) 5 (0x18 + q.die) [(48, fa), (22, coordOf r), (8, why)]) id 5
    | none =>
      let s1 := request s (.sendRead q.die id e.1 e.2) (.die (0x18 + q.die)) .readReq r (targetRouter s (.part part) (xlatAddr s part a)) part e.2 (xlatAddr s part a) []
      modSend s1 id (fun q => { q with left := q.left + 1 })

/-- SEND_DESC_START: the next descriptor of a ring that has one and runs none (R606, log 29); one read with a poisoned
word, or whose SRC is in no region 0 to 2 or not a row's, fails with SRC_FAULT (R606, R743). -/
def execSendDescStart (port : DieId) (ring : Fin 8) (ecc : EccFinds) (s : State) : Out :=
  .next (
    let loc := regF s (rDrt port 0x88 ring) 13 0
    let n := sendSize s port ring
    let i := regF s (rDrt port 0x8C ring) 15 0 % n
    if !regBit s (rDrt port 0x88 ring) 31 || !sheafCodeOk loc || i == regF s (rDrt port 0x90 ring) 15 0 % n ||
        s.sends.any (fun q => q.die == port.val && q.ring == ring.val) then s
    else
      let sh := sheafOfCode loc
      let (d, s1) := bmemRead s sh (sendSlot s port ring i) 32 ecc 5
      let q : SendRun := { id := s.nextTag, die := port, ring := ring, index := i, sh := sh
                           row0 := BitVec.ofNat 128 d, row1 := BitVec.ofNat 128 (d / 2 ^ 128) }
      let s2 := { s1 with nextTag := s1.nextTag + 1, sends := s1.sends ++ [q] }
      if bmemPoisoned s1 sh (sendSlot s port ring i) 32 || nbits (sdSrc q) 47 44 > 2 || sdSrc q % 16 != 0 then sendFail s2 q.id 5
      else (packetsOf (sdSrc q) (sdRows q)).foldl (sendReads q.id) s2)

/-! ### Receive channels -/

def modRecv (s : State) (id : Nat) (f : RecvRow → RecvRow) : State :=
  { s with recvs := s.recvs.map (fun q => if q.id = id then f q else q) }
def recvOf (s : State) (id : Nat) : Option RecvRow := s.recvs.find? (fun q => q.id == id)
def modPiece (q : RecvRow) (i : Nat) (k : RecvPiece → RecvPiece) : RecvRow :=
  { q with pieces := q.pieces.zipIdx.map (fun e => if e.2 = i then k e.1 else e.1) }

/-- A channel's descriptor read as a load descriptor (R465, R607). -/
def recvDesc (row0 row1 : BitVec 128) : LoadRun :=
  { id := 0, ring := some 0, index := 0, verb := none, row0 := row0, row1 := row1, nsid := 0, part := 0 }

/-- A received SEND that has nothing more to wait for is answered (R607). -/
def recvCheck (s : State) (id : Nat) : State :=
  match recvOf s id with
  | none => s
  | some q =>
    if q.left = 0 ∧ (q.bad.isSome ∨ q.pieces.all (fun p => p.sent == p.n)) then
      sendAnswer { s with recvs := s.recvs.filter (fun x => x.id != id) } (q.die, q.link) q.txn (q.bad.getD 0)
    else s

/-- A received SEND fails: 1 REFUSED, 3 GONE. -/
def recvFail (s : State) (id why : Nat) : State := modRecv s id (fun q => { q with bad := some (q.bad.getD why) })

/-- Request credits for a piece, as a loader does (R467). -/
def recvAsk (id : Nat) (s : State) (i : Nat) : State :=
  match recvOf s id with
  | none => s
  | some q =>
    match q.pieces[i]? with
    | none => s
    | some p =>
      let d := recvDesc q.row0 q.row1
      let n := min (ldChunk d) (p.n - p.sent)
      if q.bad.isSome ∨ n = 0 then s
      else if grainOwner s p.grain ≠ some q.part then
        recvFail (raise s .addrFault (some q.part) 5 (0x18 + q.die)
          [(48, localAddr (ug p.grain) (16 * (p.row + p.sent))), (22, coordOf (dieRouter q.die 0)), (8, 3)]) id 1
      else
        let s1 := request s (.recv q.die id i 0) (.die (0x18 + q.die)) .creditReq (dieRouter q.die 0) p.grain q.part 0 n [] 0 (ldCw d)
        modRecv s1 id (fun q => { modPiece q i (fun p => { p with back := false }) with left := q.left + 1 })

/-- The answer of a piece's credit request: status 0 to 3 of its grant, 4 a GONE (R279, R467, R607). -/
def recvGrant (s : State) (id i status n : Nat) : State :=
  match recvOf s id with
  | none => s
  | some q =>
    let s1 := modRecv s id (fun q => { q with left := q.left - 1 })
    match q.pieces[i]? with
    | none => recvCheck s1 id
    | some p =>
      if q.bad.isSome then recvCheck s1 id
      else
        match status with
        | 0 =>
          let d := recvDesc q.row0 q.row1
          let rows := (q.txn.body.drop (p.off + p.sent)).take n
          let s2 := request s1 (.recv q.die id i rows.length) (.die (0x18 + q.die)) .writeCredited (dieRouter q.die 0) p.grain q.part
            rows.length (16 * (p.row + p.sent)) rows (ldTally d) (ldCw d)
          recvAsk id (modRecv s2 id (fun q => { modPiece q i (fun p => { p with sent := p.sent + n }) with left := q.left + 1 })) i
        | 3 => modRecv s1 id (fun q => modPiece q i (fun p => { p with back := true }))
        | 4 => recvCheck (recvFail s1 id 3) id
        | _ => recvCheck (recvFail s1 id 1) id

/-- A packet of a received SEND is answered (R607). -/
def recvAck (s : State) (id : Nat) (gone : Bool) : State :=
  let s1 := modRecv s id (fun q => { q with left := q.left - 1 })
  recvCheck (if gone then recvFail s1 id 3 else s1) id

/-- The pieces of body rows for channel rows k on, one grain each (R466). -/
def recvPieces (s : State) (part : Nat) (d : LoadRun) (k n : Nat) : List RecvPiece :=
  let rows := (List.range n).map (fun i => ((k + i) / ldRows d, (k + i) % ldRows d, i))
  let gs := (rows.map (fun e => e.1)).eraseDups
  gs.filterMap (fun g =>
    let mine := rows.filter (fun e => e.1 == g)
    mine.head?.map (fun e => { grain := xlatGrain s part (ldGrain d g), row := ldDrow d + e.2.1, off := e.2.2, n := mine.length }))

/-- One packet of a MEMORY channel's rows (R469, R607). -/
def recvMemory (id base : Nat) (s : State) (e : Nat × Nat) : State :=
  match recvOf s id with
  | none => s
  | some q =>
    let a := base + 16 * e.1
    if q.bad.isSome then s
    else
      match accFault s (.part q.part) a e.2 true with
      | some (fa, why) =>
        recvFail (raise s .addrFault (some q.part) 5 (0x18 + q.die) [(48, fa), (22, coordOf (dieRouter q.die 0)), (8, why)]) id 1
      | none =>
        if nbits a 47 44 ≠ 1 ∧ nbits a 47 44 ≠ 2 then recvFail s id 1
        else
          let s1 := request s (.recv q.die id 0 e.2) (.die (0x18 + q.die)) .write (dieRouter q.die 0) (targetRouter s (.part q.part) (xlatAddr s q.part a))
            q.part e.2 (xlatAddr s q.part a) ((q.txn.body.drop e.1).take e.2) 0 0 true
          modRecv s1 id (fun q => { q with left := q.left + 1 })

/-- Place a SEND's rows by a descriptor with a partition's permissions (R470, R607). -/
def recvPlace (s : State) (p l : Nat) (t : Txn) (row0 row1 : BitVec 128) (part : Nat) : State :=
  let d := recvDesc row0 row1
  let k := t.addr.toNat
  let total := if ldKind d = 2 then ldMem d else ldW d * ldH d * ldRows d
  let bad := match ldKind d with
    | 0 | 3 => ldW d == 0 || ldH d == 0 || ldX d + ldW d > 960 || ldY d + ldH d > 768 || ldRows d == 0 || ldDrow d + ldRows d > 3072
    | 2 => ldDest d % 16 != 0
    | _ => true
  if bad || k + t.body.length > total then sendAnswer s (p, l) t 1
  else
    let id := s.nextTag
    let pieces := if ldKind d = 2 then [] else recvPieces s part d k t.body.length
    let q : RecvRow := { id := id, die := p, link := l, txn := t, part := part, row0 := row0, row1 := row1, pieces := pieces }
    let s1 := { s with nextTag := id + 1, recvs := s.recvs ++ [q] }
    let s2 := if ldKind d = 2 then (packetsOf (ldDest d + 16 * k) t.body.length).foldl (recvMemory id (ldDest d + 16 * k)) s1
      else (List.range pieces.length).foldl (recvAsk id) s1
    recvCheck s2 id

/-- The descriptor of a receive channel from its words (R620). -/
def chanRow (s : State) (p c k : Nat) : BitVec 128 :=
  BitVec.ofNat 128 (packFields ((List.range 4).map (fun i => (32, (reg s (rDrt p (0x60 + 16 * k + 4 * i) c)).toNat))))

/-- A SEND for this module (R607): placed by its channel, or refused. The rows of a RICK load carry their group in the
CHANNEL and come with the load's descriptor (R470, log 28). -/
def sendArrive (s : State) (p l : Nat) (t : Txn) (rick : Option (BitVec 128 × BitVec 128)) : State :=
  let c := t.status.toNat
  match rick with
  | some (d0, d1) =>
    let rx := reg s (rGry 0x18)
    if bit rx 31 && bits rx 9 6 == c % 16 && c / 16 == 15 then recvPlace s p l t d0 d1 (bits rx 5 0)
    else sendAnswer s (p, l) t 1
  | none =>
    let w := reg s (rDrt p 0x44 c)
    if c ≥ 64 || !bit w 31 || !bit w t.src.toNat || t.part.toNat != bits w 24 19 || nbits (chanRow s p c 0).toNat 127 124 % 2 == 1 then
      sendAnswer s (p, l) t 1
    else recvPlace s p l t (chanRow s p c 0) (chanRow s p c 1) (bits w 30 25)

/-- True when a position of the rick has a member. -/
def posHeld (s : State) (pos : Nat) : Bool := (s.rick.topo.bind (fun t => serialAt t pos)).isSome
/-- True when a position is this module's own; alone, any is. -/
def posOwn (s : State) (pos : Nat) : Bool :=
  match s.rick.topo with
  | none => true
  | some t => ownPos t == some pos

/-- SEND: placed, refused, or relayed on a shortest path; a position with no member is ABSENT, one with no link GONE
(R598, R607, R614). -/
def execSendTxn (port : DieId) (link : Fin 4) (txn : Txn) (rick : Option (BitVec 128 × BitVec 128)) (s : State) : Out :=
  .next (
    if !linkUp s port link then s
    else
      let s1 := txnTake s port link txn
      let back := (port.val, link.val)
      if posOwn s txn.dest.toNat then sendArrive s1 port link txn rick
      else if !posHeld s txn.dest.toNat then sendAnswer s1 back txn 2
      else
        match nextHop s txn.dest.toNat with
        | none => sendAnswer s1 back txn 3
        | some (p, l) => txnSend { s1 with relays := s1.relays ++ [(4 * p + l, txn)] } p l txn)

/-- SEND_ACK: the answer of an own SEND, or one relayed toward its sender (R598, R607). -/
def execSendAck (port : DieId) (link : Fin 4) (txn : Txn) (s : State) : Out :=
  .next (
    if !linkUp s port link then s
    else
      let s1 := txnTake s port link txn
      if posOwn s txn.dest.toNat then tagAnswer s1 txn.tag.toNat txn.status.toNat
      else
        let s2 := { s1 with relays := s1.relays.filter (fun e => !(e.2.tag == txn.tag && e.2.src == txn.dest)) }
        match nextHop s txn.dest.toNat with
        | none => s2
        | some (p, l) => txnSend s2 p l txn)

/-- LOADER_CREDIT_RETRY: requests answered BUSY are made again, those of the port die over the field too (R467, R607, log
29). -/
def execLoaderCreditRetry (f : FieldId) (s : State) : Out :=
  .next (
    let s1 := (region s f).runs.foldl (fun s q =>
      ((q.tgts.zipIdx.filter (fun e => e.1.back)).map Prod.snd).foldl (ldAsk f q.id) s) s
    (s1.recvs.filter (fun q => dieField q.die == f.val)).foldl (fun s q =>
      ((q.pieces.zipIdx.filter (fun e => e.1.back)).map Prod.snd).foldl (recvAsk q.id) s) s1)

/-! ### Link roles -/

/-- DRT_LINK_STATUS.CAD_UP and ROLE_PENDING of a link (R619). -/
def cadUp (s : State) (p l : Nat) : Bool := regBit s (rDrt p 8 l) 18
def setPending (s : State) (p l : Nat) (b : Bool) : State := setRegF s (rDrt p 8 l) 16 16 (bnat b)

/-- True when the partner of a link is the rick coordinator. -/
def peerCoord (s : State) (p l : Nat) : Bool :=
  match s.rick.topo with
  | none => false
  | some t => serialAt t t.coord == some (peerSerial s p l)

/-- Send the outstanding role request of a link (R609). -/
def roleSend (s : State) (p l : Nat) : State :=
  match (lk s p l).ask with
  | none => s
  | some a => ctlSend s p l (.roleReq a.round a.cadence a.want)

def setAsk (s : State) (p l : Nat) (a : Option RoleAsk) : State :=
  setPending (setLk s p l { lk s p l with ask := a }) p l a.isSome

/-- LINK_ROLE (R609): OK at once where the role is so already, else a role request; one at a time on a link. -/
def execLinkRole (fn : FnId) (ring : Fin 8) (s : State) : Out :=
  .next (
    match verbNext s fn ring 0x30 with
    | none => s
    | some v =>
      let p := bits v.op0 2 0
      let l := bits v.op0 4 3
      if p ≤ 5 && (lk s p l).ask.isSome then s
      else
        ownerVerb s fn ring 0x30 0x26 (fun v s =>
          let cadence := !bit v.op0 5
          let want := bit v.op0 6
          if p > 5 then verbDone s v 0x02
          else if !linkUp s p l || linkCrib s p l then verbDone s v 0x30
          else if (if cadence then cadUp s p l else isCoord s) = want then verbDone s v 0
          else roleSend (setAsk s p l (some ⟨v.id, cadence, want, 0, 0, false, false, false⟩)) p l))

/-- This end takes the roles of its image and of R603 again (R608, R610). -/
def roleFall (s : State) (p l : Nat) (a : RoleAsk) : State :=
  let mine := regBit s (rDrt p 0x14 l) 0
  let theirs := match (lk s p l).peer with
    | some id => id.cadUp
    | none => !mine
  let up := if mine = theirs then decide (Config.moduleSerial.toNat < (peerSerial s p l).toNat) else mine
  let s1 := setRegF (setAsk s p l none) (rDrt p 8 l) 18 18 (bnat up)
  let s2 := setLk s1 p l { lk s1 p l with given := none }
  let s3 := raise s2 .roleDeadlock none 5 (0x18 + p) [(3, p), (2, l), (64, (peerSerial s p l).toNat), (4, if up then 1 else 2)]
  verbEnd s3 a.verb 0x31

/-- A round of a link's role request failed (R610): after three, the fallback; else the next round's request. -/
def roleRoundFail (s : State) (p l : Nat) (a : RoleAsk) : State :=
  let s1 := incReg s (rDrt p 0x30 l)
  if a.fails + 1 ≥ 3 then roleFall s1 p l a
  else roleSend (setAsk s1 p l (some { a with fails := a.fails + 1, round := a.round + 1, withdrawn := false })) p l

/-- ROLE_ROUND_TIMEOUT: no answer within 1 ms (R610). -/
def execRoleRoundTimeout (port : DieId) (link : Fin 4) (s : State) : Out :=
  .next (
    match (lk s port link).ask with
    | none => s
    | some a => if a.accepted then s else roleRoundFail s port link a)

/-- Answer a partner's role request (R609): a change of roles as they stand is accepted, and applied at the beat. -/
def roleGive (s : State) (p l round : Nat) (cadence want : Bool) : State :=
  let ok := if cadence then cadUp s p l == want else if want then isCoord s else peerCoord s p l
  if ok && (lk s p l).given.isNone then
    ctlSend (setLk s p l { lk s p l with given := some (cadence, want) }) p l (.roleAck round)
  else ctlSend s p l (.roleNak round)

/-- ROLE_REQ (R609, R610): answered, unless it crosses an own request: then the lower serial sends again in the next round
and the other waits for that round's end. -/
def execRoleReq (port : DieId) (link : Fin 4) (round : Nat) (cadence want : Bool) (s : State) : Out :=
  .next (
    if !linkUp s port link then s
    else
      let low := decide (Config.moduleSerial.toNat < (peerSerial s port link).toNat)
      match (lk s port link).ask with
      | none => roleGive s port link round cadence want
      | some a =>
        if a.accepted then roleGive s port link round cadence want
        else if a.withdrawn then
          roleSend (setAsk (roleGive s port link round cadence want) port link
            (some { a with withdrawn := false, round := a.round + 1 })) port link
        else if a.crossed then roleRoundFail s port link a
        else
          let s1 := setAsk s port link (some { a with crossed := true, withdrawn := !low, round := if low then a.round + 1 else a.round })
          if low then roleSend s1 port link else s1)

/-- ROLE_ACK: the change waits for the next beat (R609). -/
def execRoleAck (port : DieId) (link : Fin 4) (round : Nat) (s : State) : Out :=
  .next (
    match (lk s port link).ask with
    | none => s
    | some a =>
      if !linkUp s port link || a.round ≠ round || a.withdrawn then s
      else setAsk s port link (some { a with accepted := true }))

/-- ROLE_NAK: the verb completes with ROLE_REFUSED (R609). -/
def execRoleNak (port : DieId) (link : Fin 4) (round : Nat) (s : State) : Out :=
  .next (
    match (lk s port link).ask with
    | none => s
    | some a =>
      if !linkUp s port link || a.round ≠ round || a.accepted || a.withdrawn then s
      else verbEnd (setAsk s port link none) a.verb 0x33)

/-- At a beat both ends apply an accepted role change (R609): the new coordinator announces the topology. -/
def roleBeat (s : State) (e : Nat × Nat) : State :=
  let (p, l) := e
  let x := lk s p l
  let s1 := match x.ask with
    | some a =>
      if !a.accepted then s
      else
        let s := setAsk s p l none
        let s := if a.cadence then setRegF s (rDrt p 8 l) 18 18 (bnat a.want)
          else if a.want then announce s (members s) Config.moduleSerial else s
        verbEnd s a.verb 0
    | none => s
  match x.given with
  | none => s1
  | some (cadence, want) =>
    let s := setLk s1 p l { lk s1 p l with given := none }
    if cadence then setRegF s (rDrt p 8 l) 18 18 (bnat (!want))
    else if want then s else announce s (members s) Config.moduleSerial

end Sys2Proof.Machine
end

