-- ==== Sys2Proof/Machine/Dma.lean ====
section
/-!
DEFINITION. DMA descriptors (R90 to R94), credit windows' grants (R246), and the DMA streams of a sheaf (R510 to R515).
-/
namespace Sys2Proof.Machine

/-! ### Issue -/

/-- The descriptor of a DMA instruction, its registers read at issue (R90, R91). -/
def dmaDesc (c : Core) (i : Ins) (read : Bool) : Desc :=
  let sh := sGet c i.imm
  { id := c.nextDesc, read := read, cw := i.rd, remote := (sGet c i.ra).toNat + bits (sGet c i.rb) 15 0 * 2 ^ 32
    hiBad := bits (sGet c i.rb) 31 16 != 0, rows := if bits sh 31 20 = 0 then 4096 else bits sh 31 20
    stride := bits sh 19 0 / 16 * 16, lrow := nbits i.w1 31 20, ctally := nbits i.w1 19 16, dtally := nbits i.w1 15 12
    rowLen := if nbits i.w1 9 0 = 0 then 1024 else nbits i.w1 9 0, pc := c.pc }

/-- Local rows of a descriptor: the first, and how many (R90). -/
def dmaSpan (d : Desc) : Nat × Nat := (d.lrow, d.rows * d.rowLen)
/-- True when two descriptors are both READs, which leave unpredictable data where they overlap (R94). -/
def bothRead (d e : Desc) : Bool := d.read && e.read

/-- Append a descriptor to a unit's queue. A READ and each READ queued before it note one another's rows (R94, log 123). -/
def dmaPut (c : Core) (d : Desc) : Core :=
  let d1 := { d with laps := (c.dmaQ.filter (bothRead d)).map dmaSpan }
  { c with dmaQ := c.dmaQ.map (fun e => if bothRead d e then { e with laps := e.laps ++ [dmaSpan d] } else e) ++ [d1]
           nextDesc := c.nextDesc + 1 }

/-- A DMA instruction (R72, R90). -/
def dmaIns (op : Op) (read : Bool) (u : Issuer) (s : State) : State :=
  coreIns op u s (fun i c => dmaPut c (dmaDesc c i read))

/-- DMA_READ (R90). -/
def execDmaRead (u : Issuer) (s : State) : Out := .next (dmaIns .dmaRead true u s)
/-- DMA_WRITE (R90). -/
def execDmaWrite (u : Issuer) (s : State) : Out := .next (dmaIns .dmaWrite false u s)

/-! ### Transfer rows -/

/-- A descriptor of a unit's queue. -/
def descOf (s : State) (u : Issuer) (id : Nat) : Option Desc := (core s u).dmaQ.find? (fun d => d.id == id)
/-- The first local row of a transfer row (R90). -/
def dmaLocal (d : Desc) (k : Nat) : Nat := d.lrow + k * d.rowLen
/-- Rows of a unit's local memory. -/
def localRows (u : Issuer) : Nat := if isBinder u then 16384 else 3072

/-- A local row of a unit: a binder's local addresses wrap modulo 2^18 (R112). -/
def localRow (u : Issuer) (row : Nat) : Nat := if isBinder u then row % 16384 else row
/-- The local part of a transfer row's fault: rows beyond a scratchpad are UNMAPPED (R78, R93). -/
def localFaults (u : Issuer) (d : Desc) (k : Nat) : List (Nat × Nat) :=
  if !isBinder u && dmaLocal d k + d.rowLen > localRows u then [(localAddr u (16 * dmaLocal d k), 2)] else []

/-- The fault of a transfer row, which is checked whole over every byte it addresses, here and there: its address and reason
(R53, R55, R90, R93). -/
def dmaFault (s : State) (u : Issuer) (d : Desc) (k : Nat) : Option (Nat × Nat) :=
  if d.hiBad then some (d.remote, 1)
  else leastFault (rowFaults s (unitAgent s u) (dmaRemote d k) d.rowLen (!d.read) ++ localFaults u d k)

/-- Local rows a WRITE sends, each with its poison mark, and the state after their checks (R261, R743). -/
def dmaRows (s : State) (u : Issuer) (row n : Nat) (ecc : EccFinds) : State × List (BitVec 128 × Bool) :=
  match u with
  | .grain g =>
    let s1 := spdChecks ecc 3 g (16 * row) (16 * n) s
    (s1, (List.range n).map (fun k => spdSendRow (grain s1 g) (row + k)))
  | .binder sh =>
    let at_ := fun k => 16 * localRow u (row + k)
    let s1 := (List.range n).foldl (fun s k => bmemChecks ecc 2 sh (at_ k) 16 s) s
    (s1, (List.range n).map (fun k => (memRow (sheaf s1 sh).bmem (at_ k), bmemPoisoned s1 sh (at_ k) 16)))

/-- Send the requests of a transfer row (R93, R94, R276), cut into packets as `packetsOf` does (log 103). A WRITE outside the
fabric names no tally (R90, log 24). -/
def dmaSendRow (s : State) (u : Issuer) (d : Desc) (k : Nat) (ecc : EccFinds) : State :=
  let a := dmaRemote d k
  let l := dmaLocal d k
  let ps := packetsOf a d.rowLen
  let (s1, rows) := if d.read then (s, []) else dmaRows s u l d.rowLen ecc
  let s2 := modDesc s1 u d.id (fun d => { d with begun := true, nextRow := k + 1, openRows := d.openRows ++ [(k, ps.length, false)] })
  let fabric := nbits a 47 44 == 0
  ps.foldl (fun s e =>
    let b := xlatAddr s (partOf s u) (a + 16 * e.1)
    let own := fabric && !d.read && winSheaf b == sheafOf u
    let body := (rows.drop e.1).take e.2
    request s (.dma u d.id k (localRow u (l + e.1)) own) (portOf u) (if d.read then .readReq else .write) (routerOf u)
      (targetRouter s (unitAgent s u) b) (partOf s u) e.2 b body (if !d.read && fabric then d.dtally else 0)
      (if d.read then d.cw else 0) (!d.read && !fabric)) s2

/-- End a descriptor with a reason; rows under way still end (R93). -/
def dmaStop (s : State) (u : Issuer) (id why : Nat) : State :=
  modDesc s u id (fun d => { d with begun := true, waiting := false, reason := some (d.reason.getD why) })

/-- The next transfer row of a descriptor: a fault ends it; a READ from a tier draws credits from its window, waits in the
window's queue or in the engine, or is refused (R92, R93, R246, R247). A window of a grain that drains accepts no draw, which
waits in the engine (R252). -/
def dmaRow (s : State) (u : Issuer) (d : Desc) (ecc : EccFinds) : State × Bool :=
  let k := d.nextRow
  match dmaFault s u d k with
  | some (a, r) => (dmaStop (addrFault s u a r) u d.id r, false)
  | none =>
    match u with
    | .binder _ => (dmaSendRow s u d k ecc, true)
    | .grain g =>
      if !d.read || nbits (dmaRemote d k) 47 44 == 0 then (dmaSendRow s u d k ecc, true)
      else
        if fenced s g then (modDesc s u d.id (fun d => { d with begun := true }), false)
        else
        let x := window s g d.cw
        match cwRefusal x d.rowLen with
        | some 3 => (modDesc s u d.id (fun d => { d with begun := true }), false)
        | some _ => (dmaStop s u d.id 9, false)
        | none =>
          if cwFits x d.rowLen then (dmaSendRow (setWindow s g d.cw (cwGrant x d.rowLen)) u d k ecc, true)
          else
            (modDesc (setWindow s g d.cw { x with queue := x.queue ++ [(d.rowLen, .own d.id)] }) u d.id
              (fun d => { d with begun := true, waiting := true }), false)

/-- Send a descriptor's rows as far as they go (R94). -/
def dmaRun (u : Issuer) (id : Nat) (ecc : EccFinds) : Nat → State → State
  | 0, s => s
  | n + 1, s =>
    match descOf s u id with
    | none => s
    | some d =>
      if d.reason.isSome || d.waiting || d.nextRow ≥ d.rows then s
      else
        match dmaRow s u d ecc with
        | (s1, true) => dmaRun u id ecc n s1
        | (s1, false) => s1

/-- DMA_DESC_START: the first descriptor that has rows to request begins, or goes on, once those before it have requested
all theirs (R92 to R94). -/
def execDmaDescStart (u : Issuer) (ecc : EccFinds) (s : State) : Out :=
  .next (
    match (core s u).dmaQ.find? (fun d => d.reason.isNone && d.nextRow < d.rows) with
    | none => s
    | some d => dmaRun u d.id ecc 4096 s)

/-- The grant of a grain's own draw (R246): its descriptor sends the row and goes on. While the grain drains nothing is granted
(R252). A draw whose descriptor waits no more only leaves the queue (R93). -/
def ownGrant (s : State) (g : GrainId) (w n id : Nat) (rest : List (Nat × CreditWho)) : State :=
  let u := Issuer.grain g
  let x := window s g w
  if fenced s g then s
  else
    match descOf s u id with
    | none => setWindow s g w { x with queue := rest }
    | some d =>
      if !d.waiting || d.reason.isSome then setWindow s g w { x with queue := rest }
      else
        let s1 := modDesc (setWindow s g w { cwGrant x n with queue := rest }) u id (fun d => { d with waiting := false })
        dmaRun u id [] 4096 (dmaSendRow s1 u { d with waiting := false } d.nextRow [])

/-- WINDOW_GRANT: the request at the head of a window's queue is granted when the window has its credits (R246). -/
def execWindowGrant (g : GrainId) (w : Fin 4) (s : State) : Out :=
  .next (
    let x := window s g w
    match x.queue with
    | [] => s
    | (n, who) :: rest =>
      if n > x.avail then s
      else
        match who with
        | .remote p => reply (setWindow s g w { cwGrant x n with queue := rest }) g p .creditGrant 0 n []
        | .own id => ownGrant s g w n id rest)

/-! ### Streams: their counts -/

/-- Change a stream. -/
def modStream (s : State) (sh id : Nat) (f : StreamRun → StreamRun) : State :=
  let x := sheaf s sh
  setSheaf s sh { x with streams := x.streams.map (fun q => if q.id = id then f q else q) }

/-- A grain descriptor of a stream has completed, or failed (R515). -/
def streamDone (s : State) (u : Issuer) (id : Nat) (bad : Bool) : State :=
  modStream s (sheafOf u) id (fun q => { q with left := q.left - 1, failed := q.failed + bnat bad })

/-! ### Completion -/

/-- GRN_DMA_FAULT, the fault flag and the error bit of a descriptor that ends early (R93, R123). -/
def dmaEndBad (s : State) (u : Issuer) (d : Desc) (why : Nat) : State :=
  let s1 := match u with
    | .grain g => setReg s (rGrain g 1 0x20) (word (d.doneRows * 2 ^ 20 + d.ctally * 2 ^ 16 + why))
    | .binder _ => s
  errDone (setFault s1 u (if why = 8 then 2 ^ 4 else 2 ^ 3) d.pc) u d.ctally

/-- True when a descriptor has nothing under way and no more to send (R91, R93). -/
def dmaEnded (d : Desc) : Bool := d.openRows.isEmpty && (d.reason.isSome || d.nextRow ≥ d.rows)

/-- DMA_COMPLETE: the first descriptor that has ended leaves the queue: its tally increments, or its fault is recorded (R91,
R93); a fence that waits for it looks again (R95). -/
def execDmaComplete (u : Issuer) (s : State) : Out :=
  .next (
    let c := core s u
    match c.dmaQ.find? dmaEnded with
    | none => s
    | some d =>
      let s1 := setCore s u { c with dmaQ := c.dmaQ.erase d }
      let s2 := match d.reason with
        | none => countDone s1 u d.ctally
        | some why => dmaEndBad s1 u d why
      let s3 := match d.stream with
        | none => s2
        | some id => streamDone s2 u id d.reason.isSome
      fenceCheck s3 u)

/-! ### Streams -/

def stAddr (q : StreamRun) : Nat := bits q.row0 127 80
def stOut (q : StreamRun) : Bool := bit q.row0 79
def stFirst (q : StreamRun) : Nat := bits q.row0 78 71
def stCount (q : StreamRun) : Nat := bits q.row0 70 63 + 1
def stLen (q : StreamRun) : Nat := if bits q.row0 62 53 = 0 then 1024 else bits q.row0 62 53
def stRows (q : StreamRun) : Nat := if bits q.row0 52 41 = 0 then 4096 else bits q.row0 52 41
def stLrow (q : StreamRun) : Nat := bits q.row0 40 29

/-- A word of the stream control block (R510). -/
def stWord (s : State) (sh k : Nat) : Nat := memGet (sheaf s sh).bmem (0x3FFC0 + 4 * k) 4
/-- Entries of the stream ring (R370, R510). -/
def stSize (s : State) (sh : Nat) : Nat := 2 ^ nbits (stWord s sh 0) 31 28
/-- The address of a stream descriptor. -/
def stSlot (s : State) (sh i : Nat) : Nat := (nbits (stWord s sh 0) 17 0 / 32 * 32 + 32 * i) % 2 ^ 18

/-- BAD_DESC (R513, R743): the engine's own fields of row 1 aside, a bit not named is reserved. -/
def stBad (q : StreamRun) : Bool :=
  !(nbits (stAddr q) 47 44 == 1 || nbits (stAddr q) 47 44 == 2) || stFirst q + stCount q > 256 ||
    stLrow q + stRows q * stLen q > 3072 || bits q.row1 95 72 != 0 || bits q.row1 54 0 != 0

/-- STREAM_START: the next descriptor of the ring is taken while fewer than 4 run (R510, R513, R514). -/
def execStreamStart (sh : SheafId) (ecc : EccFinds) (s : State) : Out :=
  .next (
    let x := sheaf s sh
    let n := stSize s sh
    let head := stWord s sh 1 % 2 ^ 16 % n
    let i := (head + x.streams.length) % n
    if nbits (stWord s sh 3) 31 31 = 0 || (x.streams.filter (fun q => !q.ended)).length ≥ 4 ||
        (stWord s sh 2 % 2 ^ 16 % n + n - head) % n ≤ x.streams.length then s
    else
      let (d, s1) := bmemRead s sh (stSlot s sh i) 32 ecc 5
      let q : StreamRun := { id := s1.nextTag, index := i, row0 := BitVec.ofNat 128 d, row1 := BitVec.ofNat 128 (d / 2 ^ 128) }
      let bad := bmemPoisoned s1 sh (stSlot s sh i) 32 || stBad q
      let y := sheaf s1 sh
      setSheaf { s1 with nextTag := s1.nextTag + 1 } sh { y with streams := y.streams ++ [{ q with bad := bad, left := if bad then 0 else stCount q }] })

/-- The DMA descriptor a stream builds for its grain k (R512). -/
def stDesc (q : StreamRun) (k : Nat) (c : Core) : Desc :=
  { id := c.nextDesc, read := !stOut q, cw := bits q.row0 24 23, remote := (stAddr q + k * (bits q.row1 127 96 / 16 * 16)) % 2 ^ 48
    hiBad := false, rows := stRows q, stride := bits q.row0 19 0 / 16 * 16, lrow := stLrow q, ctally := bits q.row0 28 25
    dtally := 0, rowLen := stLen q, pc := c.lastPc, stream := some q.id }

/-- True when a stream has a grain to place that its grain's queue can take, or that fails at placement (R514). -/
def stReady (s : State) (sh : Nat) (q : StreamRun) : Bool :=
  let g := 256 * sh + (stFirst q + q.next)
  !q.ended && !q.bad && q.next < stCount q && (!earOn s (g / 16) || fenced s g || (grain s g).core.dmaQ.length < 4)

/-- STREAM_PLACE: one grain descriptor of the next stream in turn (R512, R514). -/
def execStreamPlace (sh : SheafId) (s : State) : Out :=
  .next (
    let x := sheaf s sh
    let ready := x.streams.filter (stReady s sh)
    match (ready.find? (fun q => q.id > x.streamTurn)).or ready.head? with
    | none => s
    | some q =>
      let g := 256 * sh.val + (stFirst q + q.next)
      let s1 := setSheaf s sh { x with streamTurn := q.id }
      let s2 := modStream s1 sh q.id (fun q => { q with next := q.next + 1 })
      if !earOn s (g / 16) || fenced s g then streamDone s2 (.binder sh) q.id true
      else setCore s2 (ug g) (dmaPut (core s2 (ug g)) (stDesc q q.next (core s2 (ug g)))))

/-- STREAM_HEAD passes the streams that have ended with none earlier running (R515). -/
def stPass (sh : Nat) (s : State) : State :=
  let x := sheaf s sh
  let k := (x.streams.takeWhile (fun q => q.ended)).length
  let h := (stWord s sh 1 % 2 ^ 16 + k) % stSize s sh
  bmemWrite (setSheaf s sh { x with streams := x.streams.drop k }) sh 0x3FFC4 4 h

/-- STREAM_END: the first stream whose grains have all completed or failed (R515). -/
def execStreamEnd (sh : SheafId) (s : State) : Out :=
  .next (
    match (sheaf s sh).streams.find? (fun q => !q.ended && q.left == 0) with
    | none => s
    | some q =>
      let res := if q.bad then 3 else if q.failed = 0 then 1 else 2
      let row1 := bits q.row1 127 96 * 2 ^ 96 + res * 2 ^ 64 + q.failed * 2 ^ 55
      let s1 := bmemWrite (modStream s sh q.id (fun q => { q with ended := true })) sh (stSlot s sh q.index + 16) 16 row1
      let s2 := stPass sh (ncInc s1 sh (bits q.row0 22 20) 1)
      if res ≠ 2 then s2
      else
        raiseOnce s2 .streamFault (sheafOwner s sh) 3 (sheafUnit sh)
          [(6, sheafPart s sh), (14, sheafCode sh), (16, q.index), (16, q.failed)])

/-! ### Rows that reach their bank -/

/-- True when a local row lies in a span of rows of a unit: a first row and a count; a binder's wraps (R90, R112). -/
def inSpan (u : Issuer) (row : Nat) (e : Nat × Nat) : Bool :=
  if isBinder u then decide ((row + 16384 - e.1 % 16384) % 16384 < e.2) else decide (e.1 ≤ row ∧ row < e.1 + e.2)
/-- True when a row that a READ writes is one that another READ queued with it writes too (R94). -/
def overlapped (c : Core) (u : Issuer) (id row : Nat) : Bool := c.dmaQ.any (fun d => d.id == id && d.laps.any (inSpan u row))
/-- Row k of a draw's unpredictable data (R26, R94, log 123). -/
def freeRow (d k : Nat) : BitVec 128 := BitVec.ofNat 128 ((Config.freeVec d).toNat / 2 ^ (128 * k))

/-- The scratchpad row a buffered packet's row k goes to; its low 12 address bits count rows. -/
def wbRow (e : WbEntry) (k : Nat) : Nat := bits e.flight.pkt.addr 15 4 + k

/-- Row k of an entry as it is written: of a READ that overlaps another there, unpredictable data (R94). -/
def wbData (x : Grain) (e : WbEntry) (k : Nat) : BitVec 128 × Bool :=
  let r := e.flight.pkt.body.getD k (0, false)
  match e.desc with
  | some id => if overlapped x.core (ug 0) id (wbRow e k) then (freeRow e.draw k, r.2) else r
  | none => r

/-- Write one row of an entry into its bank (R233, R248): a dropped row and one beyond the scratchpad write nothing. -/
def wbWrite (x : Grain) (e : WbEntry) (k : Nat) : Grain :=
  if e.dropped.getD k false || e.left.getD k false || wbRow e k ≥ 3072 then x
  else spdPutRow x (wbRow e k) (wbData x e k)

/-- Rows of an older entry that share a row with those given leave first (R232). -/
def wbFirst (rows : List Nat) (x : Grain) (i : Nat) : Grain :=
  match x.wb[i]? with
  | none => x
  | some e =>
    let ks := (List.range e.flight.pkt.body.length).filter (fun k => rows.contains (wbRow e k))
    let y := ks.foldl (fun x k => wbWrite x e k) x
    let e1 := { e with left := e.left.zipIdx.map (fun l => l.1 || ks.contains l.2) }
    { y with wb := y.wb.set i e1 }

end Sys2Proof.Machine
end

