-- ==== Sys2Proof/Machine/Flue.lean ====
section
/-!
DEFINITION. The Flue's far gateways (R303 to R310, R325 to R329): route entries, credit, and the packets that wait in the
landing buffers.
-/
namespace Sys2Proof.Machine

/-- The key of a route entry (R327): bridge, direction (0 eastbound), index. -/
def flueKey (b dir idx : Nat) : Nat := 1024 * b + 512 * dir + idx
/-- A route entry. -/
def flueEntry (s : State) (b dir idx : Nat) : FlueEntry := mapGet {} s.flue (flueKey b dir idx)
/-- Replace a route entry. -/
def setFlue (s : State) (b dir idx : Nat) (e : FlueEntry) : State := { s with flue := mapSet {} s.flue (flueKey b dir idx) e }

/-- The half a direction leads to. -/
def flueHalf (dir : Nat) : Nat := 1 - dir
/-- The bridge and direction of a gateway router that receives over the Flue (R303). -/
def flueAt (r : Nat) : Nat × Nat := (grainY r / 96, if halfOfGrain r = 1 then 0 else 1)
/-- The gateway router a bridge's far end sends its own packets from: its first row (log 33). -/
def flueRouter (b dir : Nat) : Nat := grainAt (flueHalf dir) (if dir = 0 then 0 else 959) (96 * b)
/-- The destination an entry's fields name, in the image's coordinates. -/
def flueDst (dir : Nat) (e : FlueEntry) : BitVec 21 := BitVec.ofNat 21 (flueHalf dir * 2 ^ 20 + e.dy.toNat * 2 ^ 10 + e.dx.toNat)
/-- Where an entry's destination is: the route entries of a relocated sheaf lead to the sheaf it was moved to (R556). -/
def flueTo (s : State) (dir : Nat) (e : FlueEntry) : BitVec 21 := xlatCoord s e.part.toNat (flueDst dir e)
/-- Credits an entry asks for at a time (R328). -/
def flueChunk (e : FlueEntry) : Nat := if e.chunk = 0 then 256 else e.chunk.toNat

/-- An entry's state by what it holds and awaits (R328). -/
def flueState (e : FlueEntry) : FlueEntry :=
  { e with st := if e.balance > 0 then .holding else if e.asked.isSome || e.backoff then .waiting else .idle }

/-- Credits go back to a destination's window (R280, R310). -/
def flueRelease (s : State) (b dir cw n : Nat) (dst : BitVec 21) (part : BitVec 6) : State :=
  let r := flueRouter b dir
  sendPkt s
    { type := .creditRelease, mc := false, tag := 0, dst := dst, src := coordV r
      epoch := BitVec.ofNat 9 (epochOf s (.die (0x10 + b))), part := part, len := 0, tally := 0, cw := BitVec.ofNat 2 cw
      status := 0, addr := BitVec.ofNat 48 n, body := [] }

/-- The lowest entry that matches a packet (R305). -/
def flueMatch (s : State) (b dir : Nat) (p : Packet) : Option Nat :=
  (List.range 512).find? (fun i =>
    let e := flueEntry s b dir i
    e.valid && e.part == p.part && flueTo s dir e == p.dst)

/-- A packet leaves a gateway as a credited write, which carries the target's offset (R278, R305). -/
def flueSend (s : State) (r : Nat) (e : FlueEntry) (p : Packet) : State :=
  carry s { p with type := .writeCredited, cw := e.cw, addr := BitVec.ofNat 48 (bits p.addr 15 0) } r (atCoord p.dst)

/-- Refuse a packet: ACK with a status (R279, R305, R306). -/
def flueAck (s : State) (r : Nat) (p : Packet) (st : Nat) : State := reply s r p .ack st 0 []

/-- A packet at its far gateway (R305 to R307). -/
def flueTake (s : State) (f : Flight) : State :=
  let p := f.pkt
  let (b, dir) := flueAt f.at_
  match flueMatch s b dir p with
  | none =>
    let s1 := raiseOnce (orReg (flueAck s f.at_ p 1) (rFlue b 4) 2) .flueNoRoute (some p.part.toNat) 5 (0x10 + b)
      [(3, b), (1, dir), (21, p.dst.toNat), (21, p.src.toNat)]
    s1
  | some i =>
    let e := flueEntry s b dir i
    let queued := s.flueWait.any (fun w => flueAt w.at_ == (b, dir) && flueMatch s b dir w.pkt == some i)
    if e.st = .refused then flueAck s f.at_ p 2
    else if !queued && p.body.length ≤ e.balance then
      flueSend (setFlue s b dir i (flueState { e with balance := e.balance - p.body.length })) f.at_ e p
    else { s with flueWait := s.flueWait ++ [f] }

/-- Packets that wait at a bridge's far end are looked up again, in order (R307, R319). -/
def flueRelook (s : State) (b dir : Nat) : State :=
  let mine := s.flueWait.filter (fun w => flueAt w.at_ == (b, dir))
  let s1 := mine.foldl flueTake { s with flueWait := s.flueWait.filter (fun w => flueAt w.at_ != (b, dir)) }
  ((mine.map (fun w => w.at_.val)).eraseDups).foldl flueAdmit s1

/-- FLUE_GATEWAY_WRITE (R305): the room it leaves in the landing buffer is the near gateway's again (R304). -/
def execFlueGatewayWrite (f : Flight) (s : State) : Out :=
  .next (if atGateway f then flueAdmit (flueTake (unlist s f) f) f.at_ else s)

/-- An entry is refused (R306): the flag, and the event once per refusal run; its packets are answered REFUSED. -/
def flueRefuse (s : State) (b dir i status : Nat) : State :=
  let e := flueEntry s b dir i
  let s1 := setFlue (orReg s (rFlue b 4) 4) b dir i { e with st := .refused, asked := none, backoff := false, told := true }
  let s2 := if e.told then s1
    else raise s1 .flueCreditRefused (some e.part.toNat) 5 (0x10 + b) [(3, b), (1, dir), (16, i), (8, status)]
  flueRelook s2 b dir

/-- An entry requests CHUNK credits of its destination (R306); a destination outside its partition faults (R52, R53). -/
def flueAsk (s : State) (b dir i : Nat) : State :=
  let e := flueEntry s b dir i
  let dst := flueTo s dir e
  let n := flueChunk e
  if grainOwner s (atCoord dst) ≠ some e.part.toNat then
    flueRefuse (raise s .addrFault (some e.part.toNat) 5 (0x10 + b)
      [(48, localAddr (ug (atCoord dst)) 0), (22, 2 ^ 21 + 0x10 + b), (8, 3)]) b dir i 1
  else
    let s1 := request s (.flue b dir i e.cw.toNat dst) (.die (0x10 + b)) .creditReq (flueRouter b dir) (atCoord dst) e.part.toNat 0 n
      [] 0 e.cw.toNat
    setFlue s1 b dir i (flueState { e with asked := some n, backoff := false })

/-- True when an entry wants credit (R306). -/
def flueWants (e : FlueEntry) : Bool :=
  e.valid && e.st != .refused && !e.cleared && e.asked.isNone && e.balance < flueChunk e && e.dx.toNat < 960 && e.dy.toNat < 768

/-- FLUE_CREDIT_REQUEST (R306). -/
def execFlueCreditRequest (b : BridgeId) (dir : Bool) (idx : Fin 512) (s : State) : Out :=
  .next (
    let e := flueEntry s b (bnat dir) idx
    if flueWants e && !e.backoff then flueAsk s b (bnat dir) idx else s)

/-- FLUE_CREDIT_RETRY: the back-off after BUSY ends (R306). -/
def execFlueCreditRetry (b : BridgeId) (dir : Bool) (idx : Fin 512) (s : State) : Out :=
  .next (
    let e := flueEntry s b (bnat dir) idx
    if flueWants e && e.backoff then flueAsk s b (bnat dir) idx else s)

/-- The answer of an entry's credit request (R306): a grant for an old destination, or one forgotten, is released
(R310, R319). -/
def flueGrant (s : State) (b dir i cw : Nat) (dst : BitVec 21) (part : BitVec 6) (status n : Nat) : State :=
  let e := flueEntry s b dir i
  if i ≥ 512 ∨ e.asked.isNone ∨ flueTo s dir e ≠ dst then
    if status = 0 then flueRelease s b dir cw n dst part else s
  else
    match status with
    | 0 => flueRelook (setFlue s b dir i (flueState { e with asked := none, balance := min 511 (e.balance + n), told := false })) b dir
    | 3 => setFlue s b dir i (flueState { e with asked := none, backoff := true })
    | _ => flueRefuse s b dir i status

/-- An entry's outstanding request is forgotten: its answer, when it comes, finds no entry. -/
def flueForget (s : State) (b dir i : Nat) : State :=
  { s with reqs := s.reqs.map (fun q =>
      match q.who with
      | .flue b' dir' i' cw dst => if b' = b ∧ dir' = dir ∧ i' = i then { q with who := .flue b dir 512 cw dst } else q
      | _ => q) }

/-- The entry FLU_ROUTE_SEL selects (R327): direction and index. -/
def flueSel (s : State) (b : Nat) : Nat × Nat := (regF s (rFlue b 8) 9 9, regF s (rFlue b 8) 8 0)

/-- A write of FLU_ROUTE_A or FLU_ROUTE_B (R310, R328). -/
def flueWriteRoute (s : State) (b : Nat) (second : Bool) (v : Word) : State :=
  let (dir, i) := flueSel s b
  let e := flueEntry s b dir i
  let s1 := if e.balance > 0 then flueRelease s b dir e.cw.toNat e.balance (flueTo s dir e) e.part else s
  let base : FlueEntry := { e with st := .idle, balance := 0, asked := none, backoff := false, told := false, cleared := false }
  let e1 : FlueEntry :=
    if second then { base with cw := BitVec.ofNat 2 (bits v 19 18), chunk := BitVec.ofNat 8 (bits v 7 0) }
    else { base with valid := bit v 31, part := BitVec.ofNat 6 (bits v 26 21), dy := BitVec.ofNat 10 (bits v 19 10), dx := BitVec.ofNat 10 (bits v 9 0) }
  flueRelook (setFlue (flueForget s1 b dir i) b dir i e1) b dir

/-- FLU_ROUTE_WRITE (R310). -/
def execFluRouteWrite (ini : Initiator) (b : BridgeId) (second : Bool) (value : Word) (s : State) : Out :=
  .next (regCommand ini (rFlue b (if second then 0x10 else 0xC)) s (fun s => flueWriteRoute s b second value))

/-- An abandon notice reaches the route entries of the sheaves it names (R309). -/
def flueAbandon (s : State) (shs : List Nat) : State :=
  (s.flue.filter (fun k => k.2.valid && shs.contains (sheafOfGrain (atCoord (flueTo s (k.1 / 512 % 2) k.2))))).foldl (fun s k =>
    let b := k.1 / 1024
    let dir := k.1 / 512 % 2
    let i := k.1 % 512
    setFlue (flueForget s b dir i) b dir i { k.2 with balance := 0, asked := none, backoff := false, cleared := true, st := .waiting }) s

/-- FLUE_REFUSED_RETRY at a beat (R306, R309): refused entries, and those an abandonment left waiting, request again. -/
def flueBeat (s : State) : State :=
  (s.flue.filter (fun k => k.2.valid && (k.2.st == .refused || k.2.cleared))).foldl (fun s k =>
    let b := k.1 / 1024
    let dir := k.1 / 512 % 2
    let i := k.1 % 512
    let e := flueEntry s b dir i
    if e.dx.toNat < 960 && e.dy.toNat < 768 then flueAsk (setFlue s b dir i { e with st := .waiting, cleared := false }) b dir i else s) s

end Sys2Proof.Machine
end

