-- ==== Sys2Proof/Machine/Winnow.lean ====
section
/-!
DEFINITION. The Winnow and the Gleaner (R330 to R377): layers, the near pool and the frame bus, page tables and the
look-aside buffer, KV writes, scores and outputs, chaff, and how jobs fail.
-/
namespace Sys2Proof.Machine

/-! ### Registers and layers -/

/-- Registers of the WNW_ and GLN_ blocks (R368 to R377). -/
def rWnw (sh off : Nat) : RegLoc := rSheaf sh 5 off
def rGln (sh off : Nat) : RegLoc := rSheaf sh 6 off

/-- A Winnow. -/
def wnw (s : State) (sh : Nat) : Winnow := (sheaf s sh).wnw
def setWnw (s : State) (sh : Nat) (x : Winnow) : State := setSheaf s sh { sheaf s sh with wnw := x }

/-- A layer descriptor (R372). -/
structure Layer where
  fmt   : Nat
  d     : Nat
  hq    : Nat
  hkv   : Nat
  sr    : Bool
  rot   : Bool
  pair  : Bool
  rh    : Nat
  scale : Nat
  window : Nat
  set_  : Nat
  tag   : Nat

def layer (s : State) (sh n : Nat) : Layer :=
  let w := fun (k : Nat) => reg s (rWnw sh (0x40 + 16 * n + 4 * k))
  let d := 16 * bits (w 0) 27 22
  { fmt := bits (w 0) 31 28, d := d, hq := bits (w 0) 21 16, hkv := bits (w 0) 15 11, sr := bit (w 0) 10, rot := bit (w 0) 9
    pair := bit (w 0) 8, rh := if bits (w 0) 7 0 = 0 then d / 2 else bits (w 0) 7 0, scale := (w 1).toNat
    window := bits (w 2) 31 12, set_ := bits (w 2) 11 9, tag := bits (w 3) 11 0 }

/-- Bytes of an element, T, and the rows of a frame (R331). -/
def elB (y : Layer) : Nat := if y.fmt = 8 then 2 else 1
def kvT (y : Layer) : Nat := 16 * y.hkv * y.d
def frameRows (y : Layer) : Nat := (2 * kvT y * elB y + (if y.fmt = 8 then 0 else kvT y / 16) + 15) / 16

/-! ### Job records -/

def jSlot (j : WJob) : Nat := bits j.row0 127 112
def jPos (j : WJob) : Nat := bits j.row0 111 92
def jSeg (j : WJob) : Nat := bits j.row0 91 72
def jTent (j : WJob) : Bool := bit j.row0 69
def jWrite (j : WJob) : Bool := bit j.row0 68
def jExited (j : WJob) : Bool := bit j.row0 67
def jLayer (j : WJob) : Nat := bits j.row0 66 64
def jQg (j : WJob) : Nat := bits j.row0 63 56
def jQrow (j : WJob) : Nat := bits j.row0 55 44
def jOg (j : WJob) : Nat := bits j.row0 43 36
def jOrow (j : WJob) : Nat := bits j.row0 35 24
def jTally (j : WJob) : Nat := bits j.row0 23 20
def jKg (j : WJob) : Nat := bits j.row1 127 120
def jKrow (j : WJob) : Nat := bits j.row1 119 108
def jVg (j : WJob) : Nat := bits j.row1 107 100
def jVrow (j : WJob) : Nat := bits j.row1 99 88

/-- The first position a job sees (R341). -/
def jLo (y : Layer) (j : WJob) : Nat := if y.window = 0 then jSeg j else max (jSeg j) (jPos j + 1 - y.window)

/-- BAD_LAYER (R366, R372). -/
def layerBad (s : State) (sh : Nat) (y : Layer) (j : WJob) : Bool :=
  !(y.fmt == 8 || ((y.fmt == 3 || y.fmt == 4) && y.d % 32 == 0)) || y.d < 16 || y.d > 256 || y.hkv == 0 || y.hkv > 16 ||
    y.hq == 0 || y.hq > 32 || y.hq % y.hkv != 0 || y.rh > y.d / 2 || frameRows y > regF s (rWnw sh 0x24) 27 16 ||
    jQg j + y.hq > 256 || jOg j + y.hq > 256 || (jWrite j && !jExited j && (jKg j + y.hkv > 256 || jVg j + y.hkv > 256))

/-! ### The frame bus -/

/-- The code findings of a grain of the sheaf: named under the grain's number in the sheaf plus 1, times 2^16. -/
def fbFinds (ecc : EccFinds) (gi : Nat) : EccFinds := (ecc.filter (fun e => e.1 / 2 ^ 16 == gi + 1)).map (fun e => (e.1 % 2 ^ 16, e.2))

/-- True when the frame bus gets the gone response at a grain (R338). -/
def fbGone (s : State) (sh gi : Nat) : Bool := !earOn s (16 * sh + gi / 16) || fenced s (256 * sh + gi)

/-- Read one row over the frame bus: the row, or the reason the job fails: 0xB GONE, 0xA a poison mark (R338, R364, R366).
A row beyond the scratchpad reads as zero with ADDR_FAULT (R53). -/
def fbRead (ecc : EccFinds) (sh : Nat) (s : State) (gi row : Nat) : State × Except Nat (BitVec 128) :=
  let g := 256 * sh + gi
  if fbGone s sh gi then (s, .error 0xB)
  else if row ≥ 3072 then (addrFault s (ub sh) (localAddr (ug g) (16 * row)) 2, .ok 0)
  else
    let s1 := spdChecks (fbFinds ecc gi) 3 g (16 * row) 16 s
    let r := spdSendRow (grain s1 g) row
    (s1, if r.2 then .error 0xA else .ok r.1)

/-- Read rows in order; the first failure stops. -/
def fbReads (ecc : EccFinds) (sh : Nat) (s : State) : List (Nat × Nat) → State × Except Nat (List (BitVec 128))
  | [] => (s, .ok [])
  | (gi, row) :: r =>
    match fbRead ecc sh s gi row with
    | (s1, .error e) => (s1, .error e)
    | (s1, .ok v) =>
      match fbReads ecc sh s1 r with
      | (s2, .error e) => (s2, .error e)
      | (s2, .ok vs) => (s2, .ok (v :: vs))

/-- Write one row over the frame bus; false where the grain is gone (R337, R338, log 31). The row passes the grain's write buffer within
the stage that writes it: rows buffered before it for the same scratchpad row leave first (R232, R348, R354, log 114). -/
def fbWrite (sh : Nat) (s : State) (gi row : Nat) (v : BitVec 128) : State × Bool :=
  let g := 256 * sh + gi
  if fbGone s sh gi then (s, false)
  else if row ≥ 3072 then (addrFault s (ub sh) (localAddr (ug g) (16 * row)) 2, true)
  else
    let x := grain s g
    (setGrain s g (spdPutRow ((List.range x.wb.length).foldl (wbFirst [row]) x) row (v, false)), true)

/-- The BF16 elements of d/8 rows. -/
def rowElems (rows : List (BitVec 128)) : List Nat := rows.flatMap (fun r => (List.range 8).map (fun k => nbits r.toNat (16 * k + 15) (16 * k)))

/-! ### The near pool and the tables -/

/-- Frames of the pool (R334). -/
def poolFrames (s : State) (sh : Nat) : Nat :=
  if regF s (rWnw sh 0x24) 27 16 = 0 then 0
  else 2 ^ regF s (rWnw sh 0x20) 23 20 * regF s (rWnw sh 0x24) 11 0 / regF s (rWnw sh 0x24) 27 16

/-- Where a row of a frame lies: grain of the sheaf and scratchpad row (R334). -/
def frameAt (s : State) (sh f r : Nat) : Nat × Nat :=
  let g := f * regF s (rWnw sh 0x24) 27 16 + r
  let n := 2 ^ regF s (rWnw sh 0x20) 23 20
  ((regF s (rWnw sh 0x20) 31 24 + g % n) % 256, regF s (rWnw sh 0x20) 11 0 + g / n)

/-- Binder-memory address within the 256 KiB. -/
def bAddr (a : Nat) : Nat := a % 2 ^ 18

/-- Read from binder memory for the Winnow or Gleaner: the value, or none at a poisoned word (R743). -/
def winMem (s : State) (sh a n : Nat) (ecc : EccFinds) : State × Option Nat :=
  let (v, s1) := bmemRead s sh (bAddr a) n (ecc.filter (fun e => e.1 < 2 ^ 16)) 3
  (s1, if bmemPoisoned s1 sh (bAddr a) n then none else some v)

/-- Gleaner mode (R349). -/
def glnMode (s : State) (sh : Nat) : Bool := !regBit s (rWnw sh 0) 30

/-- The directory entry's address (R342). -/
def dirAddr (s : State) (sh lay slot : Nat) : Nat :=
  bAddr (regF s (rGln sh 4) 17 0 / 16 * 16 + 16 * (lay * 2 ^ regF s (rGln sh 4) 31 28 + slot))
/-- The address of a PTE under a directory entry (R342). -/
def pteAddr (dir : BitVec 128) (n : Nat) : Nat := bAddr (bits dir 17 0 / 16 * 16 + 16 * n)
/-- The frame-table entry's address (R343). -/
def ftAddr (s : State) (sh f : Nat) : Nat := bAddr (regF s (rWnw sh 0x28) 17 0 / 4 * 4 + 4 * f)

/-- The look-aside buffer's tag (R350). -/
def labTag (lay slot page : Nat) : Nat := lay * 2 ^ 32 + slot * 2 ^ 16 + page
/-- The buffer's entry for a tag. -/
def labFind (w : Winnow) (tag : Nat) : Option (Nat × BitVec 128) :=
  (w.lab.find? (fun e => e.2.1 == tag)).map (fun e => (e.1, e.2.2))

/-- Look up a PTE: in the buffer, else in binder memory, which installs it (R349, R350); none at a poisoned word. -/
def pteRead (s : State) (sh lay slot page : Nat) (dir : BitVec 128) (ecc : EccFinds) : State × Option (BitVec 128) :=
  let s1 := incReg s (rGln sh 0x10)
  match labFind (wnw s1 sh) (labTag lay slot page) with
  | some (_, v) => (incReg s1 (rGln sh 0x14), some v)
  | none =>
    match winMem s1 sh (pteAddr dir page) 16 ecc with
    | (s2, none) => (s2, none)
    | (s2, some v) =>
      let w := wnw s2 sh
      (setWnw s2 sh { w with lab := mapInsert w.lab w.labAt (labTag lay slot page, BitVec.ofNat 128 v), labAt := (w.labAt + 1) % 32 },
       some (BitVec.ofNat 128 v))

/-- The module changes a PTE in binder memory and in the buffer (R350). -/
def pteWrite (s : State) (sh lay slot page : Nat) (dir v : BitVec 128) : State :=
  let s1 := bmemWrite s sh (pteAddr dir page) 16 v.toNat
  let w := wnw s1 sh
  match labFind w (labTag lay slot page) with
  | none => s1
  | some (k, _) => setWnw s1 sh { w with lab := mapInsert w.lab k (labTag lay slot page, v) }

/-- PTE fields (R340). -/
def pteLoc (p : BitVec 128) : Nat := bits p 127 126
def pteShared (p : BitVec 128) : Bool := bit p 125
def pteChaff (p : BitVec 128) (t : Nat) : Bool := bit p (96 + t)
def pteExited (p : BitVec 128) (t : Nat) : Bool := bit p (80 + t)
def pteValid (p : BitVec 128) (t : Nat) : Bool := bit p (64 + t)
/-- A PTE with a bit set or cleared. -/
def pteSet (p : BitVec 128) (i : Nat) (b : Bool) : BitVec 128 :=
  if b then p ||| BitVec.ofNat 128 (2 ^ i) else p &&& ~~~(BitVec.ofNat 128 (2 ^ i))

/-! ### Failures -/

/-- Change a job. -/
def modJob (s : State) (sh id : Nat) (f : WJob → WJob) : State :=
  let w := wnw s sh
  setWnw s sh { w with jobs := w.jobs.map (fun j => if j.id = id then f j else j) }
def jobOf (s : State) (sh id : Nat) : Option WJob := (wnw s sh).jobs.find? (fun j => j.id == id)
/-- A job fails with its first reason (R366). -/
def jobFail (s : State) (sh id why : Nat) : State :=
  modJob s sh id (fun j => { j with fail := some (j.fail.getD why), wait := none, write := none })

/-- KV_LOST (R364): cause 1 SCRUB, 2 NEAR_READ, 3 FAR_READ; a SHARED frame is slot 0xFFFF (log 32). -/
def kvTell (s : State) (sh lay slot page frame cause : Nat) : State :=
  raise (orReg s (rWnw sh 4) 2) .kvLost (sheafOwner s sh) 3 (sheafUnit sh)
    [(6, sheafPart s sh), (14, sheafCode sh), (3, lay), (16, slot), (16, page), (64, frame), (4, cause)]

/-- Set LOST in a directory entry (R364). -/
def dirLose (s : State) (sh lay slot : Nat) : State :=
  let a := dirAddr s sh lay slot
  bmemWrite s sh a 16 ((pteSet (BitVec.ofNat 128 (memGet (sheaf s sh).bmem a 16)) 126 true).toNat)

/-- A job met a poisoned row, of a frame or of a vector (R364): it fails with KV_LOST, LOST is set in Gleaner mode, and KV_LOST is
raised, but not again for a frame that a scrub found lost while the job computed (R367). -/
def jobLost (s : State) (sh : Nat) (j : WJob) (frame : Option Nat) (cause : Nat) : State :=
  let s1 := jobFail s sh j.id 0xA
  let s2 := if glnMode s sh then dirLose s1 sh (jLayer j) (jSlot j) else s1
  if cause = 2 ∧ frame.any (fun f => j.told.contains f) then orReg s2 (rWnw sh 4) 2
  else kvTell s2 sh (jLayer j) (jSlot j) j.page (frame.getD 0) cause

/-- A scrub error in a row of the near pool (R364): the frame is marked POISONED, its slot LOST, and KV_LOST is raised, once for the
frame with the job in computation that reads it (R367). -/
def kvScrub (s : State) (g row : Nat) : State :=
  let sh := sheafOfGrain g
  let gi := g % 256
  let a := reg s (rWnw sh 0x20)
  let n := 2 ^ bits a 23 20
  let fr := regF s (rWnw sh 0x24) 27 16
  if gi < bits a 31 24 ∨ gi ≥ bits a 31 24 + n ∨ row < bits a 11 0 ∨ row ≥ bits a 11 0 + regF s (rWnw sh 0x24) 11 0 ∨ fr = 0 then s
  else
    let f := ((row - bits a 11 0) * n + (gi - bits a 31 24)) / fr
    let e := memGet (sheaf s sh).bmem (ftAddr s sh f) 4
    if f ≥ poolFrames s sh ∨ nbits e 31 31 = 0 ∨ nbits e 29 29 = 1 then s
    else
      let s1 := bmemWrite s sh (ftAddr s sh f) 4 (e + 2 ^ 29)
      let shared := nbits e 30 30 == 1
      let s2 := if glnMode s sh && !shared then dirLose s1 sh (nbits e 18 16) (nbits e 15 0) else s1
      let w := wnw s2 sh
      let s3 := setWnw s2 sh { w with jobs := w.jobs.map (fun j => if j.begun then { j with told := setAdd j.told f } else j) }
      kvTell s3 sh (nbits e 18 16) (if shared then 0xFFFF else nbits e 15 0) 0 f 1

/-! ### Rotation and conversion -/

/-- FP32 negation. -/
def fneg32 (x : Nat) : Nat := toBits fp32 (negV (ofBits fp32 x))

/-- The sine of a 32-bit turn fraction (R357). -/
def qsin (m : Mem) (u : Nat) : Nat :=
  let t0 := u % 2 ^ 30
  let t := if nbits u 30 30 = 1 then 2 ^ 30 - t0 else t0
  let i := t / 2 ^ 20
  let sine := fun (k : Nat) => memGet m (0x1000 + 4 * k) 4
  let f := toBits fp32 (.num false (t % 2 ^ 20) (-20))
  let s := if t % 2 ^ 20 = 0 then sine i else fadd fp32 (sine i) (fmul fp32 f (fadd fp32 (sine (i + 1)) (fneg32 (sine i))))
  if nbits u 31 31 = 1 then fneg32 s else s

/-- The dimensions of pair j (R357). -/
def pairAt (y : Layer) (j : Nat) : Nat × Nat := if y.pair then (2 * j, 2 * j + 1) else (j, j + y.rh)

/-- A vector rotated by a position, in FP32: dimension, whether it was rotated, value (R357). -/
def rotate (m : Mem) (y : Layer) (p : Nat) (v : List Nat) : List (Bool × Nat) :=
  let v0 := v.map (fun x => (false, x * 2 ^ 16))
  if !y.rot then v0
  else
    (List.range y.rh).foldl (fun (w : List (Bool × Nat)) j =>
      let rate := memGet m (512 * y.set_ + 4 * j) 4
      let u := p * rate % 2 ^ 32
      let sn := qsin m u
      let cs := qsin m ((u + 2 ^ 30) % 2 ^ 32)
      let (a, b) := pairAt y j
      let x := (v0.getD a (false, 0)).2
      let z := (v0.getD b (false, 0)).2
      (w.set a (true, fadd fp32 (fmul fp32 x cs) (fneg32 (fmul fp32 z sn)))).set b (true, fadd fp32 (fmul fp32 x sn) (fmul fp32 z cs))) v0

/-- FP32 to BF16 by nearest even. -/
def bf16Rne (x : Nat) : Nat := toBits bf16 (ofBits fp32 x)

/-- The key of generator i of a Winnow, and its seeds (R358). -/
def winSeeds (seed : Word) (sh : Nat) : Vector (BitVec 16) 64 :=
  Vector.ofFn (fun (i : Fin 64) => lfsrSeed seed (2 ^ 27 + lfsrKey (sheafPort sh) i.val))
/-- A Winnow's generators. -/
def winGens (s : State) (sh : Nat) : Vector (BitVec 16) 64 := (wnw s sh).lfsr.getD (winSeeds 0 sh)

/-- Step generators i, …, i + n − 1 modulo 64. -/
def winStep (v : Vector (BitVec 16) 64) (i n : Nat) : Vector (BitVec 16) 64 :=
  (List.range n).foldl (fun v k => v.set! ((i + k) % 64) (lfsrStep (v.getD ((i + k) % 64) 1))) v

/-- One vector converted to the layer's format (R358): element bytes, scale bytes, counts and generators after. Every element is
converted, rotated or not: a subnormal becomes zero and a NaN the canonical one (R133, R134), and with SR its generator steps (R149). -/
def kvConvert (y : Layer) (v : List (Bool × Nat)) (gens : Vector (BitVec 16) 64) : List Nat × List Nat × Conv × Vector (BitVec 16) 64 :=
  if y.fmt = 8 then
    let r := v.zipIdx.foldl (fun (acc : List Nat × Nat × Nat × Vector (BitVec 16) 64) e =>
      let (out, sat, nan, gs) := acc
      let x := e.1.2
      let g := if y.sr then some ((gs.getD (e.2 % 64) 1).toNat) else none
      let (b, s1, n1) := toFloat bf16 g true (ofBits fp32 x)
      (out ++ [b], sat + s1, nan + n1, if y.sr then winStep gs (e.2 % 64) 1 else gs)) ([], 0, 0, gens)
    (r.1.flatMap (fun b => [b % 256, b / 256]), [], { sat := r.2.1, nan := r.2.2.1 }, r.2.2.2)
  else
    (List.range (y.d / 32)).foldl (fun (acc : List Nat × List Nat × Conv × Vector (BitVec 16) 64) k =>
      let (out, sc, c0, gs) := acc
      let vals := ((v.drop (32 * k)).take 32).map (fun e => ofBits fp32 e.2)
      let g := if y.sr then some ((List.range 32).map (fun j => (gs.getD ((32 * k + j) % 64) 1).toNat)) else none
      let c := quantBlock y.fmt 0 g vals
      (out ++ c.out.take 32, sc ++ [c.out.getD 32 0],
       { sat := c0.sat + c.sat, clamp := c0.clamp + c.clamp, nan := c0.nan + c.nan, poison := c0.poison + c.poison },
       if y.sr then winStep gs (32 * k) 32 else gs)) ([], [], {}, gens)

/-! ### Ergot counts of the Winnow (R358) -/

/-- The Winnow posts its counts when some is non-zero (R168). -/
def winPost (s : State) (sh : Nat) : State :=
  let w := wnw s sh
  if w.ergot = {} then s
  else setWnw { s with posts := s.posts ++ [⟨sheafPort sh, sheafPart s sh, w.tag, w.ergot, none⟩] } sh { w with ergot := {} }

/-- Count a conversion against a layer's tag; a change of tag posts first (R138, R168). -/
def winCount (s : State) (sh tag : Nat) (c : Conv) : State :=
  let s1 := if (wnw s sh).tag = tag then s else
    let s := winPost s sh
    setWnw s sh { wnw s sh with tag := tag }
  if !regBit s1 (rErg (sheafPart s1 sh) 0) 0 then s1
  else
    let w := wnw s1 sh
    let a := ergBump (ergBump (ergBump (ergBump w.ergot .sat c.sat) .clamp c.clamp) .nan c.nan) .poison c.poison
    let s2 := setWnw s1 sh { w with ergot := a }
    if ergFull a then winPost s2 sh else s2

/-! ### The KV write -/

/-- Rows a run of bytes touches: (row, first byte, count, value). -/
def rowPieces (off n v : Nat) : List (Nat × Nat × Nat × Nat) :=
  (List.range ((off % 16 + n + 15) / 16)).map (fun k =>
    let a := max off ((off / 16 + k) * 16)
    let b := min (off + n) ((off / 16 + k + 1) * 16)
    (off / 16 + k, a % 16, b - a, v / 256 ^ (a - off) % 256 ^ (b - a)))

/-- A row with bytes replaced. -/
def rowMerge (r : BitVec 128) (lo n v : Nat) : BitVec 128 :=
  BitVec.ofNat 128 (r.toNat % 256 ^ lo + v * 256 ^ lo + r.toNat / 256 ^ (lo + n) * 256 ^ (lo + n))

/-- Write row pieces into a near frame (R337); the reason it fails. -/
def nearWrite (ecc : EccFinds) (sh f : Nat) (s : State) : List (Nat × Nat × Nat × Nat) → State × Option Nat
  | [] => (s, none)
  | (r, lo, n, v) :: rest =>
    let (gi, row) := frameAt s sh f r
    let (s1, old) := if n = 16 then (s, Except.ok 0) else fbRead ecc sh s gi row
    match old with
    | .error e => (s1, some e)
    | .ok o =>
      match fbWrite sh s1 gi row (rowMerge o lo n v) with
      | (s2, false) => (s2, some 0xB)
      | (s2, true) => nearWrite ecc sh f s2 rest

/-- A far or crib access of a job at a row address; a fault is ADDR_FAULT and FRAME_RANGE (R53, R366). -/
def farAccess (s : State) (sh id : Nat) (ty : PktType) (a n : Nat) (body : List (BitVec 128 × Bool)) (use : WinUse) : State × Bool :=
  let who := unitAgent s (ub sh)
  match accFault s who a n (ty == .write) with
  | some (fa, why) => (jobFail (addrFault s (ub sh) fa why) sh id 9, false)
  | none =>
    if nbits a 47 44 ≠ 1 ∧ nbits a 47 44 ≠ 2 then (jobFail s sh id 9, false)
    else (request s (.winnow sh id use) (.sheaf sh) ty (sheafPort sh) (targetRouter s who (xlatAgent s who a)) (sheafPart s sh) n (xlatAgent s who a) body 0 0 (ty == .write), true)

/-- Write row pieces into a far or crib frame: a whole row at once, a part by a read first (log 31). -/
def farWrite (sh id base : Nat) (s : State) : List (Nat × Nat × Nat × Nat) → State
  | [] => s
  | (r, lo, n, v) :: rest =>
    let a := base + 16 * r
    let (s1, ok) := if n = 16 then farAccess s sh id .write a 1 [(BitVec.ofNat 128 v, false)] .write
      else farAccess s sh id .readReq a 1 [] (.merge a lo n v)
    if ok then farWrite sh id base (modJob s1 sh id (fun j => { j with left := j.left + 1 })) rest else s1

/-- Pop a frame from the free ring (R344). -/
def framePop (s : State) (sh : Nat) : Option (State × Nat) :=
  let w := reg s (rWnw sh 0x2C)
  let n := 2 ^ bits w 31 28
  let h := regF s (rWnw sh 0x30) 15 0 % n
  if h = regF s (rWnw sh 0x34) 15 0 % n then none
  else some (setRegF s (rWnw sh 0x30) 15 0 ((h + 1) % n), memGet (sheaf s sh).bmem (bAddr (bits w 17 0 / 2 * 2 + 2 * h)) 2)

/-- A frame-table entry of a private frame (R343, R355). -/
def frameOwn (s : State) (sh f lay slot : Nat) : State :=
  ncInc (bmemWrite s sh (ftAddr s sh f) 4 (2 ^ 31 + lay * 2 ^ 16 + slot)) sh (regF s (rWnw sh 0) 29 27) 1

/-- A job needs a frame and the ring is empty (R361): it waits, and the run is told once. -/
def frameWait (s : State) (sh id : Nat) : State :=
  match jobOf s sh id with
  | none => s
  | some j =>
    if j.wait.isSome then s
    else
      raise (orReg (modJob s sh id (fun j => { j with wait := some 0 })) (rWnw sh 4) 8) .framePoolEmpty (sheafOwner s sh) 3
        (sheafUnit sh) [(6, sheafPart s sh), (14, sheafCode sh), (16, regF s (rWnw sh 0x30) 15 0)]

/-- Where a changed PTE goes: the table in Gleaner mode; in descriptor mode the page's descriptor, those of a job's pages following
one another from the head (R350, R352). -/
def ptePut (s : State) (sh : Nat) (j : WJob) (page : Nat) (v : BitVec 128) : State :=
  let s1 :=
    if glnMode s sh then pteWrite s sh (jLayer j) (jSlot j) page j.dir v
    else
      let w := reg s (rWnw sh 0x14)
      let k := if jExited j then 0 else page - j.page
      bmemWrite s sh (bAddr (bits w 17 0 / 32 * 32 + 32 * ((regF s (rWnw sh 0x18) 15 0 + k) % 2 ^ bits w 31 28))) 16 v.toNat
  modJob s1 sh j.id (fun j => { j with pte := if j.pte.isSome then some v else none })

/-- The write into a page that has a private frame: its bytes, then VALID and CHAFF of its slot (R354). -/
def kvPut (ecc : EccFinds) (sh id page : Nat) (bytes : List (Nat × Nat × Nat)) (p : BitVec 128) (s : State) : State :=
  match jobOf s sh id with
  | none => s
  | some j =>
    let t := jPos j % 16
    let ps := bytes.flatMap (fun e => rowPieces e.1 e.2.1 e.2.2)
    let p1 := pteSet (pteSet p (64 + t) true) (96 + t) (jTent j)
    let done := fun (s : State) => ptePut (modJob s sh id (fun j => { j with write := none })) sh j page p1
    if pteLoc p = 0 then
      if bits p 63 0 ≥ poolFrames s sh then jobFail s sh id 9
      else
        match nearWrite ecc sh (bits p 15 0) s ps with
        | (s1, some 0xA) => jobLost s1 sh { j with page := page } (some (bits p 15 0)) 2
        | (s1, some why) => jobFail s1 sh id why
        | (s1, none) => done s1
    else
      let s1 := farWrite sh id (bits p 63 0) s ps
      if ((jobOf s1 sh id).map (fun j => j.fail.isSome)).getD true then s1 else done s1

/-- Copy a shared near frame (R360). -/
def frameCopy (ecc : EccFinds) (s : State) (sh n from_ to_ : Nat) : State × Option Nat :=
  match fbReads ecc sh s ((List.range n).map (frameAt s sh from_)) with
  | (s1, .error e) => (s1, some e)
  | (s1, .ok rows) => nearWrite ecc sh to_ s1 (rows.zipIdx.map (fun e => (e.2, 0, 16, e.1.toNat)))

/-- A shared frame has been copied (R360): the requester's PTE names the copy, with the same masks, and the write follows. -/
def cowDone (ecc : EccFinds) (s : State) (sh id page f : Nat) (p : BitVec 128) : State :=
  match jobOf s sh id with
  | none => s
  | some j =>
    let s1 := incReg (frameOwn (modJob s sh id (fun j => { j with cow := none })) sh f (jLayer j) (jSlot j)) (rGln sh 0x1C)
    let p1 := BitVec.ofNat 128 (bits p 124 64 * 2 ^ 64 + f)
    kvPut ecc sh id page (j.write.getD []) p1 (ptePut s1 sh j page p1)

/-- Copy a shared frame into a new one (R360): a near frame over the frame bus at once; a far or crib frame once its rows have come over
the sheaf port. -/
def cowBegin (ecc : EccFinds) (s : State) (sh id page f : Nat) (p : BitVec 128) : State :=
  match jobOf s sh id with
  | none => s
  | some j =>
    let n := frameRows (layer s sh (jLayer j))
    if pteLoc p = 0 then
      match frameCopy ecc s sh n (bits p 15 0) f with
      | (s1, some 0xA) => jobLost s1 sh { j with page := page } (some (bits p 15 0)) 2
      | (s1, some why) => jobFail s1 sh id why
      | (s1, none) => cowDone ecc s1 sh id page f p
    else
      (packetsOf (bits p 63 0) n).foldl (fun s e =>
        if ((jobOf s sh id).map (fun j => j.fail.isSome)).getD true then s
        else
          let (s1, ok) := farAccess s sh id .readReq (bits p 63 0 + 16 * e.1) e.2 [] (.cow e.1)
          if ok then modJob s1 sh id (fun j => { j with left := j.left + 1 }) else s1) (modJob s sh id (fun j => { j with cow := some (f, p) }))

/-- Write a job's token into its page (R355, R360, R361). -/
def kvWrite (ecc : EccFinds) (sh id page : Nat) (p : BitVec 128) (s : State) : State :=
  match jobOf s sh id with
  | none => s
  | some j =>
    match j.write with
    | none => s
    | some bytes =>
      let t := jPos j % 16
      if pteExited p t || (pteValid p t && !pteChaff p t) then jobFail s sh id 5
      else if pteLoc p = 3 then
        if !glnMode s sh || !regBit s (rGln sh 0) 1 then jobFail s sh id 3
        else
          match framePop s sh with
          | none => frameWait s sh id
          | some (s1, f) =>
            let s2 := incReg (frameOwn (modJob s1 sh id (fun j => { j with wait := none })) sh f (jLayer j) (jSlot j)) (rGln sh 0x20)
            kvPut ecc sh id page bytes (BitVec.ofNat 128 f) (ptePut s2 sh j page (BitVec.ofNat 128 f))
      else if pteShared p then
        if !glnMode s sh || !regBit s (rGln sh 0) 2 then jobFail s sh id 6
        else if pteLoc p = 0 ∧ bits p 63 0 ≥ poolFrames s sh then jobFail s sh id 9
        else
          match framePop s sh with
          | none => frameWait s sh id
          | some (s1, f) => cowBegin ecc (modJob s1 sh id (fun j => { j with wait := none })) sh id page f p
      else kvPut ecc sh id page bytes p s

/-- A job whose page of POS lies in the Gleaner's table: the walk for its write or EXITED bit (R347, R354). -/
def jobTail (ecc : EccFinds) (sh id : Nat) (s : State) (k : BitVec 128 → State → State) : State :=
  match jobOf s sh id with
  | none => s
  | some j =>
    let page := jPos j / 16
    if page ≥ bits j.dir 112 96 then jobFail s sh id 2
    else
      match pteRead s sh (jLayer j) (jSlot j) page j.dir ecc with
      | (s1, none) => jobFail s1 sh id 0xA
      | (s1, some p) => k p s1

/-! ### Intake -/

/-- The frame bytes of a token's keys and values (R331, R358), by KV head: keys, values, then the scales. -/
def tokenBytes (y : Layer) (t : Nat) (ks vs : List (List Nat × List Nat)) : List (Nat × Nat × Nat) :=
  let num := fun (l : List Nat) => packAll 8 l
  let at_ := fun (e : Nat) => e * 16 + t
  let T := kvT y
  let b := elB y
  let run := fun (base : Nat) (l : List (List Nat × List Nat)) => l.zipIdx.map (fun e => (base + at_ e.2 * y.d * b, y.d * b, num e.1.1))
  let sc := fun (base : Nat) (l : List (List Nat × List Nat)) => l.zipIdx.map (fun e => (base + at_ e.2 * y.d / 32, y.d / 32, num e.1.2))
  run 0 ks ++ run (T * b) vs ++ (if y.fmt = 8 then [] else sc (2 * T * b) ks ++ sc (2 * T * b + T / 32) vs)

/-- Convert vectors one after another (R358). -/
def convertAll (y : Layer) (l : List (List (Bool × Nat))) (gens : Vector (BitVec 16) 64) :
    List (List Nat × List Nat) × Conv × Vector (BitVec 16) 64 :=
  l.foldl (fun acc v =>
    let (b, sc, c, g) := kvConvert y v acc.2.2
    let c0 := acc.2.1
    (acc.1 ++ [(b, sc)], { sat := c0.sat + c.sat, clamp := c0.clamp + c.clamp, nan := c0.nan + c.nan, poison := c0.poison + c.poison }, g))
    ([], {}, gens)

/-- The vectors of heads: head h at grain g + h, d/8 rows from a row. -/
def headRows (y : Layer) (g row n : Nat) : List (Nat × Nat) :=
  (List.range n).flatMap (fun h => (List.range (y.d / 8)).map (fun r => (g + h, row + r)))
/-- Rows cut into vectors of d elements. -/
def headVecs (y : Layer) (rows : List (BitVec 128)) (n : Nat) : List (List Nat) :=
  (List.range n).map (fun h => rowElems ((rows.drop (h * (y.d / 8))).take (y.d / 8)))

/-- The stages vectors, rotation and conversion of a job, then its write (R354). -/
def jobVectors (ecc : EccFinds) (sh id : Nat) (s : State) : State :=
  match jobOf s sh id with
  | none => s
  | some j =>
    let y := layer s sh (jLayer j)
    let w := jWrite j
    let want := headRows y (jQg j) (jQrow j) y.hq ++
      (if w then headRows y (jKg j) (jKrow j) y.hkv ++ headRows y (jVg j) (jVrow j) y.hkv else [])
    match fbReads ecc sh s want with
    | (s1, .error 0xA) => jobLost s1 sh { j with page := 0 } none 2
    | (s1, .error why) => jobFail s1 sh id why
    | (s1, .ok rows) =>
      let per := y.d / 8
      let m := (sheaf s sh).rot
      let qs := (headVecs y rows y.hq).map (fun v => (rotate m y (jPos j) v).map (fun e => if e.1 then bf16Rne e.2 else e.2 / 2 ^ 16))
      let heads : List WHead := List.replicate y.hq { o := List.replicate y.d 0 }
      let s2 := modJob s1 sh id (fun j => { j with q := qs, heads := heads, page := jLo y j / 16 })
      if !w then s2
      else
        let ks := (headVecs y (rows.drop (y.hq * per)) y.hkv).map (rotate m y (jPos j))
        let vs := (headVecs y (rows.drop ((y.hq + y.hkv) * per)) y.hkv).map (fun v => v.map (fun x => (false, x * 2 ^ 16)))
        let (bs, c, g) := convertAll y (ks ++ vs) (winGens s2 sh)
        let s3 := if y.sr then setWnw s2 sh { wnw s2 sh with lfsr := some g } else s2
        let s4 := winCount s3 sh y.tag c
        let bytes := tokenBytes y (jPos j % 16) (bs.take y.hkv) (bs.drop y.hkv)
        let s5 := modJob s4 sh id (fun j => { j with write := some bytes })
        if glnMode s5 sh then jobTail ecc sh id s5 (fun p s => kvWrite ecc sh id (jPos j / 16) p s) else s5

/-- Intake of a job (R349, R354, R365, R366). -/
def jobIntake (ecc : EccFinds) (sh id : Nat) (s : State) : State :=
  match jobOf s sh id with
  | none => s
  | some j =>
    let y := layer s sh (jLayer j)
    if layerBad s sh y j then jobFail s sh id 7
    else if !glnMode s sh then (if jExited j then s else jobVectors ecc sh id s)
    else if jSlot j ≥ 2 ^ regF s (rGln sh 4) 31 28 then jobFail s sh id 1
    else
      match winMem s sh (dirAddr s sh (jLayer j) (jSlot j)) 16 ecc with
      | (s1, none) => jobFail s1 sh id 0xA
      | (s1, some d) =>
        let dir := BitVec.ofNat 128 d
        if !bit dir 127 then jobFail s1 sh id 1
        else if bit dir 126 then jobFail s1 sh id 0xA
        else
          let s2 := modJob s1 sh id (fun j => { j with dir := dir })
          if jExited j then
            jobTail ecc sh id s2 (fun p s =>
              modJob (ptePut s sh { j with dir := dir } (jPos j / 16) (pteSet p (80 + jPos j % 16) true)) sh id (fun j => { j with done := true }))
          else jobVectors ecc sh id s2

/-- True when the Winnow takes jobs: enabled, and in Gleaner mode with the Gleaner enabled (R368, R375). -/
def winTakes (s : State) (sh : Nat) : Bool := regBit s (rWnw sh 0) 31 && (!glnMode s sh || regBit s (rGln sh 0) 0)

/-- True when a job's stages up to its write are past, so that the next may start (R348). -/
def jobPast (s : State) (sh : Nat) (j : WJob) : Bool := j.fail.isSome || j.write.isNone || !glnMode s sh

/-- JOB_START: a job that waits for a frame goes on when the ring has one; else the next job of the ring is taken (R345,
R348, R354, R361). -/
def execJobStart (sh : SheafId) (ecc : EccFinds) (s : State) : Out :=
  .next (
    let w := wnw s sh
    match w.jobs.find? (fun j => j.wait.isSome) with
    | some j =>
      if (framePop s sh).isNone || (glnMode s sh && !regBit s (rGln sh 0) 0) then s
      else jobTail ecc sh j.id s (fun p s => kvWrite ecc sh j.id (jPos j / 16) p s)
    | none =>
      let r := reg s (rWnw sh 8)
      let n := 2 ^ bits r 31 28
      let i := (regF s (rWnw sh 0xC) 15 0 + w.jobs.length) % n
      let waiting := (regF s (rWnw sh 0x10) 15 0 + n - regF s (rWnw sh 0xC) 15 0 % n) % n
      if !winTakes s sh || w.jobs.length ≥ 2 || waiting ≤ w.jobs.length || !w.jobs.all (jobPast s sh) then s
      else
        let (s1, v) := winMem s sh (bits r 17 0 / 32 * 32 + 32 * i) 32 ecc
        let d := v.getD 0
        let j : WJob := { id := s1.nextTag, row0 := BitVec.ofNat 128 d, row1 := BitVec.ofNat 128 (d / 2 ^ 128) }
        let s2 := setWnw { s1 with nextTag := s1.nextTag + 1 } sh { wnw s1 sh with jobs := (wnw s1 sh).jobs ++ [j] }
        if v.isNone then jobFail s2 sh j.id 0xA else jobIntake ecc sh j.id s2)

/-- FRAME_POOL_TIMEOUT: the ring is still empty at the second beat boundary (R361). -/
def execFramePoolTimeout (sh : SheafId) (s : State) : Out :=
  .next (
    match (wnw s sh).jobs.find? (fun j => j.wait.isSome) with
    | none => s
    | some j => if j.wait.getD 0 ≥ 2 ∧ (framePop s sh).isNone then jobFail s sh j.id 4 else s)

/-! ### Pages -/

/-- x ÷ l with a sticky bit. -/
def divV (a b : Val) : Val :=
  match a, b with
  | .nan, _ => .nan
  | _, .nan => .nan
  | .inf _, .inf _ => .nan
  | .inf p, .num q _ _ => .inf (p != q)
  | .num p _ _, .inf q => .num (p != q) 0 0
  | .num p m e, .num q n f =>
    if n = 0 then (if m = 0 then .nan else .inf (p != q))
    else
      let k := m * 2 ^ 64 / n
      .num (p != q) (2 * k + (if m * 2 ^ 64 % n = 0 then 0 else 1)) (e - f - 65)

/-- Element i of a head's token in a frame, as FP32 bits: keys from base 0, values from T × b (R331, R359). -/
def kvElem (y : Layer) (frame : Nat) (val : Bool) (e t i : Nat) : Nat :=
  let T := kvT y
  let b := elB y
  let byte := fun (a n : Nat) => frame / 256 ^ a % 256 ^ n
  let at_ := (if val then T * b else 0) + ((e * 16 + t) * y.d + i) * b
  if y.fmt = 8 then byte at_ 2 * 2 ^ 16
  else
    let sc := byte (2 * T * b + (if val then T / 32 else 0) + (e * 16 + t) * y.d / 32 + i / 32) 1
    (dequantElem bf16 y.fmt sc (byte at_ 1)).1 * 2 ^ 16

/-- The dot product of a query head and a key, by groups of 32 (R162, R359). -/
def dot (q k : List Nat) (d : Nat) : Nat :=
  let ps := (q.zip k).map (fun e => fmul fp32 (e.1 * 2 ^ 16) e.2)
  (List.range ((d + 31) / 32)).foldl (fun a g => fadd fp32 a (treeSum (fadd fp32) 5 ((ps.drop (32 * g)).take 32))) 0

/-- The larger of two FP32 values (R359, R134). -/
def fmax32 (a b : Nat) : Nat := toBits fp32 (maxV (ofBits fp32 a) (ofBits fp32 b))
/-- exp2 of a difference (R164, R359). -/
def expDiff (a b : Nat) : Nat := fnBits fp32 exp2V (fadd fp32 a (fneg32 b))

/-- One page's contribution to a query head (R359): the visible slots, keys and values by slot. -/
def headPage (y : Layer) (vis : List Bool) (ks vs : List (List Nat)) (q : List Nat) (h : WHead) : WHead :=
  if !vis.any id then h
  else
    let sc := (vis.zip ks).map (fun e => if e.1 then some (fmul fp32 y.scale (dot q e.2 y.d)) else none)
    let mn := sc.foldl (fun m x => match x with | some v => fmax32 m v | none => m) h.m
    let a := if h.m = 0xFF800000 then 0 else expDiff h.m mn
    let pr := sc.map (fun x => match x with | some v => expDiff v mn | none => 0)
    let l := fadd fp32 (fmul fp32 h.l a) (treeSum (fadd fp32) 4 pr)
    let pb := pr.map (fun p => bf16Rne p * 2 ^ 16)
    let o := h.o.zipIdx.map (fun e =>
      let terms := (vis.zip (pb.zip vs)).map (fun t => if t.1 then fmul fp32 t.2.1 (t.2.2.getD e.2 0) else 0)
      fadd fp32 (fmul fp32 e.1 a) (treeSum (fadd fp32) 4 terms))
    { m := mn, l := l, o := o }

/-- The visible slots of a page for a job (R341). -/
def visible (y : Layer) (j : WJob) (page : Nat) (p : BitVec 128) : List Bool :=
  (List.range 16).map (fun t =>
    let k := 16 * page + t
    pteLoc p != 3 && pteValid p t && !pteExited p t && (!pteChaff p t || jTent j) && decide (jLo y j ≤ k ∧ k ≤ jPos j))

/-- Compute a page of a job (R353, R359, R363). -/
def pageCompute (s : State) (sh : Nat) (j : WJob) (p : BitVec 128) (rows : List (BitVec 128)) : State :=
  let y := layer s sh (jLayer j)
  let frame := packAll 128 (rows.map (fun r => r.toNat))
  let vis := visible y j j.page p
  let masked := ((List.range 16).filter (fun t => pteChaff p t && !jTent j &&
    decide (jLo y j ≤ 16 * j.page + t ∧ 16 * j.page + t ≤ jPos j))).length
  let heads := (j.q.zip j.heads).zipIdx.map (fun e =>
    let kv := e.2 / (y.hq / y.hkv)
    let el := fun (val : Bool) => (List.range 16).map (fun t => (List.range y.d).map (kvElem y frame val kv t))
    headPage y vis (el false) (el true) e.1.1 e.1.2)
  let s1 := incReg (incReg s (rWnw sh 0xC4)) (rWnw sh 0xD4) masked
  modJob s1 sh j.id (fun j => { j with heads := heads, page := j.page + 1, pte := none, rows := [] })

/-- What the next page of a job comes to. -/
inductive PageStep where
  | on (s : State)
  | stop (s : State)

/-- A page with its PTE: skipped, computed, or read from far memory first (R333, R348). -/
def pageRun (ecc : EccFinds) (sh : Nat) (s : State) (j : WJob) (p : BitVec 128) : PageStep :=
  let y := layer s sh (jLayer j)
  let n := frameRows y
  match pteLoc p with
  | 3 => .on (modJob s sh j.id (fun j => { j with page := j.page + 1, pte := none }))
  | 0 =>
    let f := bits p 15 0
    if bits p 63 0 ≥ poolFrames s sh then .stop (jobFail s sh j.id 9)
    else
      match fbReads ecc sh s ((List.range n).map (frameAt s sh f)) with
      | (s1, .error 0xA) => .stop (jobLost s1 sh j (some f) 2)
      | (s1, .error why) => .stop (jobFail s1 sh j.id why)
      | (s1, .ok rows) => .on (pageCompute s1 sh j p rows)
  | _ =>
    if j.rows.length = n then
      .on (pageCompute s sh j p ((List.range n).map (fun r => ((j.rows.find? (fun e => e.1 == r)).map Prod.snd).getD 0)))
    else if j.asked ≠ 0 then .stop s
    else
      .stop ((packetsOf (bits p 63 0) n).foldl (fun s e =>
        if ((jobOf s sh j.id).map (fun j => j.fail.isSome)).getD true then s
        else
          let (s1, ok) := farAccess s sh j.id .readReq (bits p 63 0 + 16 * e.1) e.2 [] (.page e.1 e.2)
          if ok then modJob s1 sh j.id (fun j => { j with asked := j.asked + 1 }) else s1) (modJob s sh j.id (fun j => { j with rows := [] })))

/-- The descriptor k after the head of the descriptor ring: its two rows; none when the ring holds no such one (R352, R370). -/
def descAt (ecc : EccFinds) (s : State) (sh k : Nat) : Option (State × Option Nat) :=
  let w := reg s (rWnw sh 0x14)
  let n := 2 ^ bits w 31 28
  let h := regF s (rWnw sh 0x18) 15 0 % n
  if (regF s (rWnw sh 0x1C) 15 0 % n + n - h) % n ≤ k then none
  else some (winMem s sh (bits w 17 0 / 32 * 32 + 32 * ((h + k) % n)) 32 ecc)
/-- The descriptor at the head. -/
def descHead (ecc : EccFinds) (s : State) (sh : Nat) : Option (State × Option Nat) := descAt ecc s sh 0

/-- Pass the descriptor at the head. -/
def descPass (s : State) (sh : Nat) : State :=
  setRegF s (rWnw sh 0x18) 15 0 ((regF s (rWnw sh 0x18) 15 0 + 1) % 2 ^ regF s (rWnw sh 0x14) 31 28)

/-- DESC_MISMATCH of a descriptor for a page of a job (R352); the pages of an EXITED job are those given. -/
def descBad (j : WJob) (d : Nat) : Bool :=
  let row1 := d / 2 ^ 128
  nbits row1 127 112 != jSlot j || nbits row1 94 92 != jLayer j ||
    (if jExited j then false else nbits row1 111 96 != j.page || (nbits row1 95 95 == 1) != (j.page == jPos j / 16))

/-- The KV write of a job in descriptor mode (R352, R354): as soon as the ring holds the descriptor of the page of POS, before the pages;
one that does not match the job fails it in its turn (log 115). -/
def descWrite (ecc : EccFinds) (sh : Nat) (s : State) (j : WJob) : State :=
  if j.write.isNone || jExited j || j.left ≠ 0 then s
  else
    match descAt ecc s sh (jPos j / 16 - j.page) with
    | some (s1, some d) =>
      if descBad { j with page := jPos j / 16 } d then s1 else kvWrite ecc sh j.id (jPos j / 16) (BitVec.ofNat 128 d) s1
    | some (s1, none) => s1
    | none => s

/-- The next page of a job in descriptor mode: its descriptor is matched, the EXITED bit of the page of POS is made, and it
is passed once its page is done (R352). -/
def descPage (ecc : EccFinds) (sh : Nat) (s : State) (j : WJob) : PageStep :=
  match descHead ecc s sh with
  | none => .stop s
  | some (s1, none) => .stop (jobFail s1 sh j.id 0xA)
  | some (s1, some d) =>
    if descBad j d then .stop (jobFail s1 sh j.id 8)
    else
      let page := nbits (d / 2 ^ 128) 111 96
      let p := BitVec.ofNat 128 d
      let tail := page == jPos j / 16
      let last := nbits (d / 2 ^ 128) 95 95 == 1
      if jExited j then
        let s2 := if tail then ptePut s1 sh j page (pteSet p (80 + jPos j % 16) true) else s1
        let s3 := modJob (descPass s2 sh) sh j.id (fun j => { j with last := last, done := j.done || tail })
        if last then .stop (if j.done || tail then s3 else jobFail s3 sh j.id 8) else .on s3
      else
        match pageRun ecc sh (modJob s1 sh j.id (fun j => { j with pte := some p })) { j with pte := some p } p with
        | .stop s3 => .stop s3
        | .on s3 => .on (modJob (descPass s3 sh) sh j.id (fun j => { j with last := last }))

/-- The next page of a job in Gleaner mode (R349); a Gleaner that is not enabled walks none (R375). -/
def walkPage (ecc : EccFinds) (sh : Nat) (s : State) (j : WJob) : PageStep :=
  match j.pte with
  | some p => pageRun ecc sh s j p
  | none =>
    if !regBit s (rGln sh 0) 0 then .stop s
    else if j.page ≥ bits j.dir 112 96 then .stop (jobFail s sh j.id 2)
    else
      match pteRead s sh (jLayer j) (jSlot j) j.page j.dir ecc with
      | (s1, none) => .stop (jobFail s1 sh j.id 0xA)
      | (s1, some p) => pageRun ecc sh (modJob s1 sh j.id (fun j => { j with pte := some p })) { j with pte := some p } p

/-- A job's pages in increasing order, as far as their data are there (R341, R348). -/
def pagesRun (ecc : EccFinds) (sh id : Nat) : Nat → State → State
  | 0, s => s
  | k + 1, s =>
    match jobOf s sh id with
    | none => s
    | some j =>
      if j.fail.isSome || j.left ≠ 0 || j.wait.isSome then s
      else if j.done && (glnMode s sh || j.last) then s
      else if !jExited j && j.page > jPos j / 16 then modJob s sh id (fun j => { j with done := true, last := true })
      else
        let s0 := if glnMode s sh then s else descWrite ecc sh s j
        match jobOf s0 sh id with
        | none => s0
        | some j =>
          if j.fail.isSome || j.left ≠ 0 then s0
          else
            match if glnMode s0 sh then walkPage ecc sh s0 j else descPage ecc sh s0 j with
            | .on s1 => pagesRun ecc sh id k s1
            | .stop s1 => s1

/-! ### Completion -/

/-- Pass the descriptors of a failed job through its LAST (R352). -/
def descDrain (sh id : Nat) : Nat → State → State
  | 0, s => s
  | k + 1, s =>
    match jobOf s sh id with
    | none => s
    | some j =>
      if j.last then s
      else
        match descHead [] s sh with
        | none => s
        | some (s1, d) =>
          descDrain sh id k (modJob (descPass s1 sh) sh id (fun j => { j with last := nbits ((d.getD 0) / 2 ^ 128) 95 95 == 1 }))

/-- The output rows of a head (R359). -/
def headOut (y : Layer) (h : WHead) : List (BitVec 128) :=
  let zero := match ofBits fp32 h.l with
    | .num _ 0 _ => true
    | _ => false
  let es := h.o.map (fun x => if zero then 0 else toBits bf16 (divV (ofBits fp32 x) (ofBits fp32 h.l)))
  (List.range (y.d / 8)).map (fun r => BitVec.ofNat 128 (packAll 16 ((es.drop (8 * r)).take 8)))

/-- A completed job leaves: the head of the ring advances, and it is counted (R348, R373). -/
def jobLeave (s : State) (sh id : Nat) : State :=
  let w := wnw s sh
  let s1 := setWnw s sh { w with jobs := w.jobs.filter (fun j => j.id != id) }
  incReg (setRegF s1 (rWnw sh 0xC) 15 0 ((regF s (rWnw sh 0xC) 15 0 + 1) % 2 ^ regF s (rWnw sh 8) 31 28)) (rWnw sh 0xC0)

/-- The end of a failed job (R366). -/
def jobFault (s : State) (sh : Nat) (j : WJob) (why : Nat) : State :=
  let y := layer s sh (jLayer j)
  let s1 := ((List.range y.hq).filter (fun h => jOg j + h < 256)).foldl (fun s h => tallyErr s (256 * sh + jOg j + h) (jTally j)) s
  let s2 := setReg (setReg s1 (rWnw sh 0xE8) (word (why * 2 ^ 28 + jSlot j))) (rWnw sh 0xEC) (word (jPos j))
  let s3 := orReg s2 (rWnw sh 4) (if why = 0xA then 6 else 4)
  let s4 := jobLeave s3 sh j.id
  if why = 0xA then s4
  else raise s4 .winnowFault (sheafOwner s sh) 3 (sheafUnit sh)
    [(6, sheafPart s sh), (14, sheafCode sh), (8, why), (3, jLayer j), (16, jSlot j), (20, jPos j)]

/-- The end of a job: outputs and tallies (R347, R348, R354, R359). -/
def jobEnd (s : State) (sh : Nat) (j : WJob) : State :=
  let y := layer s sh (jLayer j)
  let gone := !jExited j && (List.range y.hq).any (fun h => fbGone s sh (jOg j + h))
  if gone then jobFault s sh j 0xB
  else
    let s1 := if jExited j then s else
      let s := (j.heads.zipIdx).foldl (fun s e =>
        ((headOut y e.1).zipIdx).foldl (fun s r => (fbWrite sh s (jOg j + e.2) (jOrow j + r.2) r.1).1) s) s
      let empty := (j.heads.filter (fun h => match ofBits fp32 h.l with | .num _ 0 _ => true | _ => false)).length
      incReg s (rWnw sh 0xD8) empty
    let s2 := (List.range y.hq).foldl (fun s h => tallyInc s (256 * sh + jOg j + h) (jTally j) 1) s1
    jobLeave s2 sh j.id

/-! ### Chaff -/

/-- Resolve one position of a slot in one layer (R362). -/
def chaffOne (sh slot : Nat) (commit : Bool) (s : State) (e : Nat × Nat) : State :=
  let (lay, pos) := e
  let dir := BitVec.ofNat 128 (memGet (sheaf s sh).bmem (dirAddr s sh lay slot) 16)
  let page := pos / 16
  let t := pos % 16
  if slot ≥ 2 ^ regF s (rGln sh 4) 31 28 ∨ !bit dir 127 ∨ page ≥ bits dir 112 96 then s
  else
    let p := match labFind (wnw s sh) (labTag lay slot page) with
      | some (_, v) => v
      | none => BitVec.ofNat 128 (memGet (sheaf s sh).bmem (pteAddr dir page) 16)
    if !pteChaff p t then s
    else pteWrite s sh lay slot page dir (let p1 := pteSet p (96 + t) false; if commit then p1 else pteSet p1 (64 + t) false)

/-- Apply the chaff commands that wait, in order, over every layer (R362). -/
def chaffAll (s : State) (sh : Nat) : State :=
  (wnw s sh).chaff.foldl (fun s c =>
    let op := bits c.2 31 30
    let cells := (List.range 8).flatMap (fun lay => (List.range (bits c.2 29 27 + 1)).map (fun k => (lay, bits c.2 19 0 + k)))
    cells.foldl (chaffOne sh c.1 (op == 1)) s) (setWnw s sh { wnw s sh with chaff := [] })

/-- A write of WNW_CHAFF_CMD (R362, R374). -/
def chaffCmd (ini : Initiator) (sh : Nat) (value : Word) (op : Nat) (s : State) : State :=
  regCommand ini (rWnw sh 0xE4) s (fun s =>
    if bits value 31 30 ≠ op then s
    else if !glnMode s sh then orReg s (rWnw sh 4) 1
    else
      let w := wnw s sh
      setWnw s sh { w with chaff := w.chaff ++ [(regF s (rWnw sh 0xE0) 15 0, value)] })

/-- CHAFF_COMMIT (R362). -/
def execChaffCommit (ini : Initiator) (sh : SheafId) (value : Word) (s : State) : Out := .next (chaffCmd ini sh value 1 s)
/-- CHAFF_ROLLBACK (R362). -/
def execChaffRollback (ini : Initiator) (sh : SheafId) (value : Word) (s : State) : Out := .next (chaffCmd ini sh value 2 s)

/-- CHAFF_APPLY: between the job in computation and the next job's page reads (R362). -/
def execChaffApply (sh : SheafId) (s : State) : Out := .next (if (wnw s sh).jobs.any (fun j => j.begun) then s else chaffAll s sh)

/-- GLN_LAB_INV: entries of the look-aside buffer are invalidated (R350, R376). -/
def execGlnLabInv (ini : Initiator) (sh : SheafId) (value : Word) (s : State) : Out :=
  .next (regCommand ini (rGln sh 8) s (fun s =>
    let w := wnw s sh
    setWnw s sh { w with lab := if bit value 31 then [] else w.lab.filter (fun e => e.2.1 / 2 ^ 16 % 2 ^ 16 != bits value 15 0) }))

/-- The pages outside a job's range, those of its table where it has one (R341, R373): none for a job that reads no page (log 116). -/
def pagesSkipped (s : State) (sh : Nat) (j : WJob) : Nat :=
  let lo := jLo (layer s sh (jLayer j)) j / 16
  if jExited j || j.fail.isSome then 0
  else if glnMode s sh then
    let n := bits j.dir 112 96
    min lo n + (n - (jPos j / 16 + 1))
  else lo

/-- JOB_COMPLETE: the oldest job's pages as far as their data are there; then its outputs and tallies, or its failure (R348,
R366). Far rows that are still on their way leave the job in computation. -/
def execJobComplete (sh : SheafId) (ecc : EccFinds) (s : State) : Out :=
  .next (
    match (wnw s sh).jobs with
    | [] => s
    | j0 :: _ =>
      if j0.wait.isSome then s
      else
        let s0 := if j0.begun then s else
          incReg (modJob (chaffAll s sh) sh j0.id (fun j => { j with begun := true })) (rWnw sh 0xC8) (pagesSkipped s sh j0)
        let s1 := pagesRun ecc sh j0.id 65537 s0
        match jobOf s1 sh j0.id with
        | none => s1
        | some j =>
          match j.fail with
          | some why =>
            if glnMode s1 sh then jobFault s1 sh j why
            else
              let s2 := descDrain sh j.id 4096 s1
              if ((jobOf s2 sh j.id).map (fun j => j.last)).getD true then jobFault s2 sh j why else s2
          | none => if j.done && j.left = 0 then jobEnd s1 sh j else s1)

/-! ### Answers from far memory -/

/-- A far write of a job is answered (R366): GONE fails it. -/
def winAck (s : State) (sh id : Nat) (use : WinUse) (gone : Bool) : State :=
  let s1 := match use with
    | .page _ _ => modJob s sh id (fun j => { j with asked := j.asked - 1 })
    | _ => modJob s sh id (fun j => { j with left := j.left - 1 })
  if gone then jobFail s1 sh id 0xB else s1

/-- Far rows of a job arrive (R333, R364): a page's rows are kept, and the pages go on once they are all there; a row to be
changed in part is written back. -/
def winData (s : State) (sh id : Nat) (use : WinUse) (rows : List (BitVec 128 × Bool)) : State :=
  match jobOf s sh id with
  | none => s
  | some j =>
    let s1 := winAck s sh id use false
    if rows.any (fun r => r.2) then jobLost s1 sh j (some (bits ((j.cow.map Prod.snd).getD (j.pte.getD 0)) 63 0)) 3
    else
      match use with
      | .write => s1
      | .merge a lo n v =>
        let (s2, ok) := farAccess s1 sh id .write a 1 [(rowMerge ((rows.headD (0, false)).1) lo n v, false)] .write
        if ok then modJob s2 sh id (fun j => { j with left := j.left + 1 }) else s2
      | .cow r =>
        match j.cow with
        | none => s1
        | some (f, p) =>
          match nearWrite [] sh f s1 (rows.zipIdx.map (fun e => (r + e.2, 0, 16, e.1.1.toNat))) with
          | (s2, some why) => jobFail s2 sh id why
          | (s2, none) => if ((jobOf s2 sh id).map (fun j => j.left)).getD 1 = 0 then cowDone [] s2 sh id (jPos j / 16) f p else s2
      | .page r _ =>
        let s2 := modJob s1 sh id (fun j => { j with rows := j.rows ++ rows.zipIdx.map (fun e => (r + e.2, e.1.1)) })
        if ((jobOf s2 sh id).map (fun j => j.asked)).getD 1 = 0 then pagesRun [] sh id 65537 s2 else s2

/-- At a beat: waits are counted, and counts posted (R168, R361). -/
def winBeat (s : State) (sh : Nat) : State :=
  let w := wnw s sh
  winPost (setWnw s sh { w with jobs := w.jobs.map (fun j => { j with wait := j.wait.map (· + 1) }) }) sh

end Sys2Proof.Machine
end

