-- ==== Sys2Proof/Machine/Packets.lean ====
section
/-!
DEFINITION. Packets at their routers (R272 to R302, R312 to R318): delivery to grains and attachments, the remote write
buffer (R231 to R233, R248), answers to their requesters, multicast trees, and the faults of links and FIFOs.
-/
namespace Sys2Proof.Machine

/-! ### Delivery -/

/-- True at a packet's destination; a multicast packet acts at every router it reaches. -/
def atDest (f : Flight) : Bool := f.pkt.mc || atCoord f.pkt.dst == f.at_.val

/-- Two packets that arrive in the order sent (R283): of one source, destination and virtual channel; of a tree, at one port of one
router. -/
def sameFlow (f w : Flight) : Bool :=
  w.pkt.mc == f.pkt.mc && w.pkt.src == f.pkt.src && w.pkt.dst == f.pkt.dst && isResponse w.pkt.type == isResponse f.pkt.type &&
    (!f.pkt.mc || (w.pkt.tag == f.pkt.tag && w.at_ == f.at_ && w.port == f.port))
/-- True when no packet that was sent before it on its way is still in flight (R283). -/
def firstOfFlow (s : State) (f : Flight) : Bool := (s.mesh.find? (sameFlow f)).all (fun w => w == f)

/-- A packet command: a packet of the type at its destination, in its turn, leaves the list and acts. -/
def arrive (ty : PktType) (f : Flight) (s : State) (k : State → State) : State :=
  if f.pkt.type == ty && atDest f && !atGateway f && firstOfFlow s f then k (unlist s f) else s

/-- What a packet's address names among the targets of the mesh (R293, R294). -/
inductive Target where
  | spd
  | window (sh off : Nat)
  | bin (b off : Nat)
  | crib (d : Nat)
  | granary (f off : Nat)
  deriving DecidableEq, Repr

/-- True at the routers a bin is attached to (R293). -/
def binAt (b r : Nat) : Bool :=
  fieldOfGrain r == binField b && grainX r % 96 % 12 == 2 && 32 ≤ grainY r % 96 && grainY r % 96 < 64 && grainY r % 2 == 0
/-- The port die attached to a router (R293). -/
def dieAt (r : Nat) : Option Nat :=
  if grainX r % 96 % 24 == 20 && 36 ≤ grainY r % 96 && grainY r % 96 < 68 && grainY r % 4 == 0 then
    (List.range 6).find? (fun d => dieField d == fieldOfGrain r)
  else none
/-- True at the routers of a field's Granary read port (R293). -/
def granaryAt (r : Nat) : Bool := grainX r % 16 == 8 && grainY r % 16 == 8

/-- The attachment of a router that serves the target a packet's address names, or else its grain (R293, R294). -/
def targetOf (r : Nat) (p : Packet) : Target :=
  let a := p.addr.toNat
  if p.mc then .spd
  else
    match nbits a 47 44 with
    | 0 => if nbits a 38 38 = 1 ∧ r = sheafPort (sheafOfGrain r) then .window (sheafOfGrain r) (nbits a 23 0) else .spd
    | 1 => if binAt (nbits a 39 36) r then .bin (nbits a 39 36) (nbits a 35 0) else .spd
    | 2 => match dieAt r with | some d => .crib d | none => .spd
    | 3 => if granaryAt r then .granary (fieldOfGrain r) (nbits a 43 0) else .spd
    | _ => .spd

/-- The local port of a target at a router. -/
def targetPort (r : Nat) (p : Packet) : Port :=
  match targetOf r p with
  | .spd => .grain r
  | .window sh _ => .sheaf sh
  | .bin b _ => .die b
  | .crib d => .die (0x18 + d)
  | .granary f _ => .granary f

/-- True when a target's port drains, so that the request is answered GONE (R312, R313, R782). -/
def targetDrains (s : State) (r : Nat) (p : Packet) : Bool := drains s (targetPort r p)

/-! ### Binder memory and the rest of a sheaf-local window -/

/-- Write one row of binder memory with its poison mark (R261, R743). -/
def bmemPutRow (s : State) (sh row : Nat) (r : BitVec 128 × Bool) : State :=
  let s1 := bmemWrite s sh (16 * row) 16 r.1.toNat
  if r.2 then
    let x := sheaf s1 sh
    setSheaf s1 sh { x with bpoison := setAdd (setAdd x.bpoison (2 * row)) (2 * row + 1) }
  else s1

/-- A row of a sheaf-local window is written: binder memory or the rotary table; a lock word is read-only (R42, R43). -/
def winRowPut (sh : Nat) (s : State) (e : Nat × BitVec 128 × Bool) : State :=
  let o := e.1 / 16 * 16
  if o < 0x40000 then bmemPutRow s sh (o / 16) e.2
  else if 0x50000 ≤ o ∧ o < 0x60000 then
    let x := sheaf s sh
    setSheaf s sh { x with rot := memPutRow x.rot (o - 0x50000) e.2.1 }
  else s

/-- A lock word as memory reads it (R253). -/
def lockWord (l : Lock) : Nat :=
  match l.st with
  | .free => 0
  | .held => 2 ^ 30 + l.epoch.toNat * 2 ^ 21 + l.owner.toNat
  | .abandoned => 2 ^ 31 + l.epoch.toNat * 2 ^ 21 + l.owner.toNat

/-- A row of a sheaf-local window as it is read (R42, R253). -/
def winRow (s : State) (sh o : Nat) : BitVec 128 × Bool :=
  let x := sheaf s sh
  if o < 0x40000 then (memRow x.bmem o, bmemPoisoned s sh o 16)
  else if o < 0x40100 then
    (BitVec.ofNat 128 (packFields ((List.range 4).map (fun k => (32, lockWord (mapGet {} x.locks ((o - 0x40000) / 4 + k)))))), false)
  else if 0x50000 ≤ o ∧ o < 0x60000 then (memRow x.rot (o - 0x50000), false)
  else (0, false)

/-! ### Requests for memory -/

/-- True for the traffic of an image's LOADS groups, which reaches the ports that the image's start will open (R545, R735,
log 37). -/
def imageLoad (s : State) (p : Packet) : Bool :=
  (p.type == .writeCredited || p.type == .creditReq) &&
    s.reqs.any (fun q => q.at_ == atCoord p.src && q.rid == p.tag.toNat &&
      (match q.who with
       | .loader f id _ _ _ => ((mapGet {} s.granary.regions f).runs.any (fun r => r.id == id && r.img.isSome))
       | _ => false))
/-- Drain mode of a grain's port, for a packet. -/
def closedTo (s : State) (r : Nat) (p : Packet) : Bool := fenced s r && !imageLoad s p

/-- Deliver a write to a grain's port (R231): GONE from a port that drains, as that leaf's answer in a tree (R313, R319). -/
def grainTake (s : State) (r : Nat) (f : Flight) : State :=
  if closedTo s r f.pkt then owedGone r s f else setGrain s r { grain s r with arriving := (grain s r).arriving ++ [f] }

/-- A unicast WRITE at its target (R42, R489, R496, R506). -/
def writeTake (s : State) (f : Flight) : State :=
  let r := f.at_.val
  let p := f.pkt
  match targetOf r p with
  | .spd => grainTake s r f
  | t =>
    if targetDrains s r p then sendGone s r (targetPort r p) p
    else
      match t with
      | .window sh o =>
        reply ((p.body.zipIdx.map (fun e => (o + 16 * e.2, e.1))).foldl (winRowPut sh) s) r p .ack 0 0 []
      | .bin b o => reply (binWrite s b o p.body) r p .ack 0 0 []
      | .crib _ => cribRequest s r p
      | _ => reply s r p .ack 0 0 []

/-- A multicast packet that a router drops (R300): one ACK REFUSED goes upstream. -/
def tagFault (s : State) (f : Flight) : State :=
  let r := f.at_.val
  let p := f.pkt
  let e := reg s (rTag r p.tag.toNat)
  let s1 := sendPort (orReg s (rGrain r 3 4) (2 ^ 3)) r f.port (mergedPkt p.tag.toNat ⟨2, p.src, p.epoch, p.part⟩ 2)
  raiseOnce s1 .meshTagFault (some p.part.toNat) 4 (grainUnit r)
    [(21, coordOf r), (6, p.tag.toNat), (6, p.part.toNat), (6, bits e 27 22)]

/-- A multicast packet at a router of its tree (R296, R297, R300). -/
def treeTake (s : State) (f : Flight) : State :=
  let r := f.at_.val
  let p := f.pkt
  let e := reg s (rTag r p.tag.toNat)
  if !bit e 31 || bits e 27 22 != p.part.toNat then tagFault s f
  else
    let (ports, turned) := effMask s r p.tag.toNat f.port
    let s1 := if turned then orReg s (rGrain r 3 4) (2 ^ 2) else s
    let shut := fun (k : Nat) => ((neighbour r k).map (fun n => fieldOfGrain n != fieldOfGrain r && retired s (fieldOfGrain n))).getD false
    ports.foldl (fun s k =>
      if k = 4 then grainTake (countHops s (flits p) [(r, 4)]) r f
      else if shut k then mergeAdd (incReg s (rGrain r 3 0x00C)) r p.tag.toNat k ⟨4, p.src, p.epoch, p.part⟩
      else sendPort s r k p) s1

/-- WRITE (R278): at its target, or at a router of its tree. -/
def execWrite (f : Flight) (s : State) : Out :=
  .next (arrive .write f s (fun s => if f.pkt.mc then treeTake s f else writeTake s f))

/-- WRITE_CREDITED (R248, R468): to a grain, or along a loader's tree. -/
def execWriteCredited (f : Flight) (s : State) : Out :=
  .next (arrive .writeCredited f s (fun s => if f.pkt.mc then treeTake s f else grainTake s f.at_ f))

/-- Who made a request, by its source and identifier. -/
def whoAsked (s : State) (p : Packet) : Option Requester := (findReq s (atCoord p.src) p.tag.toNat).map (fun q => q.who)

/-- The agent of a read (R46, R52): the partition of the traffic, or the owner with its verb's namespace. -/
def readAgent (s : State) (p : Packet) : Agent :=
  match whoAsked s p with
  | some (.host _ v _ _) => (match verbOf s v with | some v => fnAgent v.fn (bits v.op0 92 85) | none => .part p.part.toNat)
  | _ => .part p.part.toNat

/-- The local offset a READ_DATA names (R278): where its requester puts the rows, in its own scratchpad or memory, in the transfer of
a host verb or a send descriptor, or in the page a Winnow reads. -/
def readOff (s : State) (p : Packet) : Nat :=
  match whoAsked s p with
  | some (.dma _ _ _ loff _) => 16 * loff
  | some (.host _ _ off _) => off
  | some (.sendRead _ _ off _) => 16 * off
  | some (.winnow _ _ (.page row _)) | some (.winnow _ _ (.cow row)) => 16 * row
  | _ => 0

/-- Rows of the Granary window: their codewords are decoded, and the page read counts (R474, R476). -/
def granaryRows (s : State) (who : Agent) (o n : Nat) (ecc : EccFinds) : State × List (BitVec 128 × Bool) :=
  match agentNs s who with
  | none => (s, List.replicate n (0, false))
  | some ns =>
    let s1 := match nsBlock s ns (o / 2 ^ 24) with
      | none => s
      | some (f, b, len) => gryCount (gryDecode ecc (o / 4096) f b (o % 2 ^ 24 / 4096) 1 s) f b (pagesSensed len (o % 2 ^ 24) (o % 2 ^ 24 + 16 * n))
    (s1, (List.range n).map (fun k => nsRow s1 ns (o + 16 * k)))

/-- What a read finds at its target; none where the answer comes later (R78, R261, R494, R506, R743). -/
def readRows (s : State) (r : Nat) (p : Packet) (ecc : EccFinds) : Option (State × List (BitVec 128 × Bool)) :=
  let n := p.len.toNat
  match targetOf r p with
  | .spd =>
    let row := bits p.addr 15 4
    let ok := (List.range n).filter (fun k => row + k < 3072)
    let s1 := spdChecks ecc 3 r (16 * row) (16 * ok.length) s
    some (s1, (List.range n).map (fun k => if row + k < 3072 then spdSendRow (grain s1 r) (row + k) else (0, false)))
  | .window sh o =>
    let o := o / 16 * 16
    let s1 := if o < 0x40000 then bmemChecks ecc 2 sh o (16 * n) s else s
    some (s1, (List.range n).map (fun k => winRow s1 sh (o + 16 * k)))
  | .bin b o => some (binRead s b o n ecc)
  | .crib _ => none
  | .granary _ o => some (granaryRows s (readAgent s p) (o / 16 * 16) n ecc)

/-- True for a read of the Granary window that comes before the Granary is READY: it waits at the read port (R460). -/
def granaryWaits (s : State) (r : Nat) (p : Packet) : Bool :=
  !gryReady s && !targetDrains s r p && (match targetOf r p with | .granary _ _ => true | _ => false)

/-- READ_REQ (R278): the rows asked for, GONE from a target that drains. -/
def execReadReq (f : Flight) (ecc : EccFinds) (s : State) : Out :=
  .next (if granaryWaits s f.at_ f.pkt then s else arrive .readReq f s (fun s =>
    let r := f.at_.val
    let p := f.pkt
    if targetDrains s r p then sendGone s r (targetPort r p) p
    else
      match readRows s r p ecc with
      | none => cribRequest s r p
      | some (s1, rows) => reply s1 r p .readData 0 (readOff s p) rows))

/-! ### The lock unit -/

/-- What the lock unit decides (R254): the word afterwards and the status. -/
def lockDecide (l : Lock) (fn : Nat) (who : BitVec 21) (epoch : BitVec 9) : Lock × Nat :=
  let mine : Lock := ⟨.held, epoch, who⟩
  if fn = 2 then if l.st = .held ∧ l.owner = who ∧ l.epoch = epoch then ({}, 0) else (l, 3)
  else
    match l.st with
    | .free => (mine, 0)
    | .abandoned => (mine, 1)
    | .held => if l.owner = who ∧ l.epoch ≠ epoch then (mine, 1) else (l, 2)

/-- True for a lock request of a grain whose ear is not ON: it takes no part in a lock operation (R111, log 102). -/
def lockAbsent (s : State) (p : Packet) : Bool :=
  match whoAsked s p with
  | some (.lock (.binder _) _ _) => false
  | _ => !earOn s (earOfGrain (atCoord p.src))

/-- LOCK_REQ (R111, R254, R256). -/
def execLockReq (f : Flight) (s : State) : Out :=
  .next (arrive .lockReq f s (fun s =>
    let r := f.at_.val
    let p := f.pkt
    let sh := sheafOfGrain r
    if drains s (.sheaf sh) then sendGone s r (.sheaf sh) p
    else if lockAbsent s p then s
    else
      let k := bits p.addr 5 0
      let (l, st) := lockDecide (mapGet {} (sheaf s sh).locks k) (bits p.addr 25 24) p.src p.epoch
      let x := sheaf s sh
      reply (setSheaf s sh { x with locks := mapSet {} x.locks k l }) r p .lockResp 0 st []))

/-! ### Credits and notices -/

/-- CREDIT_REQ (R246, R247, R252). -/
def execCreditReq (f : Flight) (s : State) : Out :=
  .next (arrive .creditReq f s (fun s =>
    let r := f.at_.val
    if closedTo s r f.pkt then sendGone s r (.grain r) f.pkt else cwRequest s r f.pkt.cw.toNat (bits f.pkt.addr 11 0) f.pkt))

/-- CREDIT_RELEASE (R280): n credited rows arrive without data, and n credits return. -/
def execCreditRelease (f : Flight) (s : State) : Out :=
  .next (arrive .creditRelease f s (fun s =>
    let r := f.at_.val
    let n := bits f.pkt.addr 11 0
    let w := f.pkt.cw.toNat
    if fenced s r then orphan s r else cwReturn (cwArrivals s r w f.pkt.src n).1 r w n))

/-- NOTIFY_PACKET (R89): it has no answer, so a sheaf that drains drops it (log 34). -/
def execNotifyPacket (f : Flight) (s : State) : Out :=
  .next (arrive .notify f s (fun s =>
    let sh := sheafOfGrain f.at_
    if drains s (.sheaf sh) then s else ncInc s sh (bits f.pkt.addr 2 0) 1))

/-! ### Answers -/

/-- The request a response answers: by tag for a merged one, else by identifier (R277, R301). -/
def answers (s : State) (r : Nat) (p : Packet) : Option Req :=
  let tagged := fun (w : Requester) => match w with
    | .mput _ t => t == p.tag.toNat
    | .loader _ _ _ _ (some t) => t == p.tag.toNat
    | _ => false
  if p.mc then s.reqs.find? (fun q => q.at_ == r && tagged q.who)
  else s.reqs.find? (fun q => q.at_ == r && q.rid == p.tag.toNat && !tagged q.who)

/-- A response at the local port: dropped as an orphan, or its requester's (R315). A request that a reset has
forgotten leaves an orphan. -/
def response (ty : PktType) (f : Flight) (s : State) (k : Req → State → State) : State :=
  arrive ty f s (fun s =>
    match answers s f.at_ f.pkt with
    | none => orphan s f.at_
    | some q => if orphaned s (reqPort q.who) f.pkt then orphan s f.at_ else k q s)

/-- A binder's register access ends without a value (R314): GRN_FAULT.GONE, and the register may be used again. -/
def regGone (s : State) (sh : Nat) (rd : Option Nat) : State :=
  let u := ub sh
  let c := core s u
  let s1 := setCore s u { c with regReads := match rd with | some r => c.regReads.erase r | none => c.regReads }
  setFault s1 u (2 ^ 4) c.lastPc

/-- A write's acknowledgement, or the gone response of any request, reaches its requester (R93, R96, R279, R313). -/
def settled (s : State) (q : Req) (part : BitVec 6) (status : Nat) (gone : Bool) : State :=
  match q.who with
  | .put g _ => fenceCheck s (ug g)
  | .mput g _ => fenceCheck s (ug g)
  | .dma u id row _ _ => fenceCheck (dmaPiece s u id row (if gone then some 8 else if status = 0 then none else some 0xA)) u
  | .lock u _ live => if gone && live then lockAnswer s u 4 else if gone then fenceCheck s u else s
  | .reg sh rd => if gone then regGone s sh rd else s
  | .flue b dir i cw dst => if gone then flueGrant s b dir i cw dst part 1 0 else s
  | .loader f id tgt 0 _ => if gone then loaderGrant s f id tgt 1 0 else s
  | .loader f id tgt rows tag => loaderAck s f id tgt rows tag gone
  | .host _ v _ rows => dmaVerbAnswer s v rows (if gone then some 0x09 else none)
  | .winnow sh j use => winAck s sh j use gone
  | .recv _ id piece 0 => if gone then recvGrant s id piece 4 0 else s
  | .recv _ id _ _ => recvAck s id gone
  | .sendRead _ id _ _ => if gone then sendFail (modSend s id (fun q => { q with left := q.left - 1 })) id 5 else s

/-- ACK (R279, R301): merged at a router of a tree, or its requester's. -/
def execAck (f : Flight) (s : State) : Out :=
  .next (
    let p := f.pkt
    if p.mc && f.port.val < 4 then
      arrive .ack f s (fun s => mergeAdd s f.at_ p.tag.toNat f.port ⟨p.status.toNat, p.src, p.epoch, p.part⟩)
    else response .ack f s (fun q s => settled (dropReq s q) q p.part p.status.toNat false))

/-- GONE (R301, R313). -/
def execGone (f : Flight) (s : State) : Out :=
  .next (
    let p := f.pkt
    if p.mc && f.port.val < 4 then arrive .gone f s (fun s => mergeAdd s f.at_ p.tag.toNat f.port ⟨4, p.src, p.epoch, p.part⟩)
    else response .gone f s (fun q s => settled (dropReq s q) q p.part 0 true))

/-- Rows a READ returns to a binder go into its memory, at addresses that wrap (R91, R112); those another READ writes too take
unpredictable data (R94). -/
def binderRows (s : State) (sh id loff : Nat) (rows : List (BitVec 128 × Bool)) : State :=
  let (d, s1) := draw s
  rows.zipIdx.foldl (fun s e =>
    let row := localRow (ub sh) (loff + e.2)
    bmemPutRow s sh row (if overlapped (sheaf s1 sh).core (ub sh) id row then (freeRow d e.2, e.1.2) else e.1)) s1

/-- READ_DATA (R278): a grain's rows enter its write buffer; other requesters take theirs. -/
def execReadData (f : Flight) (s : State) : Out :=
  .next (response .readData f s (fun q s =>
    let body := f.pkt.body
    match q.who with
    | .dma (.grain g) _ _ _ _ => grainTake s g f
    | .dma (.binder sh) id row loff _ =>
      fenceCheck (dmaPiece (binderRows (dropReq s q) sh id loff body) (.binder sh) id row none) (.binder sh)
    | .host _ v off _ => dmaVerbData (dropReq s q) v off (body.map Prod.fst)
    | .winnow sh j use => winData (dropReq s q) sh j use body
    | .sendRead _ id off _ => sendRows (dropReq s q) id off body
    | _ => dropReq s q))

/-- LOCK_RESP (R98). -/
def execLockResp (f : Flight) (s : State) : Out :=
  .next (response .lockResp f s (fun q s =>
    match q.who with
    | .lock u _ live =>
      let s1 := dropReq s q
      fenceCheck (if live then lockAnswer s1 u (bits f.pkt.addr 2 0) else s1) u
    | _ => dropReq s q))

/-- CREDIT_GRANT (R279): to the Flue entry, loader or port die that asked. -/
def execCreditGrant (f : Flight) (s : State) : Out :=
  .next (response .creditGrant f s (fun q s =>
    let st := f.pkt.status.toNat
    let n := bits f.pkt.addr 11 0
    match q.who with
    | .flue b dir i cw dst => flueGrant (dropReq s q) b dir i cw dst f.pkt.part st n
    | .loader fd id tgt _ _ => loaderGrant (dropReq s q) fd id tgt st n
    | .recv _ id piece _ => recvGrant (dropReq s q) id piece st n
    | _ => dropReq s q))

/-- REG_RESP (R114): the binder's destination register. -/
def execRegResp (f : Flight) (s : State) : Out :=
  .next (response .regResp f s (fun q s =>
    match q.who with
    | .reg sh (some rd) =>
      let u := ub sh
      let c := core s u
      let v := word (((f.pkt.body.headD (0, false)).1).toNat % 2 ^ 32)
      setCore (dropReq s q) u (sSet { c with regReads := c.regReads.erase rd } rd v)
    | _ => dropReq s q))

/-! ### The remote write buffer -/

/-- Who awaits a response. -/
def whoAwaits (s : State) (r : Nat) (p : Packet) : Option Requester := (answers s r p).map (fun q => q.who)

/-- True for a packet whose rows draw on a credit window (R244): a WRITE_CREDITED, and the rows of a READ from a tier. -/
def isCredited (s : State) (g : Nat) (f : Flight) : Bool :=
  match f.pkt.type with
  | .writeCredited => true
  | .readData =>
    match whoAwaits s g f.pkt with
    | some (.dma u id _ _ _) => ((descOf s u id).map (fun d => nbits d.remote 47 44 != 0)).getD false
    | _ => false
  | _ => false

/-- True when the buffer has an entry for a packet of a class (R231). -/
def wbRoom (x : Grain) (credited : Bool) : Bool := x.wb.length < 8 && (credited || (x.wb.filter (fun e => !e.credited)).length < 6)

/-- WRITE_BUFFER_ACCEPT: the first packet of a class that waits at the port enters the buffer (R231, R248). -/
def execWriteBufferAccept (g : GrainId) (credited : Bool) (s : State) : Out :=
  .next (
    let x := grain s g
    match x.arriving.find? (fun f => isCredited s g f == credited) with
    | none => s
    | some f =>
      if !wbRoom x credited then s
      else
        let n := f.pkt.body.length
        let id := match f.pkt.type, whoAwaits s g f.pkt with
          | .readData, some (.dma _ id _ _ _) => some id
          | _, _ => none
        let (s1, drop) := if credited then cwArrivals s g f.pkt.cw.toNat f.pkt.src n else (s, List.replicate n false)
        let (d, s2) := draw s1
        let y := grain s2 g
        setGrain s2 g { y with arriving := y.arriving.erase f
                               wb := y.wb ++ [⟨f, credited, drop, List.replicate n false, s.cycle, id, d⟩] })

/-- Row k of an entry may leave the buffer: it has not left, and no entry that arrived before holds a row for the same scratchpad
row (R232). -/
def wbMayLeave (x : Grain) (i : Nat) (e : WbEntry) (k : Nat) : Bool :=
  !e.left.getD k true && !(x.wb.take i).any (fun o => (List.range o.left.length).any (fun j => !o.left.getD j true && wbRow o j == wbRow e k))

/-- One cycle of a write buffer (R232): the oldest row that may leave reaches its bank. The last row of an entry leaves with
PACKET_COMPLETE, which ends the packet (R233, log 108). -/
def wbDrain (s : State) (g : Nat) : State :=
  let x := grain s g
  let rows := x.wb.zipIdx.flatMap (fun e =>
    if (e.1.left.filter (fun b => !b)).length ≤ 1 then []
    else ((List.range e.1.left.length).filter (wbMayLeave x e.2 e.1)).map (fun k => (e.2, k)))
  match rows with
  | [] => s
  | (i, k) :: _ =>
    match x.wb[i]? with
    | none => s
    | some e => setGrain s g { wbWrite x e k with wb := x.wb.set i { e with left := e.left.set k true } }

/-- What a complete packet does beside its rows (R84, R233, R248): its tally and its acknowledgement, or the progress of
its descriptor, which rows dropped end with 0xA (log 104). -/
def wbDone (s : State) (g : Nat) (e : WbEntry) : State :=
  let p := e.flight.pkt
  let bad := e.dropped.any (fun b => b)
  match p.type with
  | .readData =>
    match answers s g p with
    | none => s
    | some q =>
      match q.who with
      | .dma u id row _ _ => dmaPiece (dropReq s q) u id row (if bad then some 0xA else none)
      | _ => dropReq s q
  | _ =>
    let s1 := if p.quiet then s else if bad then tallyErr s g p.tally.toNat else tallyInc s g p.tally.toNat 1
    let st := if bad then 2 else 0
    if p.mc then mergeAdd s1 g p.tag.toNat 4 ⟨st, p.src, p.epoch, p.part⟩ else reply s1 g p .ack st 0 []

/-- PACKET_COMPLETE: the last row of the entry of a slot reaches its bank (R232, R233). -/
def execPacketComplete (g : GrainId) (slot : Fin 8) (s : State) : Out :=
  .next (
    let x := grain s g
    match x.wb[slot.val]? with
    | none => s
    | some e =>
      let ks := List.range e.flight.pkt.body.length
      let x1 := (List.range slot.val).foldl (wbFirst (ks.map (wbRow e))) x
      let x2 := ks.foldl (fun x k => wbWrite x e k) x1
      wbDone (setGrain s g { x2 with wb := x2.wb.eraseIdx slot.val }) g e)

/-! ### Faults of links and FIFOs -/

/-- The packet in flight that a router receives on a port: the copy of a tree's that is on its way there; a unicast packet is listed
where it leaves the mesh (log 7). -/
def inFlight (s : State) (f : Flight) : Option Flight :=
  if s.mesh.contains f then some f else s.mesh.find? (fun w => !f.pkt.mc && w.pkt == f.pkt)

/-- Mark or replace a row of a packet in flight. -/
def markRow (s : State) (f : Flight) (i : Nat) (zero : Bool) : State :=
  match inFlight s f with
  | none => s
  | some w =>
    let body := w.pkt.body.zipIdx.map (fun e => if e.2 = i then (if zero then 0 else e.1.1, true) else e.1)
    { s with mesh := s.mesh.map (fun h => if h = w then { h with pkt := { w.pkt with body := body } } else h) }

/-- A packet in flight is lost. -/
def losePkt (s : State) (f : Flight) : State :=
  match inFlight s f with
  | none => s
  | some w => { s with mesh := s.mesh.erase w }

/-- An input FIFO of 4 flits over one cycle (R272, R285): its depth at the cycle's end, from its depth at the start and the push and
pop requested, and whether the push is dropped. A pop needs a flit there at the start. -/
def fifoStep (depth : Nat) (push pop : Bool) : Nat × Bool :=
  let drop := push && decide (4 ≤ depth)
  (depth + bnat (push && !drop) - bnat (pop && decide (0 < depth)), drop)

/-- MESH_LINK_UE: what a router's check finds in a flit it receives (R275); on a Flue link the bridge has a flag too
(R326). A head that R285 has dropped before is no more checked (R319). -/
def execMeshLinkUe (f : Flight) (err : LinkErr) (s : State) : Out :=
  .next (
    let r := f.at_.val
    match err with
    | .corrected => incReg s (rGrain r 3 0x10)
    | .body i => markRow s f i false
    | .head =>
      if (inFlight s f).isNone then s
      else
      let s1 := orReg (losePkt s f) (rGrain r 3 4) (2 ^ 4)
      let (b, _) := flueAt r
      if fluePort r f.port then
        raise (orReg s1 (rFlue b 4) (2 ^ 3)) .meshLinkUe none 5 (0x10 + b) [(22, 2 ^ 21 + 0x10 + b), (3, f.port.val)]
      else raise s1 .meshLinkUe none 4 (grainUnit r) [(22, coordOf r), (3, f.port.val)])

/-- CREDIT_VIOLATION: a flit of a packet is pushed into the FIFO of its channel, which has a depth at the start of the cycle (log 7).
Into a full FIFO the push is dropped (R285, R286): a head (none) takes its packet with it, a body flit becomes a poisoned row of
zeros; the first offence is recorded. -/
def execCreditViolation (f : Flight) (depth : Fin 5) (flit : Option (Fin 4)) (s : State) : Out :=
  .next (
    if !(fifoStep depth true false).2 then s
    else
    let r := f.at_.val
    let l := rGrain r 3 4
    let vc := isResponse f.pkt.type
    let s1 := match flit with
      | none => orReg (losePkt s f) l 2
      | some i => markRow s f i true
    let s2 := if regBit s1 l 0 then s1 else setRegF (setRegF s1 l 11 11 (bnat vc)) l 10 8 f.port.val
    raiseOnce (orReg s2 l 1) .creditViolation none 4 (grainUnit r)
      [(21, coordOf r), (3, f.port.val), (1, bnat vc), (1, bnat flit.isNone)])

/-! ### Router registers -/

/-- True for the initiators whose writes reach FENCE and PART (R318). -/
def ownsPorts (i : Initiator) : Bool :=
  match i with
  | .damper standby => !standby
  | .host fn _ => fn.val == 0
  | _ => false

/-- Set a local port's drain mode. -/
def setFence (s : State) (g : Nat) (b : Bool) : State :=
  if b == fenced s g then s else if b then fenceGrain s g else unfenceGrain s g

/-- RTR_FENCE_WRITE: a write of RTR_CTRL (R312, R318, R320). -/
def execRtrFenceWrite (ini : Initiator) (g : GrainId) (value : Word) (s : State) : Out :=
  .next (regCommand ini (rGrain g 3 0) s (fun s =>
    if ownsPorts ini then setRegF (setFence s g (bit value 31)) (rGrain g 3 0) 5 0 (bits value 5 0) else s))

/-- RTR_TAG_WRITE: a write of a route-tag entry (R318, R324); counts for the old mask are discarded. -/
def execRtrTagWrite (ini : Initiator) (g : GrainId) (tag : Fin 64) (value : Word) (s : State) : Out :=
  .next (regCommand ini (rTag g tag) s (fun s =>
    let v := value &&& word 0x8fc0071f
    let old := reg s (rTag g tag)
    let w := if ownsPorts ini then v else setBits v 27 22 (bits old 27 22)
    let s1 := setReg s (rTag g tag) w
    { s1 with merges := mapErase s1.merges (64 * g.val + tag.val) }))

end Sys2Proof.Machine
end

