-- ==== Sys2Proof/Machine/Upkeep.lean ====
section
/-!
DEFINITION. The scratchpad scrubber (R262, R263), the command registers of tallies and windows (R270, R271), abandon
notices (R242, R255, R309), Ergot posts (R168) and the reseeding of generators (R152, R178).
-/
namespace Sys2Proof.Machine

/-! ### The scrubber -/

/-- SCRUB_READ: the scrubber's next row, and what the check finds in its low and high word (R262, R263): a correctable
error waits for its write-back, an uncorrectable one poisons the word and is told, to a near frame's requests too. -/
def execScrubRead (g : GrainId) (lo hi : Ecc) (s : State) : Out :=
  .next (
    if regF s (rGrain g 2 0xAC) 15 0 = 0 || !earOn s (earOfGrain g) then s
    else
      let x := grain s g
      let r := x.scrubRow
      let s1 := setGrain s g { x with scrubRow := (r + 1) % 3072 }
      let fs : EccFinds := [(2 * r, lo), (2 * r + 1, hi)]
      let s2 := spdCheck fs 4 g (spdCheck fs 4 g s1 (2 * r)) (2 * r + 1)
      let y := grain s2 g
      let fixable := (lo == .corrected && !x.poison.contains (2 * r)) || (hi == .corrected && !x.poison.contains (2 * r + 1))
      let s3 := if fixable then setGrain s2 g { y with scrubFix := some r } else s2
      if lo == .uncorrectable || hi == .uncorrectable then kvScrub s3 g r else s3)

/-- SCRUB_WRITEBACK: the corrected row is written back, unless a write reached it since (R263); its bytes are those the
row already decodes to. -/
def execScrubWriteback (g : GrainId) (s : State) : Out :=
  .next (setGrain s g { grain s g with scrubFix := none })

/-! ### Command registers -/

/-- A write of TLY_CMD (R240, R270) acts as the tally operation of its OP; the command names the OP it has. -/
def tlyCmd (ini : Initiator) (g : Nat) (value : Word) (op : Nat) (s : State) (k : Nat → State → State) : State :=
  regCommand ini (rGrain g 2 0xB8) s (fun s => if bits value 21 20 = op then k (bits value 19 16) s else s)

/-- TLY_CMD_SET (R239, R270). -/
def execTlyCmdSet (ini : Initiator) (g : GrainId) (value : Word) (s : State) : Out :=
  .next (tlyCmd ini g value 0 s (fun k s => tcSetOp (.grain g) s k (BitVec.ofNat 16 (bits value 15 0))))

/-- TLY_CMD_CLRERR (R239, R270). -/
def execTlyCmdClrerr (ini : Initiator) (g : GrainId) (value : Word) (s : State) : Out :=
  .next (tlyCmd ini g value 1 s (fun k s => tcClrOp (.grain g) s k))

/-- A write of TLY_CW_CMD (R251, R271). -/
def cwCmd (ini : Initiator) (g : Nat) (value : Word) (op : Nat) (s : State) (k : Nat → Nat → State → State) : State :=
  regCommand ini (rGrain g 2 0xBC) s (fun s => if bits value 29 28 = op then k (bits value 31 30) (bits value 11 0) s else s)

/-- CW_CMD_SET (R249, R271): refused, it leaves the window unchanged. -/
def execCwCmdSet (ini : Initiator) (g : GrainId) (value : Word) (s : State) : Out :=
  .next (cwCmd ini g value 0 s (fun w n s => if cwSetOk (window s g w) then setWindow s g w (cwSet n) else s))

/-- CW_CMD_RET (R250, R271). -/
def execCwCmdRet (ini : Initiator) (g : GrainId) (value : Word) (s : State) : Out :=
  .next (cwCmd ini g value 1 s (fun w n s => cwReturn s g w n))

/-- CW_CMD_CLOSE (R249, R271). -/
def execCwCmdClose (ini : Initiator) (g : GrainId) (value : Word) (s : State) : Out :=
  .next (cwCmd ini g value 2 s (fun w _ s => cwClose s g w))

/-! ### Abandon notices -/

/-- A watch register fires for a notice (R241, R242, R265): it is enabled and has ANY, or names a sheaf of the notice. -/
def watchFires (w : Word) (shs : List Nat) : Bool :=
  bit w 31 && (bit w 30 || (sheafCodeOk (bits w 13 0) && shs.contains (sheafOfCode (bits w 13 0))))

/-- The counters of a partition's grains that watch the sheaves of a notice: grain and counter. -/
def watchers (s : State) (p : Nat) (shs : List Nat) : List (Nat × Nat) :=
  s.regs.filterMap (fun e =>
    let g := grainOfUnit (keyUnit e.1)
    if keyScope e.1 == 4 && keyBlk e.1 == 2 && 0x40 ≤ keyOff e.1 && keyOff e.1 < 0x80 && watchFires e.2 shs && grainOwner s g == some p
    then some (g, (keyOff e.1 - 0x40) / 4) else none)

/-- The lock words of a partition whose owners lie in the sheaves of a notice are abandoned (R255). -/
def abandonLocks (s : State) (p : Nat) (shs : List Nat) : State :=
  (s.sheaves.filter (fun e => sheafOwner s e.1 == some p && !e.2.locks.isEmpty)).foldl (fun s e =>
    let locks := e.2.locks.map (fun l =>
      if l.2.st == .held && shs.contains (sheafOfGrain (grainOfCoord l.2.owner.toNat)) then (l.1, { l.2 with st := LockSt.abandoned }) else l)
    setSheaf s e.1 { e.2 with locks := locks }) s

/-- The sheaves of a notice that its partition holds, or held when the notice was sent: a watch of any other never fires (R242,
R265). -/
def noticed (s : State) (p : Nat) (shs : List Nat) : List Nat :=
  if s.notices.contains (p, shs) then shs else shs.filter (fun sh => sheafOwner s sh == some p)

/-- ABANDON_NOTICE: a notice reaches the partition's grains, lock units and Flue entries (R242, R255, R309). One that names no
sheaf of the partition reaches nothing. -/
def execAbandonNotice (part : PartId) (sheaves : List SheafId) (s : State) : Out :=
  .next (
    let named := sheaves.map (fun sh => sh.val)
    let shs := noticed s part named
    if shs.isEmpty then s
    else
    let s1 := { s with notices := s.notices.erase (part.val, named) }
    let s2 := (watchers s1 part shs).foldl (fun s e => tallyErr s e.1 e.2) s1
    flueAbandon (abandonLocks s2 part shs) shs)

/-! ### Ergot -/

/-- ERGOT_POST_APPLY (R168). -/
def execErgotPostApply (part : PartId) (s : State) : Out := .next (applyPost s part)

/-- ERG_SR_RESEED: a write of GO asks for the reseed at the next beat (R152, R178). -/
def execErgSrReseed (ini : Initiator) (part : PartId) (value : Word) (s : State) : Out :=
  .next (regCommand ini (rErg part 8) s (fun s => if bit value 0 then { s with reseeds := setAdd s.reseeds part } else s))

/-- The sheaves of a partition. -/
def partSheaves (s : State) (p : Nat) : List Nat := if prtState s p = 0 then [] else curSheaves s p
/-- The grains of a partition. -/
def partGrains (s : State) (p : Nat) : List Nat := (partSheaves s p).flatMap (fun sh => (List.range 256).map (fun i => 256 * sh + i))

/-- ERG_RESEED_APPLY at a beat (R152, R358): the generators of a partition's grains and Winnows. -/
def reseedBeat (s : State) : State :=
  s.reseeds.foldl (fun s p =>
    let s1 := (partGrains s p).foldl srSeed s
    (partSheaves s1 p).foldl (fun s sh =>
      setWnw s sh { wnw s sh with lfsr := some (winSeeds (reg s (rErg p 4)) sh) }) s1) { s with reseeds := [] }

end Sys2Proof.Machine
end

