-- ==== Sys2Proof/Machine/Fences.lean ====
section
/-!
DEFINITION. Failed units, retired fields, and the reset of each domain (R724 to R735): what is fenced and told at its start,
and what is reinitialised when it has drained.
-/
namespace Sys2Proof.Machine

/-- A register of the IMG_ block (R567). -/
def rImg (off : Nat) (sel : Nat := 0) : RegLoc := rModule 0xD off sel
/-- A register of the module's FLT_ block (R751). -/
def rFlt (off : Nat) (sel : Nat := 0) : RegLoc := rModule 0x16 off sel

def setFlt (s : State) (x : Faults) : State := { s with flt := x }
def setStore (s : State) (x : Store) : State := { s with store := x }
def setImg (s : State) (x : ImgStore) : State := { s with img := x }

/-! ### Records, fences and notices -/

/-- The Damper's record of a local port (R735). -/
def setRecord (v : PortRec) (s : State) (k : Nat) : State := { s with record := mapSet PortRec.fenced s.record k v }
/-- The grains of a sheaf. -/
def sheafGrains (sh : Nat) : List Nat := (List.range 256).map (fun i => 256 * sh + i)
/-- The Damper's record of a sheaf's ports. -/
def recordSheaf (v : PortRec) (s : State) (sh : Nat) : State :=
  (sheafGrains sh).foldl (fun s g => setRecord v s (portKey (.grain g))) (setRecord v s (portKey (.sheaf sh)))
/-- Every local port of a sheaf enters drain mode (R312, R782). -/
def fenceSheaf (s : State) (sh : Nat) : State := (sheafGrains sh).foldl (fun s g => setFence s g true) s
/-- A local port leaves drain mode for a partition (R545, R732). -/
def openPort (p : Nat) (s : State) (g : Nat) : State := setRegF (setFence s g false) (rGrain g 3 0) 5 0 p
/-- Every local port of a sheaf leaves drain mode, recorded RUNNING. -/
def openSheaf (p : Nat) (s : State) (sh : Nat) : State := recordSheaf .running ((sheafGrains sh).foldl (openPort p) s) sh
/-- A unit stops issue (R732). -/
def stopUnit (s : State) (u : Issuer) : State :=
  match (core s u).state with
  | .halted | .faulted => s
  | _ => leave (lockForget (setCore s u { core s u with state := .halted, wait := .none }) u) u
/-- The units of a sheaf stop issue. -/
def stopSheaf (s : State) (sh : Nat) : State :=
  stopUnit ((s.grains.filter (fun e => e.1 / 256 == sh)).foldl (fun s e => stopUnit s (ug e.1)) s) (ub sh)
/-- Abandon notices for sheaves, one to each partition concerned (R242). -/
def noticeAll (s : State) (shs : List Nat) : State :=
  ((shs.filterMap (sheafOwner s)).foldl setAdd []).foldl (fun s p => sendNotice s p (shs.filter (fun sh => sheafOwner s sh == some p))) s
/-- Units of sheaves stop and their ports are fenced, with the notices (R732 steps 1 to 3). -/
def closeSheaves (s : State) (shs : List Nat) : State :=
  noticeAll (shs.foldl (fun s sh => stopSheaf (fenceSheaf s sh) sh) s) shs

/-! ### Reserves (R549, R551) -/

/-- True for a failed sheaf (R725). -/
def sheafFailed (s : State) (sh : Nat) : Bool := s.store.failed.any (fun e => e.1 == sh) || retired s (fieldOfSheaf sh)
/-- A sheaf is recorded FAILED as a reserve, or has failed (R549, R726). -/
def reserveBad (s : State) (sh : Nat) : Bool := s.store.badRes.contains sh || sheafFailed s sh
/-- A reserve sheaf is FREE (R549). -/
def reserveFree (s : State) (r : Reserve) : Bool := r.adopter.isNone && !reserveBad s r.sh
/-- The FREE reserves of a half. -/
def freeReserves (s : State) (h : Nat) : List Nat :=
  (s.img.reserves.filter (fun e => reserveFree s e.2 && halfOfSheaf e.2.sh == h)).map (fun e => e.2.sh)
/-- RESERVE_LOW when the FREE reserves of a half have fallen below the warning level by a change (R24, R551). -/
def reserveCheck (s0 s : State) : State :=
  let w := regF s (rImg 0x24) 7 0
  [0, 1].foldl (fun s h =>
    let n := (freeReserves s h).length
    if w ≤ (freeReserves s0 h).length ∧ n < w then raise s .reserveLow none 0 0 [(1, h), (16, n)] else s) s
/-- Reserves a partition has adopted (R568). -/
def adopted (s : State) (p : Nat) : Nat := regF s (rPrt p 0x28) 7 0

/-! ### Failed sheaves and retired fields -/

/-- The failed-sheaf list of a half (R727). -/
def failedList (s : State) (h : Nat) : List (Nat × Nat) := s.store.failed.filter (fun e => halfOfSheaf e.1 == h)

/-- UNIT_FAILED to the owner and the partition whose sheaf it was (R726, R728); the sheaf field is all ones for a whole field. -/
def sayFailed (s : State) (f sheaf cause : Nat) (p : Option Nat) (scope unit : Nat) (none_ : Bool) : State :=
  let d := [(1, f / 80), (7, f % 80), (14, sheaf), (3, cause), (1, bnat none_)]
  let s1 := raise s .unitFailed none scope unit d
  match p with
  | some p => raise s1 .unitFailed (some p) scope unit d
  | none => s1

/-- True when AUTO_RESCUE cannot move a sheaf of a partition (R728). -/
def noReserve (s : State) (p sh : Nat) : Bool :=
  (freeReserves s (halfOfSheaf sh)).isEmpty || adopted s p ≥ regF s (rPrt p 0x28) 15 8

/-- What R726 does to a sheaf that fails, but for its entry on the list; causes 1 SELF_TEST, 2 CHECK, 3 UE_LIMIT, 4 VERB,
5 FIELD. -/
def failUnits (s : State) (sh cause : Nat) : State :=
  let p := ownerOf s sh
  let s1 := noticeAll (fenceSheaf s sh) [sh]
  let s2 := recordSheaf .failed (setReg s1 (rSheaf sh 1 0x18) (word 0xAAAAAAAA)) sh
  let auto := p.isSome && regBit s2 (rFlt 0) 31
  let none_ := auto && noReserve s2 (p.getD 0) sh
  let s3 := sayFailed s2 (fieldOfSheaf sh) (sheafCode sh) cause p 3 (sheafUnit sh) none_
  if auto && !none_ then setFlt s3 { s3.flt with rescues := setAdd s3.flt.rescues sh } else s3

/-- FIELD_RETIRED (R746). -/
def sayRetired (s : State) (f cause : Nat) : State :=
  raise s .fieldRetired none 2 (fieldUnit f) [(1, f / 80), (7, f % 80), (6, cause)]

/-- A field's map record becomes RETIRED, and its sheaves leave the list (R722, R727). -/
def retireRecord (s : State) (f cause : Nat) : State :=
  setStore s { s.store with
    fields := mapSet {} s.store.fields f { fieldRec s f with status := 2, cause := cause, rows := [], time := s.time }
    failed := s.store.failed.filter (fun e => fieldOfSheaf e.1 != f) }

/-- A field is retired with its sheaves: those not failed before fail without an entry (R727), each with its cause. -/
def retireField (s : State) (f cause : Nat) (why : Nat → Nat) : State :=
  let shs := ((List.range 36).map (fun k => 36 * f + k)).filter (fun sh => !sheafFailed s sh)
  reserveCheck s (sayRetired (shs.foldl (fun s sh => failUnits s sh (why sh)) (retireRecord s f cause)) f cause)

/-- A sheaf fails (R725, R726); where its half's list of 128 is full its field is retired instead (R727). -/
def failSheaf (cause : Nat) (s : State) (sh : Nat) : State :=
  if sheafFailed s sh then s
  else if (failedList s (halfOfSheaf sh)).length ≥ 128 then retireField s (fieldOfSheaf sh) 7 (fun x => if x = sh then cause else 5)
  else reserveCheck s (failUnits (setStore s { s.store with failed := s.store.failed ++ [(sh, cause)] }) sh cause)

/-- Every sheaf of a field fails (R679, R725). -/
def failField (s : State) (f : Nat) : State := ((List.range 36).map (fun k => 36 * f + k)).foldl (failSheaf 5) s

/-! ### What a reset reinitialises (R730) -/

/-- A local port's reset epoch increments (R733). -/
def bumpEpoch (s : State) (p : Port) : State := { s with epochs := mapMod 0 s.epochs (portKey p) (fun n => (n + 1) % 2 ^ 32) }

/-- An ear's power takes its reset state ON; a memory that had lost its power is unpredictable (R109, R730, log 49). -/
def earReset (s : State) (e : Nat) : State :=
  let x := ear s e
  if x = {} then s else setEar (if x.lost = .off then (earGrains e).foldl grainLose s else s) e {}

/-- A sheaf takes its reset values (R256, R510, R730); its memories are kept, or lost. -/
def sheafReset (lose : Bool) (s0 : State) (sh : Nat) : State :=
  let s := (List.range 16).foldl (fun s k => earReset s (16 * sh + k)) s0
  let s1 := (sheafGrains sh).foldl (fun s g => if lose then grainLose (grainReset s g) g else grainReset s g) s
  let x := sheaf s1 sh
  let (d, s2) := draw s1
  let s3 := { s2 with reqs := s2.reqs.filter (fun q => reqPort q.who != .sheaf sh) }
  let seeds := some (winSeeds (reg s3 (rErg (sheafPart s3 sh) 4)) sh)
  let y : Sheaf := { core := { cycle0 := s3.cycle }, wnw := { lfsr := seeds }
                     bmem := if lose then memLose d else memPut x.bmem 0x3FFC0 0 16
                     bpoison := if lose then [] else x.bpoison.filter (fun w => w < 0x3FFC0 / 8), rot := if lose then memLose (d + 1) else x.rot }
  let s4 := setSheaf (if lose then { s3 with fresh := s3.fresh + 1 } else s3) sh y
  resetRegs s4 (fun k => keyScope k == 3 && keyUnit k == sheafUnit sh)

/-- The loader's descriptors that a test picks end with the reset; their verbs complete with RESET (R450, R730). -/
def dropLoads (s : State) (f : Nat) (pick : LoadRun → Bool) : State :=
  let r := region s f
  let gone := (r.runs ++ r.queue).filter pick
  let s1 := setRegion s f { r with runs := r.runs.filter (fun q => !pick q), queue := r.queue.filter (fun q => !pick q) }
  let s2 := { s1 with reqs := s1.reqs.filter (fun q => match q.who with
    | .loader g id _ _ _ => !(g == f && gone.any (fun x => x.id == id))
    | _ => true) }
  gone.foldl (fun s q => match q.verb, q.img with
    | some id, _ => verbEnd s id 0x19
    | none, some k => imageLoadFail s k 0
    | none, none => s) s2

/-- A field's GRY_ block and loader are reset (R730). -/
def loaderReset (s : State) (f : Nat) : State :=
  let s1 := dropLoads s f (fun _ => true)
  let s2 := setRegion s1 f { region s1 f with turn := 0, taken := Vector.replicate 8 0, ended := [] }
  resetRegs s2 (fun k => keyScope k == 2 && keyUnit k == fieldUnit f)

/-- The load rings of sheaves a test picks are reset (R730). -/
def ringsReset (s : State) (f : Nat) (pick : Nat → Bool) : State :=
  (List.range 8).foldl (fun s r =>
    if pick (36 * f + regF s (rGryF f 0x48 r) 5 0) then
      let x := region s f
      let s1 := setRegion s f { x with taken := x.taken.set! r 0, ended := x.ended.filter (fun e => e.1 != r) }
      resetRegs s1 (fun k => [0x44, 0x48, 0x4C, 0x50, 0x54].any (fun o => k == regKey (rGryF f o r)))
    else s) s

/-- The partition-scope registers a partition reset resets: all, HST_ and the count of the partition's own resets with them, but the
fields that the image installed (R428, R568, R730, R753, logs 82 and 83). -/
def partKey (p k : Nat) : Bool :=
  keyScope k == 6 && keyUnit k == p &&
    !(keyBlk k == 0xE && [0, 4, 8, 0x18, 0x28].contains (keyOff k)) && !(keyBlk k == 7 && keyOff k == 4)

/-- The rings of a function as they stand once its HST_ registers are reset: no doorbell tail, first pass; no verb and no completion is
discarded (R615, log 83). -/
def ringsFresh (s : State) (fn : Nat) : State :=
  { s with
    host := { s.host with
      tails := mapDrop (fun k => k / 8 == fn) s.host.tails
      passes := mapDrop (fun k => k / 8 == fn) s.host.passes }
    evq := mapMod {} s.evq fn (fun q => { q with pass := false }) }

/-- What a partition's reset reinitialises (R316, R384, R461, R730): its sheaves, its rings, its tags and its blocks; the reset is then
counted (R753, log 82). Ergot posts made and not yet applied stay listed, and are applied to the table after its reset (R168, log 112). -/
def partReset (s : State) (p : Nat) : State :=
  let shs := curSheaves s p
  let s1 := (shs.filter (fun sh => !sheafFailed s sh)).foldl (sheafReset true) s
  let fs := (shs.map fieldOfSheaf).foldl setAdd []
  let s2 := fs.foldl (fun s f => dropLoads (ringsReset s f (fun sh => shs.contains sh)) f (fun q => q.part == p)) s1
  let tag := fun (e : Nat × Word) => keyScope e.1 == 4 && keyBlk e.1 == 3 && 0x100 ≤ keyOff e.1 && bits e.2 27 22 == p
  let s3 := { s2 with regs := s2.regs.filter (fun e => !tag e) }
  let s4 := ringsFresh (resetRegs s3 (partKey p)) p
  incReg s4 (rPart p 0x17 0)

/-- Every epoch of a sheaf's ports increments (R732 step 5). -/
def bumpSheaf (s : State) (sh : Nat) : State :=
  bumpEpoch ((sheafGrains sh).foldl (fun s g => bumpEpoch s (.grain g)) s) (.sheaf sh)

/-- The half of a register's unit, for grain, sheaf, field and half scope. -/
def keyInHalf (h k : Nat) : Bool := 1 ≤ keyScope k && keyScope k ≤ 4 && keyUnit k / 2 ^ 21 == h
/-- The half of a local port by its number (R30). -/
def portHalf (k : Nat) : Nat :=
  if k < 1474560 then halfOfGrain k
  else if k < 1480320 then halfOfSheaf (k - 1474560)
  else if k < 1480352 then dieHalf (k - 1480320)
  else (k - 1480352) / 80

/-- What a half's reset reinitialises once it has drained (R316, R730, R733): packets still in it are lost (R317), its units and
routers and the power of its fields take their reset values (R690), memories become unpredictable, epochs are 0. -/
def halfReset (s : State) (h : Nat) : State :=
  let s1 := (List.range 80).foldl (fun s f => loaderReset s (80 * h + f)) s
  let s2 := suspendCommits s1 (placedIn h)
  let x := halfSt s2 h
  let s3 := { s2 with
    mesh := s2.mesh.filter (fun f => halfOfGrain f.at_ != h)
    flueWait := s2.flueWait.filter (fun f => halfOfGrain f.at_ != h)
    flueNear := s2.flueNear.filter (fun f => halfOfGrain f.at_ == h)
    pwr := { s2.pwr with fields := mapDrop (fun f => f / 80 == h) s2.pwr.fields }
    merges := mapDrop (fun k => halfOfGrain (k / 64) == h) s2.merges
    reqs := s2.reqs.filter (fun q => halfOfGrain q.at_ != h)
    grains := mapDrop (fun g => halfOfGrain g == h) s2.grains
    sheaves := mapDrop (fun sh => halfOfSheaf sh == h) s2.sheaves
    ears := mapDrop (fun e => halfOfGrain (16 * e) == h) s2.ears
    epochs := mapDrop (fun k => portHalf k == h) s2.epochs
    record := mapDrop (fun k => portHalf k == h) s2.record
    halves := mapSet {} s2.halves h { x with kindled := false, draining := false, inReset := true, keySlots := [], draw := s2.fresh, since := s2.cycle }
    fresh := s2.fresh + 3000000 }
  resetRegs s3 (fun k => keyInHalf h k && !(keyScope k == 1 && keyBlk k == 0x18 && keyOff k == 4))

/-! ### The image operation in progress -/

/-- An operation on a partition ends with a status (R543, R562, R567). -/
def endOp (s : State) (status : Nat) (data : Nat := 0) : State :=
  match s.img.op with
  | none => s
  | some o =>
    let s1 := setRegF (setRegF (setImg s { s.img with op := none }) (rImg 0) 23 20 0) (rImg 0) 15 8 status
    let s2 := match o.verb with
      | some v => verbEnd s1 v status data
      | none => s1
    if o.move && status != 0 then
      let d := [(6, o.part), (14, sheafCode o.image), (14, sheafCode o.dst), (8, status)]
      raise (raise s2 .relocateFailed none 6 o.part d) .relocateFailed (some o.part) 6 o.part d
    else s2

/-- A partition reset ends the operation on it with RESET (R566); a patch whose every section was written is kept for R547. -/
def resetOp (s : State) (p : Nat) : State :=
  match s.img.op with
  | some o =>
    if o.part ≠ p then s
    else
      let s1 := match o.slot with
        | some k =>
          if o.wrote then
            match mapFind s.img.slots k with
            | some (_, im) => setImg s { s.img with patches := s.img.patches ++ [im], slots := mapErase s.img.slots k }
            | none => s
          else s
        | none => s
      endOp s1 0x19
  | none => s

/-! ### Starting a reset (R731, R732) -/

/-- The sheaves and single grains a domain covers. -/
def domSheaves (s : State) : Domain → List Nat
  | .grain _ => []
  | .sheaf sh => [sh]
  | .field f => (List.range 36).map (fun k => 36 * f + k)
  | .part p => curSheaves s p
  | .half h => (List.range 2880).map (fun k => 2880 * h + k)

/-- A reset under way is listed. -/
def addReset (s : State) (dom : Domain) (verbs : List Nat) (retest : Bool := false) : State :=
  setFlt { s with nextTag := s.nextTag + 1 }
    { s.flt with resets := s.flt.resets ++ [{ id := s.nextTag, dom := dom, verbs := verbs, at_ := s.cycle, retest := retest }] }
/-- True while a domain is being reset. -/
def resetting (s : State) (dom : Domain) : Bool := s.flt.resets.any (fun r => r.dom == dom)

/-- A reset of a grain, sheaf or field begins (R732 steps 1 to 3). -/
def beginReset (s : State) (dom : Domain) (verbs : List Nat) : State :=
  match dom with
  | .grain g =>
    let s1 := setRecord .resetting s (portKey (.grain g))
    addReset (noticeAll (stopUnit (setFence s1 g true) (ug g)) [sheafOfGrain g]) dom verbs
  | _ =>
    let shs := domSheaves s dom
    addReset (closeSheaves (shs.foldl (recordSheaf .resetting) s) shs) dom verbs

/-- A partition's reset begins (R384, R461, R566, R732). -/
def beginPart (s : State) (p : Nat) (verbs : List Nat) : State :=
  let s1 := setRegF (resetOp s p) (rPrt p 8) 3 0 6
  let s2 := hopReset (suspendCommits s1 (fun m => nsPart s1 m.nsid == some p)) p
  let s3 := setImg s2 { s2.img with starts := s2.img.starts.filter (fun t => t.part != p) }
  let shs := (curSheaves s3 p).filter (fun sh => !sheafFailed s3 sh)
  addReset (closeSheaves (shs.foldl (recordSheaf .resetting) s3) shs) (.part p) verbs

/-- The local ports of a half that are not in drain mode. -/
def openPorts (s : State) (h : Nat) : List Nat :=
  s.regs.filterMap (fun e =>
    if keyScope e.1 == 4 && keyBlk e.1 == 3 && keyOff e.1 == 0 && keyInHalf h e.1 && !bit e.2 31 then some (grainOfUnit (keyUnit e.1))
    else none)

/-- The crib requests that port dies of a half have accepted and not answered receive GONE (R314, R782). -/
def dieGone (s : State) (h : Nat) : State :=
  (s.cribTx.filter (fun x => halfOfGrain x.at_ == h)).foldl (fun s x => sendGone s x.at_ (.die ((dieAt x.at_).getD 0)) x.pkt)
    { s with cribTx := s.cribTx.filter (fun x => halfOfGrain x.at_ != h) }

/-- A half's reset begins: its partitions reset, every local port of it in drain mode, and what its port dies owe and what waits
to cross to it answered GONE (R314, R317, R730, R732). -/
def beginHalf (s : State) (h : Nat) (verbs : List Nat) (retest : Bool) : State :=
  let ps := (List.range 64).filter (fun p => prtState s p != 0 && partInHalf s p h && !resetting s (.part p))
  let s1 := ps.foldl (fun s p => beginPart s p []) s
  let s2 := dieGone ((openPorts s1 h).foldl (fun s g => setFence s g true) s1) h
  let x := halfSt s2 h
  addReset (nearGone { s2 with halves := mapSet {} s2.halves h { x with draining := true } } h) (.half h) verbs retest

/-- A half is lost (R734): rail named by the fault. -/
def loseHalf (s : State) (h rail : Nat) : State :=
  let ps := (List.range 64).filter (fun p => prtState s p != 0 && partInHalf s p h)
  let s1 := ps.foldl (fun s p => setRegF (if resetting s (.part p) then s else beginPart s p []) (rPrt p 8) 3 0 5) s
  let s2 := dieGone ((openPorts s1 h).foldl (fun s g => setFence s g true) s1) h
  let x := halfSt s2 h
  let s3 := nearGone { s2 with halves := mapSet {} s2.halves h { x with lost := true, kindled := false } } h
  let s4 := setFlt s3 { s3.flt with halfHeld := ps.foldl setAdd s3.flt.halfHeld }
  raise s4 .halfLost none 1 (halfUnit h) [(1, h), (4, rail), (64, ps.foldl (fun m p => m + 2 ^ p) 0)]

end Sys2Proof.Machine
end

