-- ==== Sys2Proof/Machine/Cadence.lean ====
section
/-!
DEFINITION. Cadence (R622 to R642): references, cadence words, steps and beat lengths; and calibration (R643 to R653).
-/
namespace Sys2Proof.Machine

/-! ### References -/

/-- REF_1PPS is measured against the time the module holds: the edge is the next whole second after it (R625). -/
def ppsOffset (s : State) : Int := ((s.time / 1000000000 + 1) * 1000000000 : Nat) - (s.time : Int)

/-- PPS_EDGE: a rising edge, with the interval since the last as a locked REF_10M measures it, in ns (R625, R626). -/
def execPpsEdge (interval : Nat) (s : State) : Out :=
  .next (
    let good := regBit s (rCad 4) 8 && decide (999999000 ≤ interval) && decide (interval ≤ 1000001000)
    let c := s.cad
    let s1 := setCad (setRegF s (rCad 4) 9 9 1)
      { c with ppsGood := if good then c.ppsGood + 1 else 0, ppsBad := if good then 0 else c.ppsBad + 1 }
    let s2 := if s1.cad.ppsBad ≥ 2 then unqualify s1 1
      else if s1.cad.ppsGood ≥ 2 then qualify s1 1 (ppsOffset s) else s1
    measured s2 1 (ppsOffset s))

/-- REF_10M_LOCK (R627). -/
def execRef10mLock (s : State) : Out := .next (setRegF s (rCad 4) 8 8 1)

/-! ### Calibration runs end -/

/-- Targets of a run (R644, R653). -/
def calTargets (r : CalRun) : Nat := nbits r.op 4 0

/-- A run ends without a commit (R647, R648): its shadow table is discarded, its verb completes, and CAL_FAILED says so unless
CAL_ABORT ended it. -/
def calFail (s : State) (r : CalRun) (status target unit a b : Nat) : State :=
  let s1 := setRegF (setRegF (setCal s { s.cal with run := none }) (rCal 0) 3 0 0) (rCal 0) 23 16 status
  let data := packFields [(32, r.num), (32, 0), (4, target), (12, unit), (16, a), (16, b)]
  let s2 := verbEnd s1 r.verb status data
  let poor := fun (x : Nat) => if status = 0x44 then x else 0
  if status = 0x48 then s2 else raise s2 .calFailed none 0 0 [(32, r.num), (8, status), (3, poor target), (9, poor unit), (16, poor a)]

/-- A run whose inputs fail ends (R647): checks 1 and 2. -/
def calInputs (s : State) (r : CalRun) (refv : Int) : Option Nat :=
  let needV := calTargets r &&& 0b01110 != 0
  let need10 := calTargets r &&& 0b10001 != 0
  if needV && decide (refv.natAbs > 2500) then some 0x40
  else if need10 && !regBit s (rCad 4) 8 then some 0x41
  else none

/-- REF_10M_UNLOCK (R626, R627, R647, R655): PPS is lost with it, and a run that needs it ends. -/
def execRef10mUnlock (err : BitVec 16) (s : State) : Out :=
  .next (
    if !regBit s (rCad 4) 8 then s
    else
      let s1 := raise (setRegF s (rCad 4) 8 8 0) .ref10mLost none 0 0 [(16, err.toNat)]
      let s2 := unqualify (setCad s1 { s1.cad with ppsGood := 0 }) 1
      match s2.cal.run with
      | some r => if !r.left.isEmpty && calTargets r &&& 0b10001 != 0 then calFail s2 r 0x41 0 0 0 0 else s2
      | none => s2)

/-- PTP_MESSAGE (R624, R626): a selected master, with Sync and Delay_Resp for 8 s, qualifies. -/
def execPtpMessage (msg : PtpMsg) (s : State) : Out :=
  .next (
    let c := s.cad
    match msg with
    | .master on =>
      let s1 := setRegF s (rCad 4) 10 10 (bnat on)
      if on then s1 else unqualify (setCad s1 { c with ptpSince := none, ptpResp := false }) 2
    | .delayResp => setCad s { c with ptpResp := true }
    | .sync off =>
      let t0 := c.ptpSince.getD s.time
      let s1 := setCad s { c with ptpSince := some t0 }
      let s2 := if regBit s1 (rCad 4) 10 && c.ptpResp && s1.time ≥ t0 + 8000000000 then qualify s1 2 off else s1
      measured s2 2 off)

/-- SOURCE_TIMEOUT: the inputs of a source stay absent past its limit (R626). -/
def execSourceTimeout (src : Fin 4) (s : State) : Out :=
  .next (
    let c := s.cad
    let s1 := match src.val with
      | 1 => setCad (setRegF s (rCad 4) 9 9 0) { c with ppsGood := 0, ppsBad := 0 }
      | 2 => setCad s { c with ptpSince := none, ptpResp := false }
      | _ => setCad s { c with wordSince := none }
    unqualify s1 src)

/-- True once a length of cadence time, in ns, has passed since a moment noted. -/
def heldFor (s : State) (t : Option Nat) (ns : Nat) : Bool := t.any (fun t => t + ns ≤ s.time)

/-- CADENCE_LOCK_TIMER: the offset has stayed within LOCK_NS for 10 s, or beyond four times it for 1 s (R629). -/
def execCadenceLockTimer (enter : Bool) (s : State) : Out :=
  .next (
    if enter then
      if cadState s = 1 ∧ heldFor s s.cad.nearAt 10000000000 = true then
        raise (setCadState s 2) .cadenceLocked none 0 0 [(4, cadInUse s), (64, int64 (reg s (rCad 0x1C)).toInt)]
      else s
    else if cadState s = 2 ∧ heldFor s s.cad.farAt 1000000000 = true then setCadState s 1 else s)

/-- HOLDOVER_EXPIRY (R629). -/
def execHoldoverExpiry (s : State) : Out :=
  .next (
    let n := regF s (rCad 0) 15 0
    if cadState s ≠ 3 ∨ s.time < s.cad.holdFrom + n * 1000000000 then s
    else raise (setCadState (setReg s (rCad 0x24) (word n)) 4) .cadenceFreerun none 0 0 [(16, n)])

/-- CADENCE_REVERT (R630): back to the primary, once it has been qualified for CAD_REVERT.SECONDS. -/
def execCadenceRevert (s : State) : Out :=
  .next (
    let p := cadPrimary s
    if (cadState s = 1 ∨ cadState s = 2) ∧ cadInUse s ≠ p ∧ cadNamed s p ∧ qualified s p ∧
        s.cad.qualAt.getD p 0 + regF s (rCad 0x34) 15 0 * 1000000000 ≤ s.time then switchSource s p else s)

/-! ### Cadence words -/

/-- CADENCE_WORD_TIMER: the upstream end of a link sends a word while LOCKED or HOLDOVER (R640). -/
def execCadenceWordTimer (port : DieId) (link : Fin 4) (s : State) : Out :=
  .next (
    if !cadUp s port link || linkCrib s port link || !(cadState s == 2 || cadState s == 3) then s
    else
      let hops := if s.cad.last = 3 then s.cad.hops + 1 else 0
      ctlSend s port link (.cadence ⟨BitVec.ofNat 64 s.time, cadState s, hops, regF s (rCad 0x18) 13 0⟩))

/-- CADENCE_WORD (R626, R640, R641): answered by a delay reply; a valid word on the chosen link disciplines the module. The time
it gives is the word's with the link delay this end has measured (log 38). -/
def execCadenceWord (port : DieId) (link : Fin 4) (w : CadWord) (s : State) : Out :=
  .next (
    if !linkUp s port link then s
    else
      let s1 := ctlSend s port link .delay
      let valid := (w.state == 2 || w.state == 3) && w.hops ≤ 15
      if cadLink s1 ≠ (port.val, link.val) || !valid then s1
      else
        let off : Int := (w.time.toNat + (lk s1 port link).delay : Nat) - (s1.time : Int)
        let t0 := s1.cad.wordSince.getD s1.time
        let s2 := setCad s1 { s1.cad with wordSince := some t0, hops := w.hops }
        let s3 := setRegF s2 (rCad 4) 11 11 (bnat (w.state == 3))
        let s4 := if w.beta = regF s3 (rCad 0x18) 13 0 then s3 else orReg s3 (rCad 4) (2 ^ 13)
        let s5 := if !cadUp s4 port link && s4.time ≥ t0 + 1000000000 then qualify s4 3 off else s4
        measured s5 3 off)

/-- CADENCE_DELAY_REPLY: the link delay is half the round trip (R640). -/
def execCadenceDelayReply (port : DieId) (link : Fin 4) (trip : Nat) (s : State) : Out :=
  .next (if cadUp s port link then setLk s port link { lk s port link with delay := trip / 2 } else s)

/-! ### Steps and beat lengths -/

/-- CAD_STEP (R653). -/
def execCadStep (fn : FnId) (ring : Fin 8) (s : State) : Out :=
  .next (ownerVerb s fn ring 0x70 0x26 (fun v s =>
    if s.cad.step.isSome || s.cad.first.isSome then verbDone s v 0x2F
    else if !bit v.op0 64 && (List.range 64).any (fun p => prtState s p == 2) then verbDone s v 0x04
    else setCad s { s.cad with step := some { delta := sgn 64 (bits v.op0 63 0), verb := v.id } }))

/-- CAD_BEAT (R653). -/
def execCadBeat (fn : FnId) (ring : Fin 8) (s : State) : Out :=
  .next (ownerVerb s fn ring 0x71 0x26 (fun v s =>
    let us := bits v.op0 13 0
    if s.cad.beta.isSome then verbDone s v 0x2F
    else if us < 50 ∨ us > 10000 then verbDone s v 0x02
    else if regF s (rImg 0) 3 0 ≠ 0 then verbDone s v 0x04
    else setCad s { s.cad with beta := some (us, v.id) }))

/-- A boundary's grid point is reached (R634 to R636, R781): the beat number, the steps and the change of β that are pending,
and the next boundary's grid point. Where a CAD_STEP and the first lock meet, cadence time ends at the source's (log 81). -/
def cadBoundary (s : State) : State :=
  let t := s.cad.next
  let n := s.beat + 1
  let step := s.cad.step
  let bet := s.cad.beta
  let by_ := match step with
    | some d => d.delta
    | none => 0
  let t1 := int64 ((t : Int) + s.cad.first.getD by_)
  let old := regF s (rCad 0x18) 13 0
  let us := (bet.map Prod.fst).getD old
  let b := 1000 * us
  let next := if step.isNone ∧ s.cad.first.isNone ∧ bet.isNone then t + b else (t1 + (b + 1) / 2 + b - 1) / b * b
  let s1 := { s with time := t1, beat := n % 2 ^ 64 }
  let s2 := setCad (setRegF s1 (rCad 0x18) 13 0 us) { s1.cad with next := next, step := none, first := none, beta := none, gap := false }
  let say := fun (s : State) (d : Int) (why : Nat) => raise s .cadenceStep none 0 0 [(64, int64 d), (4, why), (32, n)]
  let s3 := match step with
    | none => s2
    | some d => verbEnd (say s2 d.delta 2) d.verb 0 n
  let s4 := match s.cad.first with
    | none => s3
    | some off => setRegF (takeSource (say s3 (off - by_) 1) (cadInUse s3)) (rCad 4) 31 31 1
  match bet with
  | none => s4
  | some (_, v) => verbEnd (raise s4 .beatChanged none 0 0 [(14, old), (14, us), (32, n)]) v 0 n

/-- GAP_START (R639). -/
def execGapStart (s : State) : Out :=
  .next (
    let e := regF s (rCad 0x2C) 31 24
    if e ≠ 0 ∧ s.beat % e = 0 then setCad s { s.cad with gap := true } else s)

/-! ### Thermal channels (R692 to R700) -/

/-- A thermal channel. -/
def chan (s : State) (c : Nat) : Channel := mapGet {} s.thm.chans c
/-- The field a channel governs (R699): field and bin diodes. -/
def govern (c : Nat) : Option Nat := if c < 160 then some c else if c < 176 then some (binField (c - 160)) else none
/-- The bin over a field. -/
def binOver (f : Nat) : Option Nat := (List.range 16).find? (fun b => binField b == f)

/-- The thermal duty delivered to a field (R700). -/
def thermalDuty (s : State) (f : Nat) : Nat :=
  let x := chan s f
  let b := match binOver f with | some b => chan s (160 + b) | none => {}
  let clamp := x.clamp || b.clamp || s.thm.stop || (mapGet {} s.flt.inputs 3).inForce
  min (min x.duty b.duty) (min (if clamp then 64 else 256) (if x.fault || b.fault then 128 else 256))

/-- THM_CH.INTERVAL (R694). -/
def chanInterval (s : State) (c : Nat) : Nat :=
  if c ≥ 192 then (if s.thm.present then 0 else 1)
  else match govern c with
    | none => 0
    | some f => if thermalDuty s f < 256 || (chan s c).window then 2 else if (chan s c).near.on then 1 else 0

/-! ### Calibration -/

/-- Lanes in use on a link (R619). -/
def linkLanes (s : State) (p l : Nat) : Nat := regF s (rDrt p 8 l) 27 23

/-- Units of a target in a run's scope (R644, R653). -/
def calUnits (s : State) (op t : Nat) : List Nat :=
  let all := nbits op 5 5 == 1
  let h := nbits op 9 9
  let f := nbits op 16 10
  let unit := 80 * h + f
  match t with
  | 0 => ((List.range 96).filter (fun k => (all || k / 16 == nbits op 8 6) && linkUp s (k / 16) (laneLink s (k / 16) (k % 16))))
  | 1 | 3 => if all then List.range 160 else [unit]
  | 2 => if all then List.range 194 else [unit]
  | _ =>
    if all then List.range 284
    else
      let r := f / 10
      let c := f % 10
      (if c < 9 then [142 * h + 9 * r + c] else []) ++ (if r < 7 then [142 * h + 72 + 10 * r + c] else [])

/-- The scope names something absent, retired or fenced (R646). -/
def calAbsent (s : State) (op : Nat) : Bool :=
  let f := 80 * nbits op 9 9 + nbits op 16 10
  nbits op 5 5 == 0 &&
    ((nbits op 0 0 == 1 && nbits op 8 6 ≥ 6) ||
     (nbits op 4 1 != 0 && (nbits op 16 10 ≥ 80 || retired s f || (mapGet {} s.pwr.fields f).fenced || (List.range 36).all (fun k => sheafFailed s (36 * f + k)) ||
       (halfSt s (nbits op 9 9)).lost)))

/-- CAL_RUN (R646, R647), with REF_V − 1.25 V as measured, in µV. -/
def execCalRun (fn : FnId) (ring : Fin 8) (refv : Int) (s : State) : Out :=
  .next (ownerVerb s fn ring 0x72 0x26 (fun v s =>
    let op := bits v.op0 31 0
    let ts := nbits op 4 0
    if ts = 0 then verbDone s v 0x02
    else if s.cal.run.isSome then verbDone s v 0x45
    else if calAbsent s op then verbDone s v 0x49
    else if nbits op 1 1 = 1 ∧ regF s (rCad 0x2C) 31 24 = 0 then verbDone s v 0x46
    else
      let num := (reg s (rCal 4)).toNat + 1
      let left := (List.range 5).flatMap (fun t => if nbits op t t = 1 then (calUnits s op t).map (fun u => (t, u)) else [])
      let r : CalRun := { num := num % 2 ^ 32, verb := v.id, op := op, beat := s.beat, left := left }
      let s1 := setReg (setReg s (rCal 4) (word num)) (rCal 0xC) (int32 refv)
      let s2 := setRegF (setRegF s1 (rCal 0) 31 24 0) (rCal 0) 3 0 1
      let s3 := setCal s2 { run := some r, figs := [] }
      match calInputs s3 r refv with
      | some st => calFail s3 r st 0 0 0 0
      | none => setRegF s3 (rCal 0) 3 0 (if left.isEmpty then 3 else 2)))

/-- A figure below its floor (R644, R647). -/
def calPoor (s : State) (t a b : Nat) : Bool :=
  match t with
  | 0 => a < regF s (rCal 0x10) 15 0 || b < regF s (rCal 0x10) 31 16
  | 1 => a > regF s (rCal 0x14) 15 0
  | 2 => a > regF s (rCal 0x14) 31 16
  | 3 => a < regF s (rCal 0x18) 15 0
  | _ => a > regF s (rCal 0x1C) 15 0

/-- A region's calibration reads pages of a calibration block; how many the manual does not say (R476, R644, log 2). -/
def calibRead (s : State) (f : Nat) : State :=
  let (d, s1) := draw s
  gryCount s1 f 4 (Config.freeNat d)

/-- CAL_UNIT_MEASURE: a unit of the target in turn is measured in its window: whether its own check passes, whether the step is
discarded for a load change or waits for its channel's interval (R652), its figures and new trim, and REF_V as it stands (R646, R647, R651). -/
def execCalUnitMeasure (target : Fin 5) (unit : Nat) (check again : Bool) (a b : BitVec 16) (trim : Nat) (refv : Int) (s : State) : Out :=
  .next (
    match s.cal.run with
    | none => s
    | some r =>
      let t := target.val
      if !r.left.contains (t, unit) || (r.left.head?.map Prod.fst) != some t || (t == 1 && (!s.cad.gap || again)) ||
          (t == 2 && chanInterval s unit == 2) then s
      else
        let s1 := setRegF (if t = 3 then calibRead s unit else s) (rCal 0) 6 4 t
        let p := unit / 16
        let l := laneLink s1 p (unit % 16)
        let rest := { r with left := r.left.erase (t, unit) }
        let stage := fun (s : State) (r : CalRun) =>
          setRegF (setCal s { s.cal with run := some r }) (rCal 0) 3 0 (if r.left.isEmpty then 3 else 2)
        match calInputs s1 r refv with
        | some st => calFail s1 r st 0 0 0 0
        | none =>
          if t = 0 ∧ (!linkUp s1 p l ∨ linkLanes s1 p l ≤ 1) then stage (incRegF s1 (rCal 0) 31 24) rest
          else
            let s2 := if t = 0 then ctlSend s1 p l (.cal (unit % 16)) else s1
            if !check && (t == 0 || t == 3) then calFail s2 r (if t = 0 then 0x42 else 0x43) t unit 0 0
            else
              let k := 512 * t + unit
              let s3 := setCal s2 { s2.cal with figs := mapInsert s2.cal.figs k (a.toNat, b.toNat) }
              if calPoor s3 t a.toNat b.toNat then calFail s3 r 0x44 t unit a.toNat (if t = 0 then b.toNat else 0)
              else stage s3 { rest with shadow := mapInsert r.shadow k trim })

/-- CAL_TIMEOUT: a run has not staged within its DEADLINE beats (R646). -/
def execCalTimeout (s : State) : Out :=
  .next (
    match s.cal.run with
    | none => s
    | some r =>
      let d := nbits r.op 31 20
      if r.left.isEmpty || s.beat < r.beat + (if d = 0 then 4000 else d) then s else calFail s r 0x47 0 0 0 0)

/-- A staged run commits at a boundary (R646, R648). -/
def calCommit (s : State) : State :=
  match s.cal.run with
  | none => s
  | some r =>
    if !r.left.isEmpty then s
    else
      let st := s.store
      let s1 := setStore s { st with
        trims := r.shadow.foldl (fun m e => mapInsert m e.1 e.2) st.trims
        figs := (s.cal.figs.filter (fun e => (mapFind r.shadow e.1).isSome)).foldl (fun m e => mapInsert m e.1 e.2) st.figs
        commits := st.commits + 1 }
      let s2 := setRegF (setRegF (setCal s1 { s1.cal with run := none }) (rCal 0) 3 0 0) (rCal 0) 23 16 0
      let s3 := setReg s2 (rCal 8) (word s2.beat)
      let s4 := raise s3 .calDone none 0 0 [(32, r.num), (5, calTargets r), (32, s3.beat), (8, regF s3 (rCal 0) 31 24)]
      verbEnd s4 r.verb 0 (packFields [(32, r.num), (32, s4.beat)])

/-- CAL_ABORT (R653). -/
def execCalAbort (fn : FnId) (ring : Fin 8) (s : State) : Out :=
  .next (ownerVerb s fn ring 0x73 0x26 (fun v s =>
    match s.cal.run with
    | none => verbDone s v 0x04
    | some r => verbDone (calFail s r 0x48 0 0 0 0) v 0 r.num))

/-- Units of a target (R644). -/
def calCount (t : Nat) : Nat := [96, 160, 194, 160, 284].getD t 0

/-- CAL_RESULTS (R653). -/
def execCalResults (fn : FnId) (ring : Fin 8) (ok : Bool) (s : State) : Out :=
  .next (ownerVerb s fn ring 0x74 0x26 (fun v s =>
    let t := bits v.op0 4 0
    if t > 4 then verbDone s v 0x02
    else
      let figs := if bit v.op0 5 then s.cal.figs else s.store.figs
      let rec_ := fun (u : Nat) => match mapFind figs (512 * t + u) with
        | some (a, b) => if u < calCount t then b * 2 ^ 16 + a else 0
        | none => if u < calCount t then 0xFFFFFFFF else 0
      let rows := (List.range ((calCount t + 3) / 4)).map (fun k =>
        BitVec.ofNat 128 (packFields ((List.range 4).map (fun i => (32, rec_ (4 * k + i))))))
      verbResult s v rows ok))

/-- CAL_REQ: the lane sends the training pattern (R651). -/
def execCalReq (port : DieId) (link : Fin 4) (lane : Fin 16) (s : State) : Out :=
  .next (if linkUp s port link then setLk s port link { lk s port link with cal := some lane.val } else s)

end Sys2Proof.Machine
end

