-- ==== Sys2Proof/Machine/Power.lean ====
section
/-!
DEFINITION. Power delivery and the Ember store (R658 to R691): feeds and converters, sense samples, stoke notices, the duties
that power sets, loss of the bus, the discharge test, and the power verbs.
-/
namespace Sys2Proof.Machine

/-- Registers of the PWR_ block at module and half scope, the latter by field (R689, R690), and of the EMB_ block (R691). -/
def rPwr (off : Nat) : RegLoc := rModule 0x13 off
def rPwrF (f off : Nat) : RegLoc := rHalf (f / 80) 0x13 off (f % 80)
def rEmb (off : Nat) : RegLoc := rModule 0x14 off
def setPwr (s : State) (x : Power) : State := { s with pwr := x }
/-- Power of a field. -/
def fieldPw (s : State) (f : Nat) : FieldPw := mapGet {} s.pwr.fields f
def setFieldPw (s : State) (f : Nat) (x : FieldPw) : State := setPwr s { s.pwr with fields := mapSet {} s.pwr.fields f x }
/-- The partitions with a current sheaf in a field. -/
def fieldParts (s : State) (f : Nat) : List Nat :=
  (List.range 64).filter (fun p => prtState s p != 0 && (curSheaves s p).any (fun sh => fieldOfSheaf sh == f))
/-- Raise an event about a field: to the owner, and to every partition with a current sheaf in it. -/
def raiseField (s : State) (ev : Ev) (f : Nat) (d : List (Nat × Nat)) : State :=
  (fieldParts s f).foldl (fun s p => raise s ev (some p) 2 (fieldUnit f) d) (raise s ev none 2 (fieldUnit f) d)
/-- A signed figure in 16 bits. -/
def int16 (x : Int) : Nat := (x % (2 ^ 16 : Int)).toNat

/-! ### Feeds and converters -/

/-- Working converters (R660). -/
def convCount (s : State) : Nat := popc 4 s.pwr.conv
/-- The effective input cap in W (R660, R689). -/
def effCap (s : State) : Nat :=
  let c := min 26000 (regF s (rPwr 0) 15 0)
  if convCount s < 2 then min c (14360 * convCount s) else c

/-- FEED_BAND_EXIT: the module stops drawing from a feed (R658, R659). -/
def execFeedBandExit (feed : Fin 2) (volts : BitVec 16) (s : State) : Out :=
  .next (
    if !s.pwr.use.getD feed.val false then s
    else raise (setPwr s { s.pwr with use := s.pwr.use.set! feed.val false }) .feedLost none 0 0 [(4, feed.val + 1), (16, volts.toNat)])

/-- FEED_RESUME: drawing resumes, and the feed is back in range (R658, R659). -/
def execFeedResume (feed : Fin 2) (s : State) : Out :=
  .next (
    let s1 := setPwr s { s.pwr with outTold := s.pwr.outTold.set! feed.val false }
    if s1.pwr.use.getD feed.val false then s1
    else raise (setPwr s1 { s1.pwr with use := s1.pwr.use.set! feed.val true }) .feedRestored none 0 0 [(4, feed.val + 1)])

/-- FEED_OUT_OF_RANGE, once per crossing (R658). -/
def execFeedOutOfRange (feed : Fin 2) (volts : BitVec 16) (s : State) : Out :=
  .next (
    if s.pwr.outTold.getD feed.val false then s
    else
      let s1 := setPwr s { s.pwr with outTold := s.pwr.outTold.set! feed.val true }
      raise (orReg s1 (rPwr 4) 8) .feedOutOfRange none 0 0 [(4, feed.val + 1), (16, volts.toNat)])

/-- CONVERTER_FAULT: a converter is isolated (R660); causes 1 OVERCURRENT, 2 OVERTEMP, 3 OUTPUT. -/
def execConverterFault (conv : Fin 4) (cause : Fin 3) (s : State) : Out :=
  .next (
    if nbits s.pwr.conv (3 - conv.val) (3 - conv.val) = 0 then s
    else
      let s1 := setPwr s { s.pwr with conv := s.pwr.conv - 2 ^ (3 - conv.val) }
      raise (orReg s1 (rPwr 4) 4) .converterFault none 0 0 [(4, conv.val + 1), (4, cause.val + 1)])

/-- CAP_UNREACHABLE: 10 ms above the cap with D_cap at 64 (R676). -/
def execCapUnreachable (s : State) : Out :=
  .next (
    if s.pwr.cap ≠ 64 ∨ s.pwr.meter.watts ≤ effCap s ∨ s.pwr.capTold ∨ heldFor s s.pwr.capSince 10000000 = false then s
    else raise (orReg (setPwr s { s.pwr with capTold := true }) (rPwr 4) 2) .capUnreachable none 0 0
      [(16, s.pwr.meter.watts), (16, effCap s)])

/-! ### Sense samples -/

/-- True while a half's rails are up (R665, R666). -/
def railsUp (s : State) (h : Nat) : Bool :=
  let x := halfSt s h
  s.pwr.bus && !s.thm.latched && !x.lost && (x.kindled || (mapFind s.flt.kindling h).isSome)

/-- Off its setpoint by more than 8% (R667). -/
def railOff (set v : Nat) : Bool := 100 * v > 108 * set || 100 * v < 92 * set
/-- A run of samples goes on or ends. -/
def streak (on : Bool) (n : Nat) : Nat := if on then n + 1 else 0

/-- The crack detector at a sample (R677). -/
def crackStep (s : State) (f : Nat) (drop : Int) (total : Nat) : State :=
  let x := fieldPw s f
  let thr := regF s (rPwr 0x1C) 15 0
  let need := max 1 (regF s (rPwr 0x1C) 23 16)
  let ex : Int := 10000 * drop - (total * x.rpath : Nat)
  let n := streak (decide (ex > 10000 * (thr : Int))) x.excess
  let quiet := streak (decide (3 * ex ≤ 20000 * (thr : Int))) x.quiet
  let y := { x with drop := drop, predicted := total * x.rpath / 10000, excess := n, quiet := quiet }
  if x.armed then
    if n ≥ need then
      let s1 := setFieldPw s f { y with crack := true, armed := false, crackDuty := regF s (rPwr 0x1C) 31 24 + 1, quiet := 0 }
      raiseField s1 .crackSuspect f [(1, f / 80), (7, f % 80), (16, int16 (ex / 10000)), (16, total / 100)]
    else setFieldPw s f y
  else
    let s1 := if n = need then incReg s (rPwrF f 0x28) else s
    setFieldPw s1 f { y with armed := decide (quiet ≥ 1000) }

/-- A phase is shed (R679); causes 1 NO_CURRENT, 2 OVERCURRENT. -/
def shedPhase (f : Nat) (s : State) (e : Nat × Nat) : State :=
  let x := fieldPw s f
  if nbits x.shed e.1 e.1 = 1 then s
  else raise (setFieldPw s f { x with shed := x.shed + 2 ^ e.1 }) .phaseShed none 2 (fieldUnit f)
    [(1, f / 80), (7, f % 80), (16, e.1), (4, e.2)]

/-- Healthy phases of a field (R679). -/
def healthy (x : FieldPw) : Nat := 9 - popc 9 x.shed

/-- The phases at a sample (R679): those that fail are shed, and with 5 or fewer the field is fenced. -/
def phaseStep (s : State) (f : Nat) (x : SenseSample) (total : Nat) : State :=
  let p := fieldPw s f
  let on := fun (i : Nat) => nbits (p.shed ||| x.parked.toNat) i i == 0
  let n := ((List.range 9).filter (fun i => on i)).length
  let low := (List.range 9).map (fun i =>
    streak (on i && decide (total ≥ 4000 * n) && decide (x.phases.getD i 0 < 500)) (p.low.getD i 0))
  let bad := (List.range 9).filterMap (fun i =>
    if on i then (if low.getD i 0 ≥ 5 then some (i, 1) else if bit x.limited i then some (i, 2) else none) else none)
  let s1 := bad.foldl (shedPhase f) (setFieldPw s f { p with low := low, parked := x.parked.toNat })
  let q := fieldPw s1 f
  let m := healthy q
  let s2 := setFieldPw s1 f { q with heavy := streak (decide (total > 19000 * m)) q.heavy }
  if m ≤ 5 ∧ !q.fenced then
    let s3 := setFieldPw s2 f { fieldPw s2 f with fenced := true }
    raise (failField s3 f) .fieldUnderpowered none 2 (fieldUnit f) [(1, f / 80), (7, f % 80), (16, m)]
  else s2

/-- The rails at a sample (R667): 11 samples off the setpoint in a row span 100 µs (log 40). -/
def railStep (s : State) (f : Nat) (x : SenseSample) : State :=
  let p := fieldPw s f
  let vs := [(p.setpoint, x.core), (800, x.sram), (1200, x.gry)]
  let runs := (List.range 3).map (fun i =>
    let e := vs.getD i (0, 0)
    streak (railOff e.1 e.2) (p.rails.getD i 0))
  let s1 := setFieldPw s f { p with rails := runs }
  match (List.range 3).find? (fun i => runs.getD i 0 ≥ 11) with
  | none => s1
  | some i =>
    let s2 := raise (orReg s1 (rPwr 4) 1) .railFault none 1 (halfUnit (f / 80))
      [(1, f / 80), (4, i + 1), (7, f % 80), (16, (vs.getD i (0, 0)).2)]
    loseHalf s2 (f / 80) (i + 1)

/-- POWER_SENSE_SAMPLE (R668): the fault detectors ignore a held sample. -/
def execPowerSenseSample (f : FieldId) (x : SenseSample) (s : State) : Out :=
  .next (
    if !railsUp s (f / 80) || x.held then s
    else
      let total := (x.phases.take 9).foldl (· + ·) 0
      let s1 := setFieldPw s f { fieldPw s f with sense := x.core, coreAmps := total / 100, sramAmps := x.sramA }
      railStep (phaseStep (crackStep s1 f x.drop total) f x total) f x)

/-! ### AVS and stoke notices -/

/-- True while a pre-positioning of a field is in force (R672). -/
def prePlaced (s : State) (f : Nat) : Bool := (fieldPw s f).notices.any (fun n => n.placed)

/-- AVS_UPDATE: a field's setpoint moves, by at most 5 mV a millisecond (R669, R677). -/
def execAvsUpdate (f : FieldId) (mv : BitVec 16) (s : State) : Out :=
  .next (
    let x := fieldPw s f
    let v := mv.toNat
    let late := match x.moved with | some t => decide (s.time ≥ t + 1000000) | none => true
    if !regBit s (rPwr 0) 31 || s.cad.gap || prePlaced s f || x.crack || !late || v < 620 || v > 780 || v > x.setpoint + 5 ||
        x.setpoint > v + 5 then s
    else setFieldPw s f { x with setpoint := v, moved := some s.time })

/-- A notice of a binder reaches its field's controller (R670, R686). -/
def stokeNotice (s : State) (sh lead : Nat) (step : Int) : State :=
  let f := fieldOfSheaf sh
  let x := fieldPw s f
  if x.fenced || lead < 2200 || lead > 1100000 then incReg s (rPwr 0x20)
  else if (x.notices.filter (fun n => s.cycle < n.at_)).length ≥ 64 then incReg s (rPwr 0x24)
  else incReg (setFieldPw s f { x with notices := x.notices ++ [{ sheaf := sh, at_ := s.cycle + lead, step := step }] }) (rPwrF f 0x1C)

/-- STOKE (R114, R670). -/
def execStoke (u : Issuer) (s : State) : Out :=
  .next (issue .stoke u s (fun i s =>
    let c := core s u
    next1 (stokeNotice s (sheafOf u) (sGet c i.ra).toNat (sGet c i.rb).toInt) u))

/-- STOKE_PREPOSITION: 2 200 cycles before a notice's window the field's phases wake, and its regulation moves by the sum of the
steps whose coverage begins within the next 2 200 cycles (R672). -/
def execStokePreposition (f : FieldId) (s : State) : Out :=
  .next (
    let x := fieldPw s f
    let due := fun (n : Notice) => decide (s.cycle ≤ n.at_) && decide (n.at_ ≤ s.cycle + 2200)
    if !x.notices.any (fun n => due n && !n.placed) then s
    else
      let sum := (x.notices.filter due).foldl (fun a n => a + n.step) (0 : Int)
      setFieldPw s f { x with parked := 0, posn := sum, notices := x.notices.map (fun n => if due n then { n with placed := true } else n) })

/-- A notice covers the window that begins at a cycle (R671). -/
def covers (n : Notice) (w : Nat) : Bool := n.at_ ≤ w + 255 && w ≤ n.at_ + 2200

/-- True when a grain's ramp flag is set (R675). -/
def flagged (x : FieldPw) (g : Nat) : Bool :=
  !(x.flags.all || x.flags.sheaves.contains (sheafOfGrain g) || x.flags.grains.contains g)

/-- The duty in force for a grain, 64 to 256 (R204, R674). -/
def grainDuty (s : State) (g : Nat) : Nat :=
  let x := fieldPw s (g / 9216)
  max 64 (if flagged x g then min x.inForce x.ramp else x.inForce)

/-- The grains of a field that wanted compute cycles in the ended window: with the cycles done and withheld (R204). -/
def windowWork (s : State) (f : Nat) (want : List (GrainId × Nat)) : List (Nat × Nat × Nat) :=
  (want.filter (fun e => e.1.val / 9216 == f)).map (fun e =>
    let w := min 256 e.2
    let d := min w (grainDuty s e.1)
    (e.1.val, d, w - d))

/-- The ramp limiter of a field at a window boundary (R675): the window that begins is at cycle w. -/
def rampStep (s : State) (f w : Nat) (work : List (Nat × Nat × Nat)) : State :=
  let x := fieldPw s f
  let told := ((x.notices.filter (fun n => covers n w)).map (fun n => n.sheaf)).eraseDups
  let busy := (work.filter (fun e => e.2.1 != 0 && !flagged x e.1 && !told.contains (sheafOfGrain e.1))).map (fun e => e.1)
  let y := { x with flags := { all := false, sheaves := told, grains := busy } }
  let held := work.any (fun e => e.2.2 != 0 && flagged y e.1)
  let s1 := if held && x.ramp < 256 then incReg s (rPwrF f 0x20) else s
  let d := if held then min 256 (x.ramp + max 1 (regF s (rPwr 0) 23 16)) else x.ramp
  if d = 256 then setFieldPw s1 f { y with flags := {}, ramp := 64 } else setFieldPw s1 f { y with ramp := d }

/-- The phase value of a field at a window boundary (R679). -/
def phaseDuty (x : FieldPw) : Nat :=
  let n := healthy x
  if n ≥ 8 then 256
  else if n ≥ 6 then (if x.heavy ≥ 3 then max 64 (x.phase - 16) else min 256 (x.phase + 1))
  else x.phase

/-- A field's current rose in the ended window past the announced sum (R673); the rise in mA. -/
def overStep (s : State) (f w rise : Nat) : State :=
  let ns := (fieldPw s f).notices.filter (fun n => covers n w)
  let sum := ns.foldl (fun a n => a + n.step) (0 : Int)
  if !ns.isEmpty && decide (10 * (rise : Int) > 11 * sum + 20000) then incReg s (rPwrF f 0x24) else s

/-- A field at a window boundary (R204, R673 to R679); `thermal` is its thermal duty. -/
def fieldWindow (thermal : State → Nat → Nat) (want : List (GrainId × Nat)) (rise : List (FieldId × Nat)) (s : State) (f : Nat) : State :=
  let w := 256 * (s.cycle / 256)
  let work := windowWork s f want
  let s1 := work.foldl (fun s e => if e.2.2 = 0 then s else incReg s (rGrain e.1 1 0x4C) e.2.2) s
  let s2 := match rise.find? (fun e => e.1.val == f) with
    | some e => overStep s1 f (w - 256) e.2
    | none => s1
  let s3 := rampStep s2 f w work
  let x := fieldPw s3 f
  let ns := x.notices.filter (fun n => w ≤ n.at_ + 2200)
  let ph := phaseDuty x
  let posn := if ns.any (fun n => n.placed) then x.posn else 0
  setFieldPw s3 f
    { x with notices := ns, posn := posn, phase := ph, inForce := min (min (thermal s3 f) s3.pwr.cap) (min ph x.crackDuty) }

/-- D_cap at a window boundary, and since when it has been 64 with the input above the cap (R676, R686). -/
def capStep (s : State) : State :=
  let p := s.pwr.meter.watts
  let c := effCap s
  let live := [0, 1].any (fun h => railsUp s h)
  let d := if !live then s.pwr.cap
    else if p > c then max 64 (s.pwr.cap - 8)
    else if 100 * p ≤ 98 * c then min 256 (s.pwr.cap + 1) else s.pwr.cap
  let s1 := setPwr s { s.pwr with
    cap := d, capTold := s.pwr.capTold && decide (p > c)
    capSince := if d = 64 ∧ p > c then some (s.pwr.capSince.getD s.time) else none }
  let s2 := if d < 256 then incReg s1 (rPwr 0x28) else s1
  if d < 256 ∧ s.pwr.cap = 256 then raise s2 .powerCapped none 0 0 [(16, p), (16, c)] else s2

/-! ### The Ember store -/

/-- E_v in mJ for a voltage in mV (R682). -/
def emberEv (uf mv : Nat) : Nat := uf * (mv * mv - 576000000) / 2000000000
/-- PERMIT in mJ (R691). -/
def permit (s : State) : Nat := 100 * max 20 (regF s (rEmb 0) 7 0)
def gaugeOk (s : State) : Bool := s.pwr.meter.gauge ≥ permit s
def voltOk (s : State) : Bool := emberEv s.pwr.uf s.pwr.meter.store ≥ permit s

/-- Programming is held or released in every region as the store's conditions stand (R479, R681 to R684). -/
def emberHold (s : State) : State :=
  let hold := !(gaugeOk s && voltOk s) || s.pwr.test.isSome || s.pwr.holdup
  if hold == s.pwr.held then s
  else (List.range 160).foldl (fun s f => gryHold s f 3 hold) (setPwr s { s.pwr with held := hold })

/-- The two estimates are compared (R683): a crossing while DISAGREE stands is suppressed (log 41). -/
def emberCheck (s : State) : State :=
  let split := gaugeOk s != voltOk s
  let s1 := setPwr s { s.pwr with split := split }
  let s2 :=
    if !split || s.pwr.split then s1
    else if regBit s (rEmb 4) 1 then incReg s1 (rEmb 0x18)
    else
      let s3 := setPwr (orReg s1 (rEmb 4) 2) { s1.pwr with due := true }
      raise s3 .emberDisagree none 0 0 [(16, s.pwr.meter.gauge), (16, emberEv s.pwr.uf s.pwr.meter.store), (16, s.pwr.meter.store)]
  emberHold s2

/-- A meter reading is taken. -/
def takeMeter (s : State) (m : PowerMeter) : State := emberCheck (setPwr s { s.pwr with meter := m })

/-- Programs and erases in flight (R438): the blocks in hand that are not held. -/
def flying (s : State) : Nat := (s.granary.regions.filter (fun e => e.2.jobs.any (fun j => !j.held))).length

/-- A discharge test is due (R683, R684, R687). -/
def testDue (s : State) : Bool :=
  let days := regF s (rEmb 0) 15 8
  s.pwr.due || !s.pwr.verbs.isEmpty || (days != 0 && s.time ≥ s.pwr.tested + days * 86400000000000)

/-- EMBER_TEST_START: an idle window begins with a test due (R683, R684). -/
def execEmberTestStart (s : State) : Out :=
  .next (
    if !testDue s || flying s ≠ 0 || s.pwr.test.isSome || !s.pwr.bus then s
    else emberHold (setPwr s { s.pwr with test := some s.pwr.meter.store, due := false, weak := false }))

/-- EMBER_TEST_MEASURED: the store is at 40.0 V after giving the load `out` mJ: C_m, and the gauge is re-zeroed (R684). -/
def execEmberTestMeasured (out gauge : Nat) (s : State) : Out :=
  .next (
    match s.pwr.test with
    | none => s
    | some v1 =>
      if v1 ≤ 40000 then s
      else
        let uf := min 65535 (2000000000 * out / (v1 * v1 - 1600000000))
        let ev := emberEv uf 40000
        let weak := decide (emberEv uf 48000 < permit s)
        let s1 := setPwr s { s.pwr with uf := uf, diff := (gauge : Int) - ev, weak := weak, split := false
                                        meter := { s.pwr.meter with store := 40000, gauge := ev } }
        let s2 := setRegF s1 (rEmb 4) 1 1 0
        if weak then raise (orReg s2 (rEmb 4) 4) .emberWeak none 0 0 [(16, uf), (16, emberEv uf 48000)] else s2)

/-- The EMBER_TEST verbs that wait complete. -/
def emberVerbs (s : State) (status data : Nat) : State :=
  s.pwr.verbs.foldl (fun s e => verbEnd s e.1 status data) (setPwr s { s.pwr with verbs := [] })

/-- EMBER_TEST_DONE: the store is back at 48.0 V (R684, R687). -/
def execEmberTestDone (gauge : Nat) (s : State) : Out :=
  .next (
    if s.pwr.test.isNone then s
    else
      let s1 := setPwr s { s.pwr with test := none, tested := s.time, meter := { s.pwr.meter with store := 48000, gauge := gauge } }
      let s2 := emberCheck (setReg s1 (rEmb 0x14) (word (s.beat % 2 ^ 32)))
      let s3 := raise s2 .emberTestDone none 0 0 [(16, s.pwr.uf), (16, int16 s.pwr.diff)]
      emberVerbs s3 (if s.pwr.weak then 0x52 else 0) (s.pwr.uf + 65536 * int16 s.pwr.diff))

/-- A half's rails fall, with all that its units did (R665, R681, R702). -/
def darken (s : State) (h : Nat) : State :=
  let s1 := halfReset s h
  { s1 with halves := mapSet {} s1.halves h { halfSt s1 h with lost := true } }

/-- BUS_LOSS: the bus falls below 50 V (R681, R686): the hold-up rail takes the store, every rail but VGRY falls, and INPUT_LOST is
written to the log, to be posted at the restart (R745). -/
def execBusLoss (m : PowerMeter) (s : State) : Out :=
  .next (
    if !s.pwr.bus then s
    else
      let s1 := incReg (setPwr s { s.pwr with bus := false, holdup := true, meter := m }) (rEmb 0x1C)
      let s2 := if s.pwr.test.isNone then s1
        else emberVerbs (orReg (setPwr s1 { s1.pwr with test := none, due := true }) (rEmb 4) 1) 0x52 0
      let s3 := emberHold s2
      let e : EventRec := ⟨.inputLost, none, 0, 0, s.time,
        BitVec.ofNat 128 (packFields [(16, m.voltsA), (16, m.voltsB), (16, flying s)])⟩
      let s4 := logAdd (setPwr s3 { s3.pwr with lostRec := s3.pwr.lostRec ++ [e] }) e
      [0, 1].foldl darken s4)

/-- SAFETY_BLEED_START (R685). -/
def execSafetyBleedStart (s : State) : Out :=
  .next (if s.pwr.bus || s.pwr.use.toList.any id then s else setPwr s { s.pwr with bleed := true })

/-- SAFETY_BLEED_END: both voltages are below 2.0 V, or a feed returned and the bus is above 52 V (R685). -/
def execSafetyBleedEnd (feed : Bool) (m : PowerMeter) (s : State) : Out :=
  .next (
    if !s.pwr.bleed then s
    else
      let s1 := setPwr s { s.pwr with bleed := false, meter := m }
      if feed then emberCheck (setPwr s1 { s1.pwr with holdup := false }) else s1)

/-! ### Verbs -/

/-- PHASE_RETEST: the shed phases that pass return to service (R687). -/
def execPhaseRetest (fn : FnId) (ring : Fin 8) (pass : BitVec 9) (s : State) : Out :=
  .next (ownerVerb s fn ring 0x80 0x26 (fun v s =>
    let f := 80 * bits v.op0 0 0 + bits v.op0 7 1
    if bits v.op0 7 1 ≥ 80 then verbDone s v 0x02
    else
      let x := fieldPw s f
      let mask := fun (n : Nat) => 511 - n
      if x.fenced then verbDone s v 0x51 (mask x.shed)
      else
        let shed := x.shed &&& (511 - pass.toNat)
        let s1 := setFieldPw s f { x with shed := shed, low := [] }
        verbDone s1 v (if shed = 0 then 0 else 0x50) (mask shed)))

/-- CRACK_CLEAR (R678, R687): with REMEASURE, the R_path of the samples that follow; none where too few had the current. -/
def execCrackClear (fn : FnId) (ring : Fin 8) (rpath : Option (BitVec 16)) (s : State) : Out :=
  .next (ownerVerb s fn ring 0x81 0x26 (fun v s =>
    let f := 80 * bits v.op0 0 0 + bits v.op0 7 1
    if bits v.op0 7 1 ≥ 80 then verbDone s v 0x02
    else
      let x := fieldPw s f
      let clear := fun (r : Nat) =>
        verbDone (setFieldPw s f { x with rpath := r, crack := false, crackDuty := 256, armed := true, excess := 0 }) v 0 r
      if !bit v.op0 8 then clear x.rpath
      else
        match rpath with
        | some r => clear r.toNat
        | none => verbDone s v 0x54 x.rpath))

/-- EMBER_TEST: a discharge test is asked for (R687). -/
def execEmberTest (fn : FnId) (ring : Fin 8) (s : State) : Out :=
  .next (ownerVerb s fn ring 0x82 0x26 (fun v s => setPwr s { s.pwr with verbs := s.pwr.verbs ++ [(v.id, s.time)] }))

/-- EMBER_TEST verbs that found no idle window within 60 s (R688). -/
def emberBeat (s : State) : State :=
  if s.pwr.test.isSome then s
  else
    let late := s.pwr.verbs.filter (fun e => s.time ≥ e.2 + 60000000000)
    late.foldl (fun s e => verbEnd s e.1 0x53) (setPwr s { s.pwr with verbs := s.pwr.verbs.filter (fun e => s.time < e.2 + 60000000000) })

end Sys2Proof.Machine
end

