-- ==== Sys2Proof/Machine/Thermal.lean ====
section
/-!
DEFINITION. Temperature, throttling and cooling (R692 to R717): samples and their thresholds, the thermal duty of a field, the trip,
flow, and the demand loop. The duty-window boundary (R204), which takes every duty, stands here too.
-/
namespace Sys2Proof.Machine

/-- A register of the THM_ block, by channel where it is windowed (R717). -/
def rThm (off : Nat) (sel : Nat := 0) : RegLoc := rModule 0x15 off sel
def setThm (s : State) (x : Thermal) : State := { s with thm := x }
def setChan (s : State) (c : Nat) (x : Channel) : State := setThm s { s.thm with chans := mapSet {} s.thm.chans c x }
/-- Degrees in 1/16 °C. -/
def deg (n : Nat) : Int := 16 * n

/-! ### Duties -/

/-- The curve of a channel, field or bin, at a reading (R697, R698). -/
def curve (bin : Bool) (t : Int) : Nat :=
  if bin then
    if t ≤ 1568 then 256 else if t ≥ 1696 then 64 else ((512 - 3 * (t - 1568)) / 2).toNat
  else
    if t ≤ 1600 then 256 else if t ≥ 1760 then 64 else ((2560 - 12 * (t - 1600)) / 10).toNat

/-- The fields whose D_field is below 256 (R697, R717). -/
def throttled (s : State) : List Nat := (s.thm.chans.filter (fun e => e.1 < 160 && e.2.duty < 256)).map Prod.fst
/-- A thermal excursion holds (R714). -/
def excursion (s : State) : Bool :=
  s.thm.chans.any (fun e => e.1 < 176 && (e.2.duty < 256 || e.2.clamp)) || s.thm.stop || s.thm.latched || s.thm.await
/-- The internal-fault level applies (R714, R740). -/
def faultLevel (s : State) : Bool := s.thm.chans.any (fun e => e.2.fault) || s.flt.damper.lost
/-- The hottest field or bin channel that is not faulted, with its reading (R713, R717): the lower number where two are equal. -/
def hottest (s : State) : Nat × Int :=
  (s.thm.chans.filter (fun e => e.1 < 176 && !e.2.fault)).foldl
    (fun a e => if e.2.reading > a.2 then (e.1, e.2.reading) else a) (0, (chan s 0).reading)

/-- DUTY_WINDOW_BOUNDARY: a window of 256 cycles ends (R204, R673 to R679, R700). The command brings the meter's readings, how many
compute cycles each grain had to do in the window, and how far each field's current rose in it (log 42). -/
def execDutyWindowBoundary (m : PowerMeter) (want : List (GrainId × Nat)) (rise : List (FieldId × Nat)) (s : State) : Out :=
  .next (
    let s1 := capStep (takeMeter s m)
    let hot := ((List.range 160).filter (fun f => thermalDuty s f < 256)).length
    let s2 := if hot = 0 then s1 else incReg s1 (rThm 0x40) hot
    (List.range 160).foldl (fieldWindow thermalDuty want rise) s2)

/-! ### Thresholds (R695) -/

/-- A sample meets a threshold: what it becomes, whether it is entered, whether a crossing is suppressed. -/
def thrStep (protective beyond inside : Bool) (x : Thr) : Thr × Bool × Bool :=
  if x.on then ({ x with run := inside }, false, x.run && beyond)
  else if protective then ({ on := beyond, run := false }, beyond, false)
  else ({ x with run := beyond }, false, false)

/-- The dwell of a threshold ends: it is entered or left. -/
def thrDwell (x : Thr) : Thr := if x.run then { on := !x.on, run := false } else x

/-- A suppressed crossing of a channel is counted (R695, R717). -/
def suppress (c : Nat) (on : Bool) (s : State) : State := if on then incReg s (rThm 0x18 c) else s

/-- Every diode of a half's Granary is within its window (R479): the half's regions are held or go on. -/
def gryTemp (s : State) (h : Nat) : State :=
  let hold := (List.range 8).any (fun k => (chan s (176 + 8 * h + k)).level.on)
  (List.range 80).foldl (fun s f => if regBit s (rGryF (80 * h + f) 0) 2 == hold then s else gryHold s (80 * h + f) 2 hold) s

/-- The half is outside the window now where it was not before: GRANARY_TEMP_HOLD (R479). -/
def sayTempHold (s0 s : State) (c : Nat) : State :=
  let h := (c - 176) / 8
  let was := (List.range 8).any (fun k => (chan s0 (176 + 8 * h + k)).level.on)
  let now_ := (List.range 8).any (fun k => (chan s (176 + 8 * h + k)).level.on)
  let s1 := gryTemp s h
  if now_ && !was then raise s1 .granaryTempHold none 1 (halfUnit h) [(1, h), (16, (c - 176) % 8), (16, int16 (chan s c).reading)] else s1

/-- A bin's refresh rate changes (R490): 1 base, 2 double. -/
def binRate (s : State) (b : Nat) (hot : Bool) : State :=
  raise (setRegF s (rBin b 4) 6 6 (bnat hot)) .binHotRefresh none 5 b [(4, b), (4, 1 + bnat hot), (16, int16 (chan s (160 + b)).reading)]

/-- The near band and the second threshold of a channel at a sample (R696). -/
def levels (s : State) (c : Nat) : State :=
  let x := chan s c
  let t := x.reading
  let nearAt := if c < 160 then deg 92 else deg 90
  let (n, _, n2) := if c < 176 then thrStep false (decide (t ≥ nearAt)) (decide (t ≤ nearAt - 48)) x.near else (x.near, false, false)
  let inlet := deg (regF s (rThm 0x30) 23 16)
  let (l, _, l2) :=
    if c < 160 then (x.level, false, false)
    else if c < 176 then thrStep false (decide (t ≥ deg 85)) (decide (t ≤ deg 82)) x.level
    else if c < 192 then thrStep true (decide (t < deg 10) || decide (t > deg 70)) (decide (t ≥ deg 13) && decide (t ≤ deg 67)) x.level
    else if c = 192 then thrStep false (decide (t ≥ inlet)) (decide (t ≤ inlet - 48)) x.level
    else (x.level, false, false)
  let s1 := suppress c l2 (suppress c n2 (setChan s c { x with near := n, level := l }))
  if 176 ≤ c ∧ c < 192 then sayTempHold s s1 c else s1

/-! ### Curve, rate of rise, coolant -/

/-- D_field or D_bin at a sample (R697, R698, R716). -/
def dutyStep (s : State) (c : Nat) : State :=
  if c ≥ 176 then s
  else
    let x := chan s c
    let bin := decide (c ≥ 160)
    let now_ := curve bin x.reading
    let up := curve bin (x.reading + 48)
    if now_ < x.duty then
      let s1 := setChan s c { x with duty := now_, dutyAt := s.time }
      if x.duty = 256 then
        raiseField s1 .thermalThrottle ((govern c).getD 0) [(8, c), (16, int16 x.reading), (16, now_)]
      else s1
    else if up > x.duty ∧ s.time ≥ x.dutyAt + 100000000 then setChan s c { x with duty := up, dutyAt := s.time }
    else s

/-- The rise at a sample (R699), with the readings kept for the samples to come. -/
def riseStep (s : State) (c : Nat) : State :=
  if c ≥ 176 then s
  else
    let x := chan s c
    let old := x.hist.find? (fun e => e.1 + 250000000 ≤ s.time)
    let rise : Int := match old with | some e => x.reading - e.2 | none => 0
    let keep := x.hist.filter (fun e => s.time < e.1 + 250000000) ++ old.toList
    let calm := decide (rise < 16)
    let y := { x with hist := (s.time, x.reading) :: keep, rise := rise, window := !calm, calm := calm }
    let s1 := setReg s (rThm 0x14 c) (setBits (reg s (rThm 0x14 c)) 31 16 (int16 rise))
    if rise < 32 then setChan s1 c y
    else if x.clamp then suppress c (decide (x.rise < 32)) (setChan s1 c y)
    else
      raiseField (incReg (setChan s1 c { y with clamp := true }) (rThm 0x44)) .thermalRate ((govern c).getD 0)
        [(8, c), (16, int16 rise)]

/-- Field channels in a rate window (R708). -/
def rateFields (s : State) : Nat := (s.thm.chans.filter (fun e => e.1 < 160 && e.2.window)).length

/-- The coolant stop clamp at a sample (R708). -/
def stopStep (s : State) : State :=
  let n := rateFields s
  if s.thm.stop || s.thm.present || n < max 1 (regF s (rThm 0x30) 15 8) then s
  else raise (setThm s { s.thm with stop := true }) .coolantStop none 0 0 [(16, n), (8, (hottest s).1)]

/-- COOLANT_MARGIN's conditions (R707, R709): beyond and inside. -/
def marginNow (s : State) : Bool × Bool :=
  let warn := 10 * regF s (rThm 0x24) 7 0
  let dt := deg (regF s (rThm 0x30) 31 24)
  let d := (chan s 193).reading - (chan s 192).reading
  let off := (chan s 192).fault || (chan s 193).fault
  ((s.thm.present && s.thm.flow < warn) || (!off && decide (d > dt)),
    (!s.thm.present || s.thm.flow ≥ warn + 30) && (off || decide (d ≤ dt - 48)))

/-- COOLANT_MARGIN is evaluated (R707). -/
def marginStep (s : State) (c : Nat) : State :=
  let (b, i) := marginNow s
  let (t, _, sup) := thrStep false b i s.thm.margin
  suppress c sup (setThm s { s.thm with margin := t })

/-- Fields that share an edge with a field in its half (R712). -/
def edgeFields (f : Nat) : List Nat :=
  let x := f % 80 % 10
  let y := f % 80 / 10
  (if x > 0 then [f - 1] else []) ++ (if x < 9 then [f + 1] else []) ++ (if y > 0 then [f - 10] else []) ++
    (if y < 7 then [f + 10] else [])

/-- The key of two fields' gap. -/
def gapKey (a b : Nat) : Nat := 320 * min a b + max a b

/-- BANKING_GAP of two fields at a sample of one (R712). -/
def gapStep (c : Nat) (s : State) (b : Nat) : State :=
  let g := deg (regF s (rThm 0x30) 7 0)
  let d := ((chan s c).reading - (chan s b).reading).natAbs
  let (t, _, sup) := thrStep false (decide ((d : Int) > g)) (decide ((d : Int) ≤ g - 48)) (mapGet {} s.thm.gaps (gapKey c b))
  suppress c sup (setThm s { s.thm with gaps := mapSet {} s.thm.gaps (gapKey c b) t })

/-- A channel is faulted (R709); kinds 1 OPEN, 2 SHORT, 3 RANGE. -/
def chanFault (s : State) (c kind : Nat) : State :=
  let x := chan s c
  let s1 := setChan s c { x with fault := true, valid := false, hot := 0 }
  if x.fault then s1
  else
    let d := [(8, c), (4, kind)]
    match govern c with
    | some f => raiseField s1 .thermalSensorFault f d
    | none => raise s1 .thermalSensorFault none 0 0 d

/-- THERMAL_SAMPLE: a channel is sampled (R692 to R699, R707 to R709, R712). -/
def execThermalSample (ch : Fin 194) (r : SensorRead) (s : State) : Out :=
  .next (
    let c := ch.val
    match r with
    | .open_ => chanFault s c 1
    | .short => chanFault s c 2
    | .reading t =>
      let x := chan s c
      let s1 := setChan s c { x with reading := t }
      let pk := reg s1 (rThm 0x14 c)
      let s2 := if t > sgn 16 (bits pk 15 0) then setReg s1 (rThm 0x14 c) (setBits pk 15 0 (int16 t)) else s1
      if t < -640 ∨ t > 2400 then chanFault s2 c 3
      else if x.fault then setChan s2 c { chan s2 c with valid := true }
      else
        let s3 := dutyStep (riseStep (levels s2 c) c) c
        let s4 := if c ≥ 192 then marginStep s3 c else if c < 160 then (edgeFields c).foldl (gapStep c) s3 else s3
        stopStep s4)

/-- The dwell of a channel's near band ends. -/
def dwellNear (s : State) (c : Nat) : State := setChan s c { chan s c with near := thrDwell (chan s c).near }

/-- The dwell of a channel's second threshold ends (R479, R490, R696). -/
def dwellLevel (s : State) (c : Nat) : State :=
  let x := chan s c
  let y := thrDwell x.level
  let s1 := setChan s c { x with level := y }
  if y.on = x.level.on then s1
  else if c < 176 then binRate s1 (c - 160) y.on
  else if c < 192 then sayTempHold s s1 c
  else if y.on then raise s1 .coolantInletHigh none 0 0 [(16, int16 x.reading)] else s1

/-- THRESHOLD_DWELL: 100 ms of the samples that a threshold's next change needs have passed (R695, R699, R708, R709; for the coolant
stop clamp also 1 s of flow). -/
def execThresholdDwell (d : Dwell) (s : State) : Out :=
  .next (
    match d with
    | .near c => dwellNear s c
    | .level c => dwellLevel s c
    | .rate c => if (chan s c).calm then setChan s c { chan s c with clamp := false } else s
    | .fault c => if (chan s c).valid then setChan s c { chan s c with fault := false, valid := false } else s
    | .margin =>
      let t := thrDwell s.thm.margin
      let s1 := setThm s { s.thm with margin := t }
      if t.on && !s.thm.margin.on then
        raise s1 .coolantMargin none 0 0 [(16, s.thm.flow), (16, int16 (chan s 192).reading), (16, int16 (chan s 193).reading)]
      else s1
    | .stop => if s.thm.present ∧ rateFields s = 0 then setThm s { s.thm with stop := false } else s
    | .gap a b =>
      let k := gapKey a b
      let x := mapGet {} s.thm.gaps k
      let t := thrDwell x
      let s1 := setThm s { s.thm with gaps := mapSet {} s.thm.gaps k t }
      let d := ((chan s a).reading - (chan s b).reading).natAbs
      if t.on && !x.on then
        raise s1 .bankingGap none 1 (halfUnit (a.val / 80)) [(1, a.val / 80), (7, min a.val b.val % 80), (7, max a.val b.val % 80), (16, d)]
      else s1)

/-! ### The trip -/

/-- The trip latches (R702): the Dampers are held in reset, the rails fall, the staging store and every run in progress are lost. -/
def tripNow (s : State) (c : Nat) (t : Int) : State :=
  let s1 := setThm s { s.thm with trip := some (c, t), latched := true, trips := min (s.thm.trips + 1) (2 ^ 32 - 1), demand := 21500 }
  let s2 := setImg s1 { reserves := [] }
  let s3 := { s2 with cal := {}, flt := { s2.flt with resets := [], kindling := [] }
                      host := { s2.host with verbs := [] } }
  [0, 1].foldl darken s3

/-- TRIP_COMPARATOR_SAMPLE: every comparator samples; `hot` names the channels at or past their level (R702, R709, R716). -/
def execTripComparatorSample (hot : List (Fin 194 × Int)) (s : State) : Out :=
  .next (
    if s.thm.latched then s
    else
      let at_ := fun (c : Nat) => hot.find? (fun e => e.1.val == c && decide (e.2 ≥ if c < 160 then deg 118 else deg 108))
      let s1 := (List.range 176).foldl (fun s c =>
        let x := chan s c
        setChan s c { x with hot := if (at_ c).isSome && !x.fault then x.hot + 1 else 0 }) s
      match (List.range 176).find? (fun c => (chan s1 c).hot ≥ 4) with
      | none => s1
      | some c => tripNow s1 c (match at_ c with | some e => e.2 | none => 0))

/-- THERMAL_RELEASE (R703, R704): kindling may go on, and the trip record is cleared. -/
def execThermalRelease (fn : FnId) (ring : Fin 8) (s : State) : Out :=
  .next (ownerVerb s fn ring 0x88 0x26 (fun v s =>
    match s.thm.trip with
    | none => verbDone s v 0x58
    | some (c, t) =>
      let data := c + 65536 * int16 t
      if s.thm.latched || s.thm.chans.any (fun e => e.2.reading ≥ deg 70) then verbDone s v 0x59 data
      else if !s.thm.present then verbDone s v 0x5A data
      else verbDone (setThm s { s.thm with trip := none, await := false }) v 0 data))

/-! ### Flow and the demand loop -/

/-- FLOW_PULSE: flow in 0.1 L/min from the pulse rate, in pulses a minute (R706). K_FACTOR 0 leaves the figure open (log 2). -/
def execFlowPulse (rate : Nat) (s : State) : Out :=
  .next (
    let k := regF s (rThm 0x24) 31 16
    let (d, s0) := draw s
    let flow := if k = 0 then Config.freeNat d % 65536 else min 65535 (100 * rate / k)
    let s1 := if k = 0 then s0 else s
    marginStep (setThm s1 { s1.thm with flow := flow, present := true }) 193)

/-- FLOW_TIMEOUT: no pulse came within TIMEOUT: flow is absent (R706). -/
def execFlowTimeout (s : State) : Out :=
  .next (
    if !s.thm.present then s
    else
      let s1 := raise (setThm s { s.thm with present := false, flow := 0 }) .coolantFlowAbsent none 0 0 [(16, s.thm.flow)]
      stopStep (marginStep s1 193))

/-- The command of the demand loop in µA (R713, R714). -/
def demandNow (s : State) : Nat :=
  if excursion s then 21500
  else if faultLevel s then 3500
  else if regBit s (rThm 0x38) 31 then max 3800 (min 20500 (regF s (rThm 0x38) 15 0))
  else
    let hot := ((hottest s).2 - deg 90).toNat
    4000 + min 16000 ((8 * s.pwr.meter.watts + 325 * hot) / 13)

/-- DEMAND_UPDATE: every 20 ms the command is computed and driven; the measured current comes with it (R713 to R715). -/
def execDemandUpdate (measured : Nat) (s : State) : Out :=
  .next (setThm s { s.thm with demand := if s.thm.latched then 21500 else demandNow s, loop := min 65535 measured })

/-- DEMAND_COMPLIANCE: 500 ms more than 0.2 mA below the command, or within it (R715). -/
def execDemandCompliance (enter : Bool) (s : State) : Out :=
  .next (
    let low := decide (s.thm.loop + 200 < s.thm.demand)
    if enter && low && !s.thm.comply then
      raise (orReg (setThm s { s.thm with comply := true }) (rThm 0x3C) 4) .demandCompliance none 0 0
        [(16, s.thm.demand), (16, s.thm.loop)]
    else if !enter && !low then setThm s { s.thm with comply := false }
    else s)

/-- THERM_IN_N comes into force (R710). -/
def sayThermIn (s : State) : State := raise s .thermIn none 0 0 []

/-- The mirror words of a beat (R711). -/
def thermalBeat (s : State) : State :=
  if !regBit s (rThm 0) 31 then s
  else
    let ofs := 4 * (regF s (rThm 0) 17 0 / 4)
    (List.range 160).foldl (fun s f =>
      if !(halfSt s (f / 80)).kindled then s
      else
        let w := (thermalDuty s f - 1) * 2 ^ 24 + int16 (chan s f).reading
        (List.range 36).foldl (fun s k => bmemWrite s (36 * f + k) ofs 4 w) s) s

end Sys2Proof.Machine
end

