-- ==== Sys2Proof/Machine/RegAccess.lean ====
section
/-!
DEFINITION. Register reads and writes (R12 to R19, R47 to R57, R572 to R574): what each register shows, what a write to it
does, and the commands that access registers.
-/
namespace Sys2Proof.Machine

/-! ### What the registers show -/

/-- The code of a run state (R118). -/
def runCode : RunState → Nat
  | .halted => 0 | .running => 1 | .waitTally => 2 | .waitEar => 3 | .waitLock => 4 | .waitFence => 5 | .faulted => 6
  | .loading => 7 | .waitNotify => 8 | .waitBeat => 9

/-- The bypassed physical columns of a row of a field (R289, R722). -/
def bypass (s : State) (f row : Nat) : Nat × Nat := mapGet (48, 97) (fieldRec s f).rows row
/-- The physical column of a logical column of a row (R290). -/
def physCol (s : State) (f row u : Nat) : Nat :=
  let (a, b) := bypass s f row
  let p := if a ≤ u then u + 1 else u
  if b ≤ p then p + 1 else p
/-- The bypassed columns of a row as the last kindling of its half set RTR_SPARE by them (R323). -/
def spared (s : State) (f row : Nat) : Nat × Nat := mapGet (48, 97) (mapGet [] s.spares f) row
/-- The physical column of a logical column of a row, as RTR_SPARE has it. -/
def sparedCol (s : State) (f row u : Nat) : Nat :=
  let (a, b) := spared s f row
  let p := if a ≤ u then u + 1 else u
  if b ≤ p then p + 1 else p
/-- RTR_SPARE of a router (R289 to R291, R323). -/
def spareWord (s : State) (g : Nat) : Nat :=
  let f := fieldOfGrain g
  let x := grainX g
  let y := grainY g
  let row := y % 96
  let p := sparedCol s f row (x % 96)
  let gone := fun (c : Nat) => let (a, b) := spared s f row; a == c || b == c
  let skipW := x > 0 && (if p > 0 then gone (p - 1) else (spared s (f - 1) row).2 == 97)
  let skipE := x < 959 && (if p < 97 then gone (p + 1) else (spared s (f + 1) row).1 == 0)
  let at_ := fun (v : Nat) => sparedCol s (f / 80 * 80 + v / 96 * 10 + f % 10) (v % 96) (x % 96)
  let ofs := fun (v : Nat) => (8 + at_ v - p) % 8
  let n := if y = 0 then 0 else ofs (y - 1)
  let d := if y = 767 then 0 else ofs (y + 1)
  bnat skipW * 2 ^ 31 + bnat skipE * 2 ^ 30 + n * 2 ^ 27 + d * 2 ^ 24

/-- Registers of a grain or binder that live in its state (R116 to R125). -/
def showCore (s : State) (u : Issuer) (off : Nat) (w : Word) : Word :=
  let c := core s u
  match u, off with
  | .grain g, 0x0 => word (coordOf g)
  | .grain g, 0x8 => word (c.dmaQ.length * 2 ^ 12 + mxuDepth (grain s g) * 2 ^ 10 + runCode c.state)
  | .grain _, 0xC => word c.pc
  | .grain _, 0x24 => word (cycleCount s c % 2 ^ 32)
  | .grain _, 0x28 => word (cycleCount s c / 2 ^ 32)
  | .grain g, 0x34 => setBits w 15 8 (grainDuty s g - 1)
  | .binder _, 0x4 => word (runCode c.state)
  | .binder _, 0x8 => word c.pc
  | .binder sh, 0x1C =>
    word (packFields ((List.range 16).map (fun n =>
      let x := ear s (16 * sh + n)
      (2, if x.goal.isSome then 3 else match x.now with | .on => 0 | .retain => 1 | .off => 2))))
  | .binder sh, o => if 0x20 ≤ o ∧ o < 0x40 then word ((sheaf s sh).nc.getD ((o - 0x20) / 4) 0).toNat else w
  | _, _ => w

/-- Tally counters and windows (R264, R266). -/
def showTally (s : State) (g off : Nat) (w : Word) : Word :=
  if off < 0x40 then
    let t := (grain s g).tc.getD (off / 4) {}
    word (bnat t.error * 2 ^ 17 + bnat t.overflow * 2 ^ 16 + t.value.toNat)
  else if 0x80 ≤ off ∧ off < 0xA0 then
    let c := (grain s g).cw.getD ((off - 0x80) / 8) {}
    if off % 8 = 0 then word (c.limit * 2 ^ 16 + c.avail)
    else word (bnat c.isOpen * 2 ^ 31 + c.queue.length * 2 ^ 28 + c.inFlight)
  else w

/-- Registers of a Flue bridge (R326, R328). -/
def showFlue (s : State) (b off : Nat) (w : Word) : Word :=
  let (dir, i) := flueSel s b
  let e := flueEntry s b dir i
  if off = 0xC then word (bnat e.valid * 2 ^ 31 + e.part.toNat * 2 ^ 21 + e.dy.toNat * 2 ^ 10 + e.dx.toNat)
  else if off = 0x10 then
    let st := match e.st with | .idle => 0 | .holding => 1 | .waiting => 2 | .refused => 3
    word (st * 2 ^ 30 + e.balance * 2 ^ 20 + e.cw.toNat * 2 ^ 18 + e.chunk.toNat)
  else if off = 4 then setBits w 5 5 (bnat ([0, 1].any (fun h => (halfSt s h).inReset)))
  else w

/-- Registers of a partition's Hopper part, swing groups and experts (R431, R433, R434). -/
def showServe (s : State) (p blk off sel : Nat) (w : Word) : Word :=
  if blk = 7 ∧ 0xC0 ≤ off then
    if sel < hopSize s p then word (entBits (entAt s p sel) / 2 ^ (8 * (off - 0xC0)) % 2 ^ 32) else 0
  else if blk = 8 ∧ off = 0x20 then
    let x := swing s p sel
    let pend := match x.change with | some (r, _) => r | none => 0
    setBits (setBits (setBits (setBits w 23 22 (swingRole s p sel)) 21 20 pend) 17 10 (min 255 x.streak)) 9 0 (min 1023 x.held)
  else if blk = 9 ∧ off = 0x1C then setBits w 0 0 (bnat (!s.hop.off.contains (1024 * p + regF s (rMoe p 4) 9 0)))
  else w

/-- Registers of the Granary (R483, R485). -/
def showGry (s : State) (l : RegLoc) (w : Word) : Word :=
  if l.scope = 2 then
    let f := fieldOfUnit l.unit
    let r := region s f
    if l.off = 0 then setBits w 1 1 (bnat (r.jobs.any (fun j => !j.held)))
    else if l.off = 4 then word (retiredBlks r * 2 ^ 16 + freeBlks r)
    else if l.off = 8 then
      word (((dataBlks r).foldl (fun a e => max a e.2.pe) 0) * 2 ^ 16 + ((dataBlks r).filter (fun e => e.2.pe ≥ 2700)).length)
    else w
  else if l.off = 4 then setBits (setBits w 2 2 (bnat (readOnly s 1))) 1 1 (bnat (readOnly s 0))
  else if l.off = 8 ∨ l.off = 0xC then word (spareCount s ((l.off - 8) / 4) * 2 ^ 16)
  else if l.off = 0x24 then
    match mapFind s.granary.spaces l.sel with
    | none => 0
    | some n => word (2 ^ 31 + (match nsPart s l.sel with | some p => p * 2 ^ 21 + 2 ^ 20 | none => 0) + n.quota % 2 ^ 20)
  else if l.off = 0x28 then word (nsAlloc s l.sel)
  else w

/-- Registers of the image block (R567). -/
def showImg (s : State) (off sel : Nat) (w : Word) : Word :=
  let nonce := (Config.freeDouble s.store.nonce).toNat
  match off with
  | 0x10 => word (bnat s.store.locked * 2 ^ 31 + (s.store.keys.foldl (fun a e => a + 2 ^ e.1) 1))
  | 0x14 => word (nonce % 2 ^ 32)
  | 0x18 => word (nonce / 2 ^ 32)
  | 0x28 =>
    let named := fun (h : Nat) => (s.img.reserves.filter (fun e => halfOfSheaf e.2.sh == h)).length
    word ((freeReserves s 1).length * 2 ^ 24 + (freeReserves s 0).length * 2 ^ 16 + named 1 * 2 ^ 8 + named 0)
  | 0x30 =>
    match mapFind s.img.reserves sel with
    | none => 0
    | some r =>
      let st := if reserveBad s r.sh then 2 else if r.adopter.isSome then 1 else 0
      word (2 ^ 31 + st * 2 ^ 29 + (if st = 1 then r.adopter.getD 0 else 0) * 2 ^ 23 + sheafCol r.sh * 2 ^ 6 + sheafRow r.sh)
  | 0x38 =>
    match mapFind s.img.slots sel with
    | none => 0
    | some (fn, im) => word (2 ^ 31 + bnat (fn != 0) * 2 ^ 30 + im.part * 2 ^ 24)
  | _ => w

/-- Registers of power at module and half scope (R689, R690), and of the Ember store (R691). -/
def showPwr (s : State) (off : Nat) (w : Word) : Word :=
  let p := s.pwr
  let m := p.meter
  match off with
  | 4 => setBits (setBits (setBits (setBits w 31 31 (bnat (p.use.getD 0 false))) 30 30 (bnat (p.use.getD 1 false))) 29 26 p.conv)
      25 25 (bnat (p.cap < 256))
  | 0x8 => word (m.voltsA % 2 ^ 16 * 2 ^ 16 + m.ampsA % 2 ^ 16)
  | 0xC => word (m.voltsB % 2 ^ 16 * 2 ^ 16 + m.ampsB % 2 ^ 16)
  | 0x10 => word (min m.watts 65535)
  | 0x14 => word (m.busV % 2 ^ 16 * 2 ^ 16 + m.busA % 2 ^ 16)
  | 0x18 => word (p.cap - 1)
  | _ => w
def showPwrF (s : State) (f off : Nat) (w : Word) : Word :=
  let x := fieldPw s f
  match off with
  | 4 => word (bnat x.crack * 2 ^ 31 + bnat x.armed * 2 ^ 30 + bnat x.fenced * 2 ^ 29 + x.shed * 2 ^ 9 + x.parked)
  | 8 => word (x.setpoint % 2 ^ 16 * 2 ^ 16 + x.sense % 2 ^ 16)
  | 0xC => word (x.sramAmps % 2 ^ 16 * 2 ^ 16 + x.coreAmps % 2 ^ 16)
  | 0x10 => word (int16 x.drop * 2 ^ 16 + x.predicted % 2 ^ 16)
  | 0x14 => word (x.rpath % 2 ^ 16)
  | 0x18 => word ((x.ramp - 1) * 2 ^ 24 + (x.phase - 1) * 2 ^ 16 + (x.crackDuty - 1) * 2 ^ 8)
  | _ => w
def showEmb (s : State) (off : Nat) (w : Word) : Word :=
  let p := s.pwr
  match off with
  | 4 => word ((w.toNat % 8) + bnat (gaugeOk s && voltOk s) * 2 ^ 31 + bnat (gaugeOk s) * 2 ^ 30 + bnat (voltOk s) * 2 ^ 29 +
      bnat p.test.isSome * 2 ^ 28 + bnat p.bleed * 2 ^ 27 + bnat p.holdup * 2 ^ 26)
  | 8 => word (p.meter.store % 2 ^ 16)
  | 0xC => word (p.meter.gauge % 2 ^ 16 * 2 ^ 16 + emberEv p.uf p.meter.store % 2 ^ 16)
  | 0x10 => word p.uf
  | _ => w

/-- Registers of the THM_ block (R717). -/
def showThm (s : State) (off sel : Nat) (w : Word) : Word :=
  let t := s.thm
  let x := chan s sel
  match off with
  | 4 => word (bnat t.await * 2 ^ 31 + bnat (mapGet {} s.flt.inputs 3).inForce * 2 ^ 30 + bnat t.present * 2 ^ 29 + bnat t.stop * 2 ^ 28 +
      bnat t.margin.on * 2 ^ 27 + bnat (excursion s) * 2 ^ 26 + bnat (t.chans.any (fun e => e.2.fault)) * 2 ^ 25 +
      (throttled s).length * 2 ^ 8 + (hottest s).1)
  | 8 => word (int16 (hottest s).2)
  | 0x10 => word (int16 x.reading * 2 ^ 16 + chanInterval s sel * 2 ^ 14 + bnat x.window * 2 ^ 13 + bnat x.clamp * 2 ^ 12 +
      bnat x.fault * 2 ^ 11)
  | 0x1C => word (match govern (regF s (rThm 0xC) 7 0) with | some f => thermalDuty s f - 1 | none => 255)
  | 0x20 => match t.trip with | none => 0 | some (c, r) => word (2 ^ 31 + c * 2 ^ 23 + int16 r)
  | 0x28 => word (t.flow % 2 ^ 16 * 2 ^ 16)
  | 0x2C => word (int16 (chan s 192).reading * 2 ^ 16 + int16 (chan s 193).reading)
  | 0x34 => word (t.demand % 2 ^ 16 * 2 ^ 16 + t.loop % 2 ^ 16)
  | 0x3C => word (w.toNat / 4 % 2 * 4 + bnat (faultLevel s && !excursion s) * 2 + bnat (excursion s))
  | 0x48 => word t.trips
  | _ => w

/-- The number of a domain as RST_STATUS and RESET_DONE give it (R753). -/
def domCode : Domain → Nat
  | .grain _ => 1 | .sheaf _ => 2 | .field _ => 3 | .half _ => 4 | .part _ => 5
/-- Retired fields of a half (R754). -/
def retiredOf (s : State) (h : Nat) : Nat := (s.store.fields.filter (fun e => e.1 / 80 == h && e.2.status == 2)).length

/-- Registers of faults, resets and kindling (R751, R753, R754). -/
def showFlt (s : State) (off sel : Nat) (w : Word) : Word :=
  match off with
  | 4 => word (w.toNat % 8 + bnat s.flt.damper.db * 2 ^ 31 + bnat s.flt.damper.standby * 2 ^ 30)
  | 0xC =>
    let x := mapGet {} s.flt.inputs sel
    setBits w 31 28 (bnat x.raw * 8 + bnat x.inForce * 4 + bnat x.chatter * 2 + bnat x.stuck)
  | 0x18 => word s.log.length
  | 0x1C => word (s.store.failed.length * 2 ^ 16 + retiredOf s 1 * 2 ^ 8 + retiredOf s 0)
  | _ => w
def showRst (s : State) (off : Nat) (w : Word) : Word :=
  match off with
  | 0 => word ((s.flt.resets.foldl (fun a r => max a (domCode r.dom)) 0) * 2 ^ 28)
  | 4 => word s.store.cause
  | 8 => word s.store.resets
  | _ => w
def showKdl (s : State) (h off : Nat) (w : Word) : Word :=
  let f := 80 * h + regF s (rHalf h 0x18 8) 6 0 % 80
  let r := fieldRec s f
  match off with
  | 0 =>
    let st := if (mapFind s.flt.kindling h).isSome then 1 else if s.thm.await then 3 else bits w 31 28
    let waves := match mapFind s.flt.kindling h with | some k => k.waves | none => bits w 27 22
    word (st * 2 ^ 28 + waves * 2 ^ 22 + retiredOf s h * 2 ^ 8 + (80 - retiredOf s h))
  | 0xC => word (r.status * 2 ^ 30 + r.cause * 2 ^ 24 + r.wave * 2 ^ 18 + r.tester * 2 ^ 11)
  | 0x14 =>
    if r.status = 2 then 0
    else
      let (a, b) := bypass s f (regF s (rHalf h 0x18 0x10) 6 0)
      word (b * 2 ^ 7 + a)
  | 0x1C =>
    match (failedList s h)[regF s (rHalf h 0x18 0x18) 6 0]? with
    | none => 0
    | some (sh, c) => word (2 ^ 31 + c * 2 ^ 28 + sh / 36 % 80 * 2 ^ 6 + sh % 36)
  | _ => w

/-- Registers of a port die (R619, R621). -/
def showDrt (s : State) (d : Nat) (l : RegLoc) (w : Word) : Word :=
  match l.off with
  | 0x8 => setBits w 17 17 (bnat (isCoord s))
  | 0x114 => if d = 0 then word (s.rick.sweep.done % 2 ^ 32) else 0
  | 0x118 => if d = 0 then word (Config.moduleSerial.toNat % 2 ^ 32) else 0
  | 0x11C => if d = 0 then word (Config.moduleSerial.toNat / 2 ^ 32) else 0
  | _ => w

/-- What a register holds, with the fields that show live state (R12, R20). -/
def showReg (s : State) (l : RegLoc) : Word :=
  let w := reg s l
  match l.scope, l.blk with
  | 4, 1 => showCore s (ug (grainOfUnit l.unit)) l.off w
  | 4, 2 => showTally s (grainOfUnit l.unit) l.off w
  | 4, 3 =>
    let g := grainOfUnit l.unit
    if l.off = 0 then setBits w 24 16 (epochOf s (.grain g) % 512) else if l.off = 0x60 then word (spareWord s g) else w
  | 3, 1 =>
    if 0x80 ≤ l.off then word (gatedCount s (16 * sheafOfUnit l.unit + (l.off - 0x80) / 4)) else showCore s (ub (sheafOfUnit l.unit)) l.off w
  | 3, 5 => if l.off = 4 then setBits w 5 4 (min 3 (wnw s (sheafOfUnit l.unit)).jobs.length) else w
  | 2, 0xA | 0, 0xA => showGry s l w
  | 5, 4 => showFlue s (l.unit - 0x10) l.off w
  | 5, 7 =>
    if l.off = 0 then
      let t := l.unit - 0x18
      let used := (s.hop.entries.filter (fun e => e.1 / 32768 == t && e.2.st != .free)).length
      let pend := (s.hop.charges.filter (fun c => segTable s c.part == t)).length
      word (pend * 2 ^ 16 + used)
    else w
  | 5, 0x10 => showDrt s (l.unit - 0x18) l w
  | 6, 7 | 6, 8 | 6, 9 => showServe s l.unit l.blk l.off l.sel w
  | 6, 0xE =>
    if l.off = 0 then word (bnat (l.unit == 0) * 2 ^ 6 + l.unit)
    else if l.off = 0x20 then mapGet 0 s.sheafMap (16 * l.unit + l.sel) else w
  | 0, 0xD => showImg s l.off l.sel w
  | 0, 0x11 =>
    match l.off with
    | 0x8 => word (s.time % 2 ^ 32)
    | 0xC => word (s.time / 2 ^ 32)
    | 0x10 => word (s.beat % 2 ^ 32)
    | 0x14 => word (s.beat / 2 ^ 32)
    | 0x24 => if cadState s = 3 then word ((s.time - s.cad.holdFrom) / 1000000000) else if cadState s = 4 then w else 0
    | _ => w
  | 0, 0x12 =>
    if l.off = 0x24 then
      match mapFind s.store.figs (512 * (l.sel % 8) + l.sel / 8) with
      | some (a, b) => word (b * 2 ^ 16 + a)
      | none => 0
    else if l.off = 0x28 then word s.store.commits else w
  | 0, 0x13 => showPwr s l.off w
  | 1, 0x13 => if l.off < 4 ∨ l.off ≥ 0x1C then w else showPwrF s (80 * (l.unit / 2 ^ 21) + l.sel) l.off w
  | 0, 0x14 => showEmb s l.off w
  | 0, 0x15 => showThm s l.off l.sel w
  | 0, 0x16 => showFlt s l.off l.sel w
  | 0, 0x17 => showRst s l.off w
  | 1, 0x18 => showKdl s (l.unit / 2 ^ 21) l.off w
  | _, _ => w

/-! ### Reads -/

/-- The selector value of a windowed register: its selector fields, the first lowest. -/
def selOf (s : State) (l : RegLoc) (fs : List (Nat × Nat × Nat)) : Nat :=
  (fs.foldl (fun (a : Nat × Nat) f =>
    (a.1 + regF s { l with off := f.1, sel := 0 } f.2.1 f.2.2 * 2 ^ a.2, a.2 + f.2.1 + 1 - f.2.2)) (0, 0)).1
/-- A register of an address with its selector value. -/
def located (s : State) (l : RegLoc) : RegLoc :=
  match regRowAt l with
  | some r => { l with sel := selOf s l r.sel }
  | none => l
/-- The word a register reads as: reserved bits and offsets that no map defines read 0 (R15, R16). -/
def regWord (s : State) (l : RegLoc) : Word :=
  match regRowAt l with
  | some r => showReg s l &&& word (r.rw ||| r.w1c ||| r.rc ||| r.ro)
  | none => 0

/-- The 64-bit quantities: scope, block, offset of the low word, and whether they are RW (R18, R19). The high word is next. -/
def pairs : List (Nat × Nat × Nat × Bool) :=
  [(4, 1, 0x24, false), (6, 7, 0x24, true), (0, 0xD, 0x4, false), (0, 0xD, 0x14, false), (0, 0xD, 0x1C, false),
    (6, 0xF, 0x10, true), (6, 0xF, 0x18, true), (6, 0xF, 0x2C, true), (5, 0x10, 0xC, false), (5, 0x10, 0x104, true),
    (5, 0x10, 0x118, false), (0, 0xC, 0x10, false), (0, 0x11, 0x8, false), (0, 0x11, 0x10, false)]
/-- The pair whose low word a register is: whether it is RW. -/
def lowOf (l : RegLoc) : Option Bool :=
  if (regRowAt l).isNone then none else
  (pairs.find? (fun p => p.1 == l.scope && p.2.1 == l.blk && p.2.2.1 == l.off)).map (fun p => p.2.2.2)
/-- The pair whose high word a register is. -/
def highOf (l : RegLoc) : Option Bool :=
  if (regRowAt l).isNone then none else
  (pairs.find? (fun p => p.1 == l.scope && p.2.1 == l.blk && p.2.2.1 + 4 == l.off)).map (fun p => p.2.2.2)
/-- The key of a quantity: its low word's. -/
def pairKey (l : RegLoc) (low : Bool) : Nat := regKey (if low then l else { l with off := l.off - 4 })
/-- The latch of an initiator for a quantity: of a read, or of a write that is held. -/
def latchOf (s : State) (i : Initiator) (k : Nat) (read : Bool) : Option Word :=
  (s.latches.find? (fun x => x.ini == i && x.addr == k && x.read == read)).map (fun x => x.val)
def dropLatch (s : State) (i : Initiator) (k : Nat) (read : Bool) : State :=
  { s with latches := s.latches.filter (fun x => !(x.ini == i && x.addr == k && x.read == read)) }
def putLatch (s : State) (i : Initiator) (k : Nat) (read : Bool) (v : Word) : State :=
  { dropLatch s i k read with latches := ⟨k, i, read, v⟩ :: (dropLatch s i k read).latches }

/-- A read clears the RC fields of the word, which then hold what hardware put there in the same cycle (R14, R17); that of an Ergot row
counter clears its FIRED bit too (R171). -/
def clearRc (s : State) (l : RegLoc) (hw : Word) : State :=
  match regRowAt l with
  | none => s
  | some r =>
    if r.rc = 0 then s
    else if l.scope = 3 ∧ l.blk = 1 ∧ 0x80 ≤ l.off then setGated s (16 * sheafOfUnit l.unit + (l.off - 0x80) / 4) hw.toNat s.cycle
    else
      let s1 := setReg s l ((reg s l &&& ~~~(word r.rc)) ||| (hw &&& word r.rc))
      if l.scope = 6 ∧ l.blk = 0x19 ∧ 0x14 ≤ l.off ∧ l.off ≤ 0x20 then
        let k := (l.off - 0x14) / 4
        setRegF s1 { l with off := 0x34 } k k 0
      else s1

/-- A read of a register by an initiator (R12, R14, R17, R18). -/
def readReg (s : State) (i : Initiator) (l0 : RegLoc) (hw : Word := 0) : Word × State :=
  let l := located s l0
  match (highOf l).bind (fun _ => latchOf s i (pairKey l false) true) with
  | some v => (v, dropLatch s i (pairKey l false) true)
  | none =>
    let v := regWord s l
    let s1 := clearRc s l hw
    match lowOf l with
    | some _ => (v, putLatch s1 i (pairKey l true) true (regWord s1 { l with off := l.off + 4 }))
    | none => (v, s1)

/-! ### Writes -/

/-- The state a meaning answers. -/
def after (o : Out) (s : State) : State := match o with | .next t => t | _ => s

/-- A write of a register that has a command of its own acts as that command; none for every other register. -/
def writeOwn (s : State) (i : Initiator) (l : RegLoc) (v : Word) : Option State :=
  let g : GrainId := Fin.ofNat 1474560 (grainOfUnit l.unit)
  let sh : SheafId := Fin.ofNat 5760 (sheafOfUnit l.unit)
  let run := fun (u : Issuer) => if bit v 0 then execGrnRunStart i u v s else execGrnRunHalt i u v s
  let o : Option Out :=
    match l.scope, l.blk, l.off with
    | 4, 1, 0x4 => some (run (.grain g))
    | 4, 1, 0x1C => some (execCodeLoad i g v s)
    | 3, 1, 0x0 => some (run (.binder sh))
    | 3, 1, 0x18 => some (execEarPowerWrite i sh v s)
    | 4, 2, 0xB8 =>
      some (match bits v 21 20 with | 0 => execTlyCmdSet i g v s | 1 => execTlyCmdClrerr i g v s | _ => .next s)
    | 4, 2, 0xBC =>
      some (match bits v 29 28 with | 0 => execCwCmdSet i g v s | 1 => execCwCmdRet i g v s | 2 => execCwCmdClose i g v s | _ => .next s)
    | 4, 3, 0x0 => some (execRtrFenceWrite i g v s)
    | 4, 3, o => if 0x100 ≤ o ∧ o < 0x200 then some (execRtrTagWrite i g (Fin.ofNat 64 ((o - 0x100) / 4)) v s) else none
    | 5, 4, 0xC => some (execFluRouteWrite i (Fin.ofNat 8 (l.unit - 0x10)) false v s)
    | 5, 4, 0x10 => some (execFluRouteWrite i (Fin.ofNat 8 (l.unit - 0x10)) true v s)
    | 3, 5, 0xE4 =>
      some (match bits v 31 30 with | 1 => execChaffCommit i sh v s | 2 => execChaffRollback i sh v s | _ => .next s)
    | 3, 6, 0x8 => some (execGlnLabInv i sh v s)
    | 6, 0x19, 0x8 => some (execErgSrReseed i (Fin.ofNat 64 l.unit) v s)
    | 5, 0xB, 0x44 => some (execBinWinWrite i (Fin.ofNat 16 l.unit) v s)
    | 0, 0xC, 0x18 => some (execCribSlotForget i v s)
    | 0, 0xC, 0x20 => some (execCrbAllocWrite i v s)
    | _, _, _ => none
  o.map (fun o => after o s)

/-- What clears with a flag that a write has cleared: the record of the first finding (R121, R125, R268, R321, R518). -/
def clearsWith (s : State) (l : RegLoc) : State :=
  let w := reg s l
  match l.scope, l.blk, l.off with
  | 4, 1, 0x14 => if w = 0 then setRegF s { l with off := 0x18 } 31 31 0 else s
  | 3, 1, 0x10 => if w = 0 then setRegF s { l with off := 0x14 } 31 31 0 else s
  | 4, 2, 0xA0 => if bit w 5 then s else setRegF s { l with off := 0xA4 } 31 31 0
  | 4, 3, 0x4 => if bit w 0 then s else setRegF s l 11 8 0
  | 5, 0xB, 0x4 => if bit w 0 then s else setRegF s { l with off := 0x10 } 31 31 0
  | _, _, _ => s

/-- A model row that a write has made LIVE ends its run of rises of WANTED (R392). -/
def rowLive (s : State) (l : RegLoc) : State :=
  if l.scope = 6 ∧ l.blk = 7 ∧ l.off = 0x64 ∧ rowState s l.unit l.sel = 1 then
    setHpart s l.unit { hpart s l.unit with wanted := setDel (hpart s l.unit).wanted l.sel }
  else s

/-- RW fields take the value, W1C bits written 1 are cleared unless hardware sets them in the same cycle, and every other bit is
unchanged (R12, R13, R15). A model row's slots are not written while some are held (R431). -/
def putReg (s : State) (l : RegLoc) (v hw : Word) : State :=
  match regRowAt l with
  | none => s
  | some r =>
    if l.scope = 6 ∧ l.blk = 7 ∧ l.off = 0x68 ∧ rowHeld s l.unit l.sel ≠ 0 then s
    else
      let w := reg s l
      let rw := word r.rw
      let wc := word r.w1c
      rowLive (clearsWith (setReg s l ((w &&& ~~~(rw ||| wc)) ||| (v &&& rw) ||| (w &&& wc &&& ~~~v) ||| (hw &&& wc))) l) l

/-- A write of a register by an initiator that may reach it (R12, R13, R16, R19); PRT_KEYS is RO but to physical function 0 and over the
management ring (R568). -/
def writeReg (s : State) (i : Initiator) (l0 : RegLoc) (v : Word) (hw : Word := 0) : State :=
  let l := located s l0
  match writeOwn s i l v with
  | some t => t
  | none =>
    match lowOf l, highOf l with
    | some true, _ => putLatch s i (pairKey l true) false v
    | _, some true =>
      let k := pairKey l false
      let s1 := match latchOf s i k false with
        | some lo => putReg s { l with off := l.off - 4 } lo 0
        | none => s
      putReg (dropLatch s1 i k false) l v hw
    | _, _ => if l.scope = 6 ∧ l.blk = 0xE ∧ l.off = 0x14 ∧ !ownsPorts i then s else putReg s l v hw

/-! ### Host windows (R572 to R574) -/

/-- Where a host access goes: a register address, a doorbell, or nothing (it reads 0 and ignores writes). A number from 2^47 + 7 ×
2^44 on is an offset in BAR 0, or with bit 26 set in BAR 2; any other is the register address itself (log 43). BAR 4 holds no registers (log 121). -/
inductive HostTo where
  | reg (a : Nat)
  | doorbell (r : Nat)
  | nothing
  deriving DecidableEq, Repr

def hostTo (s : State) (fn port a : Nat) : HostTo :=
  if a < 15 * 2 ^ 44 then .reg a
  else
    let o := nbits a 25 0
    let base := 8 * 2 ^ 44
    if nbits a 26 26 = 0 then
      if o < 0x1000 then .reg (base + 6 * 2 ^ 40 + fn * 2 ^ 18 + 0xF * 2 ^ 12 + o)
      else if o < 0x1040 ∧ o % 8 = 0 then .doorbell ((o - 0x1000) / 8) else .nothing
    else
      let w := reg s (rHst fn (0x80 + 0x40 * port + 4 * (o / 2 ^ 22)))
      let x := o % 2 ^ 22
      let scope := bits w 29 26
      let unit := bits w 21 0
      if !bit w 31 then .nothing
      else if !bit w 30 then (if x ≤ 0x3FFFF then .reg (base + scope * 2 ^ 40 + unit * 2 ^ 18 + x) else .nothing)
      else if scope ≠ 3 ∨ nbits x 13 12 = 0 then .nothing
      else .reg (base + 4 * 2 ^ 40 + (unit / 256 * 256 + nbits x 21 14) * 2 ^ 18 + x % 2 ^ 14)

/-- Where an initiator's access goes. -/
def accessTo (s : State) (i : Initiator) (a : Nat) : HostTo :=
  match i with
  | .host fn port => hostTo s fn port a
  | _ => .reg a

/-- The address after translation (R556). -/
def accessAddr (s : State) (i : Initiator) (a : Nat) : Nat :=
  match iniPart s i with
  | some p => xlatAddr s p a
  | none => a

/-! ### The commands -/

/-- The word an initiator's read returned. -/
def answerRead (s : State) (i : Initiator) (v : Word) : State :=
  { s with regResp := (i, v) :: s.regResp.filter (fun e => e.1 != i) }

/-- The bits of the bytes that a read addresses (R17). -/
def byteMask (be : BitVec 4) : Word := word (packFields ((List.range 4).map (fun k => (8, if be.getLsbD k then 0xFF else 0))))
/-- A read of an address by an initiator (R17, R51 to R57): it reads the full word and returns the bytes addressed. A fault reads as
zero, and so does a unit that is gone (R56). -/
def readAt (s : State) (i : Initiator) (a0 : Nat) (be : BitVec 4) (hw : Word) : State :=
  match accessTo s i a0 with
  | .reg a1 =>
    let a := accessAddr s i a1
    match regAddrFault s i a with
    | some r => answerRead (regFault s i a1 r) i 0
    | none =>
      if unitGone s i (locOf a) then answerRead s i 0
      else
        let (v, s1) := readReg s i (locOf (a / 4 * 4)) hw
        answerRead s1 i (v &&& byteMask be)
  | _ => answerRead s i 0

/-- A write of an address by an initiator (R17, R51 to R57). -/
def writeAt (s : State) (i : Initiator) (a0 : Nat) (be : BitVec 4) (v hw : Word) : State :=
  match i with
  | .damper true => { s with standbyWrites := s.standbyWrites + 1 }
  | _ =>
    match accessTo s i a0 with
    | .nothing => s
    | .doorbell r =>
      match i with
      | .host fn _ => if be != 15#4 then s else after (execDoorbell fn (Fin.ofNat 8 r) (BitVec.ofNat 16 (bits v 15 0)) s) s
      | _ => s
    | .reg a1 =>
      let a := accessAddr s i a1
      match regAddrFault s i a with
      | some r => regFault s i a1 r
      | none => if be != 15#4 || unitGone s i (locOf a) then s else writeReg s i (locOf (a / 4 * 4)) v hw

/-- REGISTER_WRITE (R12, R13, R15 to R17). `hw` holds the W1C bits that hardware sets in the same cycle. -/
def execRegisterWrite (ini : Initiator) (addr : BitVec 48) (be : BitVec 4) (value : Word) (hw : Word) (s : State) : Out :=
  .next (writeAt s ini addr.toNat be value hw)

/-- RC_FIELD_READ (R14, R17). `hw` holds what hardware counts into the RC fields in the same cycle. -/
def execRcFieldRead (ini : Initiator) (a : RegBytes) (hw : Word) (s : State) : Out :=
  .next (readAt s ini a.addr.toNat a.be hw)

/-- LOW_WORD_READ (R18). -/
def execLowWordRead (ini : Initiator) (a : RegBytes) (s : State) : Out := .next (readAt s ini a.addr.toNat a.be 0)

/-- LOW_WORD_WRITE (R19). -/
def execLowWordWrite (ini : Initiator) (addr : BitVec 48) (value : Word) (s : State) : Out :=
  .next (writeAt s ini addr.toNat 15 value 0)

/-- HIGH_WORD_WRITE (R19). -/
def execHighWordWrite (ini : Initiator) (addr : BitVec 48) (value : Word) (s : State) : Out :=
  .next (writeAt s ini addr.toNat 15 value 0)

/-- REG_REQ: a binder's access arrives at the unit's port and is answered (R114, R278); a port that drains answers GONE (R313), and
so does a grain of an ear that is not ON (R111). -/
def execRegReq (f : Flight) (s : State) : Out :=
  .next (arrive .regReq f s (fun s =>
    let r := f.at_.val
    let p := f.pkt
    let l := locOf p.addr.toNat
    let i : Initiator := .binder (Fin.ofNat 5760 (sheafOfGrain (atCoord p.src)))
    let port : Port := if l.scope = 4 then .grain (grainOfUnit l.unit) else .sheaf (sheafOfUnit l.unit)
    if drains s port || unitGone s i l then sendGone s r port p
    else if p.len = 0 then
      let (v, s1) := readReg s i (locOf (p.addr.toNat / 4 * 4))
      reply s1 r p .regResp 0 0 [(BitVec.ofNat 128 v.toNat, false)]
    else
      let v := word (((p.body.headD (0, false)).1).toNat % 2 ^ 32)
      reply (writeReg s i (locOf (p.addr.toNat / 4 * 4)) v) r p .regResp 0 0 [(0, false)]))

end Sys2Proof.Machine
end

