-- ==== Sys2Proof/Machine/Image.lean ====
section
/-!
DEFINITION. Brix images (R520 to R551): the layout and its checks, what a section may write, applying sections, loading and
unloading, and the key store.
-/
namespace Sys2Proof.Machine

/-! ### Layout (R520 to R529) -/

/-- Bytes of an image as a number. -/
def imgNum (b : List Byte) (o n : Nat) : Nat := ofBytes ((b.drop o).take n)
/-- A body as entries of n bytes. -/
def entries (n : Nat) (b : List Byte) : List Nat := (List.range (b.length / n)).map (fun k => imgNum b (n * k) n)

/-- The entry of a section table, with its body (R522). -/
def section_ (b : List Byte) (k : Nat) : Section :=
  let r0 := imgNum b (64 + 32 * k) 16
  let r1 := imgNum b (80 + 32 * k) 16
  { kind := nbits r0 127 120, part := nbits r0 119 114, glob := nbits r0 113 113 == 1, index := nbits r0 111 96
    body := (b.drop (nbits r0 95 64)).take (nbits r0 63 32), target := nbits r1 127 80, rep := nbits r1 63 63 == 1
    half := nbits r1 62 62, x := nbits r1 61 52, y := nbits r1 51 42, w := nbits r1 41 32 + 1, h := nbits r1 31 22 + 1 }

/-- The groups of a LOADS body: handle and descriptors; none where the body does not divide into groups (R528). -/
def groups : Nat → List Byte → Option (List (Nat × List (BitVec 128 × BitVec 128)))
  | 0, b => if b = [] then some [] else none
  | m + 1, b =>
    if b = [] then some []
    else
      let h := imgNum b 0 32
      let n := nbits h 111 96
      let rest := b.drop 32
      if b.length < 32 + 32 * n ∨ nbits h 95 0 ≠ 0 ∨ h / 2 ^ 128 ≠ 0 then none
      else
        let ds := (List.range n).map (fun k => (BitVec.ofNat 128 (imgNum rest (32 * k) 16), BitVec.ofNat 128 (imgNum rest (32 * k + 16) 16)))
        (groups m (rest.drop (32 * n))).map (fun l => (nbits h 127 112, ds) :: l)
/-- The groups of a section. -/
def groupsOf (x : Section) : List (Nat × List (BitVec 128 × BitVec 128)) := (groups x.body.length x.body).getD []

/-- A PARTITIONS entry (R526). -/
structure PartEnt where
  part  : Nat
  x0    : Nat
  y0    : Nat
  w     : Nat
  h     : Nat
  ns    : Option Nat
  table : Nat
  base  : Nat
  size  : Nat
  most  : Nat
  deriving DecidableEq, Repr

/-- The VALID entries of a PARTITIONS body (R526). -/
def partEnts (x : Section) : List PartEnt :=
  ((entries 16 x.body).filter (fun e => nbits e 127 127 == 1)).map (fun e =>
    { part := nbits e 126 121, x0 := nbits e 120 114, y0 := nbits e 113 108, w := nbits e 107 101, h := nbits e 100 95
      ns := if nbits e 94 94 = 1 then some (nbits e 93 86) else none
      table := nbits e 85 85, base := nbits e 84 70, size := nbits e 69 54, most := nbits e 53 46 })
/-- The VALID entries of a RESERVE body: entry number, column, row (R527). -/
def resEnts (x : Section) : List (Nat × Nat × Nat) :=
  (((entries 4 x.body).zipIdx).filter (fun e => nbits e.1 31 31 == 1)).map (fun e => (e.2, nbits e.1 12 6, nbits e.1 5 0))
/-- True when a sheaf lies in a partition's rectangle (R526, R534). -/
def PartEnt.has (e : PartEnt) (sh : Nat) : Bool :=
  e.x0 ≤ sheafCol sh && sheafCol sh < e.x0 + e.w && e.y0 ≤ sheafRow sh && sheafRow sh < e.y0 + e.h
/-- The sheaves of a partition's rectangle. -/
def PartEnt.sheaves (e : PartEnt) : List Nat :=
  (List.range e.h).flatMap (fun j => (List.range e.w).map (fun i => sheafAt (e.x0 + i) (e.y0 + j)))
/-- The entries of an image's PARTITIONS section. -/
def imageParts (im : Image) : List PartEnt := (im.secs.filter (fun x => x.kind == 1)).flatMap partEnts

/-- The rules of R522 to R529 that a section table entry and its body break; a RESERVE_MAX over 32 is one (R526, log 122). -/
def secBad (b : List Byte) (len n : Nat) (patch : Bool) (part k : Nat) : Bool :=
  let r0 := imgNum b (64 + 32 * k) 16
  let r1 := imgNum b (80 + 32 * k) 16
  let x := section_ b k
  let off := nbits r0 95 64
  let blen := nbits r0 63 32
  let es := entries 16 x.body
  nbits r0 112 112 != 0 || nbits r0 31 0 != 0 || nbits r1 79 64 != 0 || nbits r1 21 0 != 0 ||
    x.kind == 0 || x.kind > 6 || off % 64 != 0 || blen % 16 != 0 || off < 64 + 32 * n || off + blen > len - 128 ||
    (x.kind != 4 && x.target != 0) || (!x.rep && nbits r1 62 22 != 0) ||
    (x.rep && (x.x + x.w > 960 || x.y + x.h > 768 || (x.kind != 3 && x.kind != 4) || (x.kind == 4 && x.target ≥ 2 ^ 16))) ||
    (patch && (x.glob || x.part != part || x.kind < 3 || x.kind == 6)) ||
    (!patch && (if x.kind ≤ 2 then !x.glob else x.kind ≥ 5 && x.glob)) ||
    (match x.kind with
     | 1 => es.any (fun e => nbits e 45 0 != 0 || (nbits e 127 127 == 1 && nbits e 53 46 > 32))
     | 2 => (entries 4 x.body).any (fun e => nbits e 30 13 != 0)
     | 3 => es.any (fun e => nbits e 47 0 != 0 || (x.rep && (nbits e 127 124 != 8 || nbits e 123 120 != 4)))
     | 5 => (groups x.body.length x.body).isNone
     | 6 => (entries 4 x.body).any (fun e => e ≥ 2 ^ 14 || !sheafCodeOk e)
     | _ => false)

/-- True when two bodies overlap (R520). -/
def bodiesMeet (b : List Byte) (n : Nat) : Bool :=
  let span := fun (k : Nat) => (imgNum b (64 + 32 * k + 8) 4, imgNum b (64 + 32 * k + 4) 4)
  (List.range n).any (fun i => (List.range i).any (fun j =>
    let (p, m) := span i
    let (q, l) := span j
    m != 0 && l != 0 && p < q + l && q < p + m))

/-! ### Keys (R531, R532) -/

/-- A key slot is filled; slot 0 always is (R531). -/
def keyFilled (s : State) (k : Nat) : Bool := k == 0 || (k < 8 && (mapFind s.store.keys k).isSome)

/-! ### What a section may write (R541) -/

/-- The registers whose values come from the PARTITIONS section and from the owner (R541). -/
def partGiven (l : RegLoc) : Bool := l.scope == 6 && ((l.blk == 7 && l.off == 4) || (l.blk == 0xE && [4, 0x14, 0x18].contains l.off))

/-- A register write of a section is permitted (R541). -/
def regPerm (s : State) (glob : Bool) (p : Nat) (mine : Nat → Bool) (a : Nat) (v : Word) : Bool :=
  let l := locOf a
  match regRow l.scope l.blk l.off with
  | none => false
  | some r =>
    (regAddrFault s (.damper false) a).isNone && !partGiven l &&
      (if glob then r.rw != 0 || r.w1c != 0
       else if l.scope = 6 then l.unit == p
       else if l.scope = 3 then mine (sheafOfUnit l.unit)
       else if l.scope = 4 ∧ l.blk = 3 ∧ 0x100 ≤ l.off then bits v 27 22 == p
       else if l.scope = 4 then mine (sheafOfUnit l.unit)
       else l.scope == 5 && l.blk == 4 && (l.off == 8 || l.off == 0x10 || (l.off == 0xC && bits v 26 21 == p)))

/-- A window or allocation word written for a partition covers a unit (R500, R505). -/
def wordCovers (base end_ : Word → Nat) (p u : Nat) (w : Word) : Bool := winValid w && winPart w == p && base w ≤ u && u < end_ w

/-- A row a section writes is permitted (R541); windows count from when they are written, not from the beat they take effect. -/
def rowPerm (s : State) (glob : Bool) (p : Nat) (mine : Nat → Bool) (a : Nat) : Bool :=
  !addrReserved a && !addrUnmapped a && !addrReadOnly a &&
    (glob ||
      (match nbits a 47 44 with
       | 0 => mine (winSheaf a)
       | 1 => (List.range 16).any (fun k => wordCovers binBase binEnd p (nbits a 35 28) (reg s (rBin (nbits a 39 36) 0x44 k)))
       | 2 => (List.range 16).any (fun k => wordCovers crbBase crbEnd p (nbits a 38 30) (reg s (rAlloc (nbits a 41 39) k)))
       | _ => false))

/-! ### Applying a section (R524, R525, R545, R547) -/

/-- The grains of a section's rectangle (R524). -/
def rectGrains (x : Section) : List Nat :=
  (List.range x.h).flatMap (fun j => (List.range x.w).map (fun i => grainAt x.half (x.x + i) (x.y + j)))
/-- The register writes of a section, in order. -/
def secWrites (x : Section) : List (Nat × Word) :=
  let es := (entries 16 x.body).map (fun e => (nbits e 127 80, word (nbits e 79 48)))
  if x.rep then
    (rectGrains x).flatMap (fun g => es.map (fun e => (e.1 - nbits e.1 39 18 * 2 ^ 18 + grainUnit g * 2 ^ 18, e.2)))
  else es
/-- The rows a section writes: address and contents. -/
def secRows (x : Section) : List (Nat × BitVec 128) :=
  let rows := (entries 16 x.body).zipIdx
  let at_ := fun (a : Nat) => rows.map (fun e => ((a / 16 * 16 + 16 * e.2) % 2 ^ 48, BitVec.ofNat 128 e.1))
  if x.rep then
    (rectGrains x).flatMap (fun g => at_ (nbits (coordOf g) 20 20 * 2 ^ 37 + g / 9216 % 80 * 2 ^ 30 + g / 256 % 36 * 2 ^ 24 + g % 256 * 2 ^ 16 + x.target))
  else at_ x.target

/-- A sheaf takes writes: its half is up and it has not failed. -/
def sheafTakes (s : State) (sh : Nat) : Bool := halfUp s (halfOfSheaf sh) && !sheafFailed s sh

/-- The Damper writes a register for an image; none where the write faults (R318, R541, R545). The ports' FENCE and PART are not
an image's to write. -/
def imgReg (glob : Bool) (p : Nat) (s : State) (a : Nat) (v : Word) : Option State :=
  let l := locOf a
  let sh := sheafOfUnit l.unit
  if ((l.scope = 3 ∨ l.scope = 4) ∧ !sheafTakes s sh) ∨ unitGone s (.damper false) l then none
  else if l.scope = 4 ∧ l.blk = 3 ∧ l.off = 0 then some s
  else if !glob ∧ l.scope = 4 ∧ l.blk = 3 ∧ 0x100 ≤ l.off ∧ bit (reg s l) 31 ∧ bits (reg s l) 27 22 ≠ p then none
  else if !glob ∧ l.scope = 5 ∧ l.blk = 4 ∧ 0xC ≤ l.off then
    let b := l.unit - 0x10
    let e := flueEntry s b (flueSel s b).1 (flueSel s b).2
    if e.valid ∧ e.part.toNat ≠ p then none else some (writeReg s (.damper false) l v)
  else some (writeReg s (.damper false) l v)

/-- The Damper writes a row for an image; none where the write faults. A crib's answer is awaited by no unit. -/
def imgRow (s : State) (a : Nat) (r : BitVec 128) : Option State :=
  let sh := winSheaf a
  match nbits a 47 44 with
  | 0 =>
    if !sheafTakes s sh then none
    else if nbits a 38 38 = 1 then some (winRowPut sh s (nbits a 23 0, r, false))
    else
      let g := fabGrain a
      if earOn s (g / 16) then some (setGrain s g (spdPutRow (grain s g) (nbits a 15 4) (r, false))) else none
  | 1 => if drains s (.die (nbits a 39 36)) then none else some (binWrite s (nbits a 39 36) (nbits a 35 0 / 16 * 16) [(r, false)])
  | 2 =>
    if cribState s (nbits a 41 39) != 1 then none
    else
      let d := 0x18 + cribPort s (nbits a 41 39)
      let at_ := cribRouter s (nbits a 41 39) (nbits a 38 0)
      let rid := freeRid s at_
      let p : Packet := { type := .write, mc := false, tag := BitVec.ofNat 6 rid, dst := coordV at_, src := coordV at_
                          epoch := BitVec.ofNat 9 (epochOf s (.die d)), part := 0, len := 0, cw := 0, status := 0, tally := 0
                          addr := BitVec.ofNat 48 a, body := [(r, false)] }
      some (cribRequest { s with reqs := s.reqs ++ [⟨at_, rid, .host (d % 2) s.host.nextId 0 1⟩]
                                 host := { s.host with nextId := s.host.nextId + 1 } } at_ p)
  | _ => none

/-- Where a write goes: translated, restricted to a sheaf, or not made. -/
abbrev AddrMap := Nat → Option Nat
/-- A run of writes; it ends at the first that faults, or steps over it (`on`). -/
def runWrites {α : Type} (on : Bool) (f : State → α → Option State) : List α → State → State × Bool
  | [], s => (s, true)
  | x :: l, s =>
    match f s x with
    | some t => runWrites on f l t
    | none => if on then ((runWrites on f l s).1, false) else (s, false)

/-- Apply a REGS or FABRIC section through an address map; false where a write faulted. -/
def secApply (on : Bool) (m : AddrMap) (x : Section) (s : State) : State × Bool :=
  match x.kind with
  | 3 => runWrites on (fun s e => match m e.1 with | none => some s | some a => imgReg x.glob x.part s a e.2) (secWrites x) s
  | 4 => runWrites on (fun s e => match m e.1 with | none => some s | some a => imgRow s a e.2) (secRows x) s
  | _ => (s, true)

/-- Install PARTITIONS (R526, R545): the geometry, the namespace, the Hopper segment. -/
def installPart (s : State) (e : PartEnt) : State :=
  let s1 := setReg s (rPrt e.part 4) (word (e.x0 * 2 ^ 25 + e.y0 * 2 ^ 19 + e.w * 2 ^ 12 + e.h * 2 ^ 6))
  let s2 := setReg s1 (rPrt e.part 0x18) (word (match e.ns with | some n => 2 ^ 31 + n | none => 0))
  let s3 := setReg s2 (rHop e.part 4) (word (e.table * 2 ^ 31 + e.base * 2 ^ 16 + e.size))
  setReg (setReg s3 (rPrt e.part 0x28) (word (e.most * 2 ^ 8))) (rPrt e.part 8) 1
/-- Install RESERVE (R527, R549). -/
def installReserves (s : State) (x : Section) : State :=
  setImg s { s.img with reserves := (resEnts x).foldl (fun m e => mapInsert m e.1 { sh := sheafAt e.2.1 e.2.2 }) [] }

/-- A section of a FULL image as R545 step 4 applies it. -/
def fullSec (on : Bool) (s : State) (x : Section) : State × Bool :=
  match x.kind with
  | 1 => ((partEnts x).foldl installPart s, true)
  | 2 => (installReserves s x, true)
  | _ => secApply on some x s
/-- The sections from one on, in table order; the index of the section at which a write faulted, if one did. -/
def fullSecs : List Section → Nat → State → State × Option Nat
  | [], _, s => (s, none)
  | x :: l, k, s =>
    let (t, ok) := fullSec false s x
    if ok then fullSecs l (k + 1) t else (t, some k)

/-- A section's targets are permitted, given the state in which it is applied (R533, R541). -/
def secPerm (s : State) (mine : Nat → Bool) (x : Section) : Bool :=
  match x.kind with
  | 3 => (secWrites x).all (fun e => regPerm s x.glob x.part mine e.1 e.2)
  | 4 => (secRows x).all (fun e => rowPerm s x.glob x.part mine e.1)
  | _ => true
/-- The first section whose targets are not permitted. -/
def permFault (mine : Nat → Nat → Bool) (go : State → Section → State) : List Section → Nat → State → Option Nat
  | [], _, _ => none
  | x :: l, k, s => if secPerm s (mine x.part) x then permFault mine go l (k + 1) (go s x) else some k

/-! ### The checks (R533) -/

/-- The first check of R535 that a FULL image breaks: the index of the section concerned. -/
def geometryFault (s : State) (im : Image) : Option Nat :=
  let ip := im.secs.findIdx (fun x => x.kind == 1)
  let ir := im.secs.findIdx (fun x => x.kind == 2)
  let ps := imageParts im
  let rs := (im.secs.filter (fun x => x.kind == 2)).flatMap resEnts
  let bad := reserveBad s
  let pairs := ps.zipIdx.flatMap (fun e => (ps.drop (e.2 + 1)).map (fun f => (e.1, f)))
  let part := ps.any (fun e => e.x0 + e.w > 120 || e.y0 + e.h > 48 || e.w * e.h < 4 || e.base + e.size > 32768) ||
    pairs.any (fun (e, f) => e.part == f.part ||
      (e.x0 < f.x0 + f.w && f.x0 < e.x0 + e.w && e.y0 < f.y0 + f.h && f.y0 < e.y0 + e.h) ||
      (e.table == f.table && e.base < f.base + f.size && f.base < e.base + e.size)) ||
    (ps.map PartEnt.most).sum > rs.length
  if part || ps.any (fun e => e.sheaves.any bad) then some ip
  else
    let at_ := rs.map (fun e => sheafAt e.2.1 e.2.2)
    if rs.any (fun e => e.2.1 ≥ 120 || e.2.2 ≥ 48) || at_.any (fun sh => bad sh || ps.any (fun e => e.has sh)) ||
        [0, 1].any (fun h => (at_.filter (fun sh => halfOfSheaf sh == h)).length > 96) then some ir
    else none

/-- NS_ABSENT (R533): a namespace to be bound does not exist, or the image binds it to two partitions. -/
def nsFault (s : State) (im : Image) : Bool :=
  let ns := (imageParts im).filterMap PartEnt.ns
  ns.any (fun n => (mapFind s.granary.spaces n).isNone || ns.count n > 1)

/-- True for a FULL image whose kinds occur as R523 and whose START sections name their partition's sheaves as R529 say. -/
def fullKinds (im : Image) : Bool :=
  let n := fun (k : Nat) => (im.secs.filter (fun x => x.kind == k)).length
  n 1 == 1 && n 2 == 1 && (List.range 64).all (fun p => (im.secs.filter (fun x => x.kind == 6 && x.part == p)).length ≤ 1) &&
    im.secs.all (fun x => x.kind != 6 || (entries 4 x.body).all (fun e =>
      (imageParts im).any (fun q => q.part == x.part && q.has (sheafOfCode e))))

/-- The checks of R533, in order, on an image staged by a function: the image, or the status and the section concerned. What
step 9 checks is given. -/
def checkImage (s : State) (fn : Nat) (patch : Bool) (b : List Byte) (sig : Bool) (perm : Image → Option Nat) :
    Except (Nat × Nat) Image :=
  let len := b.length
  let r0 := imgNum b 0 16
  let r1 := imgNum b 16 16
  let part := nbits r1 15 10
  let slot := nbits r0 71 64
  let n := nbits r1 31 16
  let im : Image := { patch := patch, slot := slot, id := nbits r0 63 0, base := nbits r1 127 64, part := part
                      secs := (List.range n).map (section_ b) }
  let keys := rPrt part 0x14
  if len < 64 ∨ len % 64 ≠ 0 ∨ nbits r0 127 96 ≠ 0xB61C0D2E ∨ nbits r0 95 80 ≠ 1 ∨ nbits r0 79 72 ≠ 1 + bnat patch ∨
      nbits r1 63 32 ≠ len then .error (0x22, 0xFFFF)
  else if fn ≠ 0 ∧ fn ≠ part then .error (0x26, 0xFFFF)
  else if !keyFilled s slot ∨ (patch ∧ (!regBit s keys slot ∨ (fn ≠ 0 ∧ !regBit s keys 31))) then .error (0x21, 0xFFFF)
  else if !sig then .error (0x20, 0xFFFF)
  else
    let head := nbits r1 9 0 != 0 || imgNum b 32 8 != 0 || imgNum b 48 16 != 0 || n == 0 || n > 4096 ||
      64 + 32 * n + 128 > len || (!patch && (im.base != 0 || part != 0)) || imgNum b (len - 32) 32 != 0
    if head then .error (0x22, 0xFFFF)
    else
      match (List.range n).find? (secBad b len n patch part) with
      | some k => .error (0x22, k)
      | none =>
        if bodiesMeet b n || (!patch && !fullKinds im) then .error (0x22, 0xFFFF)
        else if patch && (s.img.image.map (fun x => x.id)) != some im.base then .error (0x24, 0xFFFF)
        else
          match (if patch then none else geometryFault s im) with
          | some k => .error (0x23, k)
          | none =>
            if !patch && nsFault s im then .error (0x25, im.secs.findIdx (fun x => x.kind == 1))
            else
              match perm im with
              | some k => .error (0x26, k)
              | none => .ok im

/-- The bytes of an image that a verb names: SRC_KIND, LENGTH and SRC_ADDR (R542). -/
def imgBytes (s : State) (v : Verb) (n : Nat) (given : Option (List Byte)) : Option (List Byte) :=
  (srcBytes s v.fn (bit v.op0 0) (bits v.op1 63 0) n given).map (fun m => (List.range n).map (memRead m))

/-- ADDR_FAULT of an image verb's source (R53). -/
def imgSay (s : State) (v : Verb) (n : Nat) : State := srcSay s v (bit v.op0 0) (bits v.op1 63 0) n

/-! ### Verbs in general (R542 to R544) -/

/-- Image verbs wait until the halves are kindled and journal replay is done; a lost half does not hold them (log 44). -/
def imgReady (s : State) : Bool := gryReady s && [0, 1].all (fun h => halfUp s h || (halfSt s h).lost)
/-- True while an image operation is in progress (R544). -/
def imgBusy (s : State) : Bool := s.img.op.isSome || s.img.loading.isSome
/-- IMG_STATUS.STATE and OP (R567). -/
def setImgState (s : State) (v : Nat) : State := setRegF s (rImg 0) 3 0 v
def setImgOp (s : State) (v : Nat) : State := setRegF s (rImg 0) 23 20 v
/-- An image verb completes (R543, R567). -/
def imgDone (s : State) (v : Verb) (status : Nat) (data : Nat := 0) : State := verbDone (setRegF s (rImg 0) 15 8 status) v status data
/-- An image verb by its number completes. -/
def imgEnd (s : State) (id status : Nat) (data : Nat := 0) : State :=
  match verbOf s id with
  | none => setRegF s (rImg 0) 15 8 status
  | some v => imgDone s v status data
/-- IMG_FAULT_SECTION (R567). -/
def sayFault (s : State) (k : Nat) : State := setReg s (rImg 0xC) (word (2 ^ 31 + k % 2 ^ 16))
/-- An image verb of the owner starts (R542, R544). -/
def ownerImg (code : Nat) (one : Bool) (fn : FnId) (ring : Fin 8) (s : State) (k : Verb → State → State) : Out :=
  .next (
    if !imgReady s && one then s
    else
      verbStart s fn ring code (fun v s =>
        if v.fn ≠ 0 then imgDone s v 0x26 else if one && imgBusy s then imgDone s v 0x2F else k v s))

/-! ### Unloading (R545 step 3, R548) -/

/-- A partition of the loaded image is reset at once and leaves (R545, R730, log 45). -/
def dropPart (s : State) (p : Nat) : State :=
  let s1 := beginPart s p []
  let shs := curSheaves s1 p
  let runs := s1.flt.resets.filter (fun r => r.dom == .part p)
  let s2 := setFlt s1 { s1.flt with resets := s1.flt.resets.filter (fun r => r.dom != .part p)
                                    fenceHeld := setDel s1.flt.fenceHeld p, halfHeld := setDel s1.flt.halfHeld p }
  let s3 := (runs.flatMap (fun r => r.verbs)).foldl (fun s id => verbEnd s id 0x19) (shs.foldl bumpSheaf (partReset s2 p))
  let s4 := (shs.filter (fun sh => !sheafFailed s3 sh)).foldl (recordSheaf .fenced) s3
  let s5 := { s4 with sheafMap := mapDrop (fun k => k / 16 == p) s4.sheafMap }
  [rPrt p 4, rPrt p 8, rPrt p 0x18, rPrt p 0x28, rHop p 4].foldl (fun s l => setReg s l 0) s5
/-- Every partition of the loaded image is reset, and every local port is in drain mode. -/
def dropImage (s : State) : State :=
  let s1 := ((List.range 64).filter (fun p => prtState s p != 0)).foldl dropPart s
  let s2 := [0, 1].foldl (fun s h => (openPorts s h).foldl (fun s g => setFence s g true) s) s1
  setFlt (setReg (setReg (setImg s2 {}) (rImg 0x1C) 0) (rImg 0x20) 0) { s2.flt with rescues := [] }

/-- IMAGE_UNLOAD (R548). -/
def execImageUnload (fn : FnId) (ring : Fin 8) (s : State) : Out :=
  ownerImg 0x61 true fn ring s (fun v s =>
    imgDone (setReg (setReg (setImgState (dropImage s) 0) (rImg 4) 0) (rImg 8) 0) v 0)

/-! ### Loading (R545 to R547) -/

/-- A LOADS group runs as a MODEL_LOAD of its handle in the partition's namespace (R528, R545, R560). -/
def groupRun (p k : Nat) (only : Option Nat) (s : State) (e : Nat × List (BitVec 128 × BitVec 128)) : State :=
  let key := 65536 * p + k % 65536
  match (boundNs s p).bind (fun n => (byHandle s n e.1).map (fun m => (n, m))) with
  | none => imageLoadFail s key 1
  | some (nsid, m) =>
    if pendingSt m then imageLoadFail s key 1
    else
      e.2.zipIdx.foldl (fun s d =>
        let r0 := d.1.1.toNat
        if only.isSome ∧ nbits r0 127 124 ≠ 0 then s
        else
          let off := nbits r0 123 80 + m.base * 2 ^ 24
          let row0 := r0 - nbits r0 123 80 * 2 ^ 80 + off % 2 ^ 44 * 2 ^ 80
          let q : LoadRun := { id := s.nextTag, ring := none, index := d.2, verb := none, img := some key, only := only
                               row0 := BitVec.ofNat 128 row0, row1 := d.1.2, nsid := nsid, part := p }
          match nsBlock s nsid (off / 2 ^ 24) with
          | none => imageLoadFail s key 1
          | some (r, _, _) => modRegion { s with nextTag := s.nextTag + 1 } r (fun g => { g with queue := g.queue ++ [q] })) s
/-- The LOADS groups of sections of a partition are queued, numbered in order. -/
def runLoads (p : Nat) (only : Option Nat) (s : State) (secs : List Section) : State :=
  ((secs.filter (fun x => x.kind == 5)).flatMap groupsOf).zipIdx.foldl (fun s e => groupRun p e.2 only s e.1) s
/-- True while loads of an image's groups for a partition go on. -/
def loadsLeft (s : State) (p : Nat) : Bool :=
  s.granary.regions.any (fun e => (e.2.runs ++ e.2.queue).any (fun q => (q.img.map (fun k => k / 65536)) == some p))

/-- The sections of a partition that R547 applies: those of the FULL image, each replaced by the latest applied patch section of
the same KIND, PART and INDEX. -/
def effective (s : State) (p : Nat) : List Section :=
  match s.img.image with
  | none => []
  | some im =>
    let newer := (s.img.patches.flatMap (fun x => x.secs)).reverse
    (im.secs.filter (fun x => !x.glob && x.part == p)).map (fun x =>
      (newer.find? (fun y => y.kind == x.kind && y.part == x.part && y.index == x.index)).getD x)

/-- What step 9 checks of a FULL image: each section's targets in the state that the ones before it leave (R541). -/
def fullPerm (s : State) (im : Image) : Option Nat :=
  let ps := imageParts im
  let mine := fun (p sh : Nat) => ps.any (fun e => e.part == p && e.has sh)
  permFault mine (fun s x => (fullSec true s x).1) im.secs 0 (dropImage s)

/-- An image that passed its checks takes the place of the one before: its sections are applied, and its LOADS start (R545). -/
def imageTake (s : State) (v : Verb) (im : Image) : State :=
  let s1 := dropImage s
  let s2 := setReg (setReg s1 (rImg 4) (word (im.id % 2 ^ 32))) (rImg 8) (word (im.id / 2 ^ 32))
  let s3 := setReg s2 (rImg 0xC) 0
  match fullSecs im.secs 0 s3 with
  | (t, some k) =>
    let t1 := imgDone (sayFault (setImgState t 6) k) v 0x28 im.id
    raise t1 .imageFailed none 0 0 [(64, im.id), (8, 0x28), (16, k)]
  | (t, none) =>
    let t1 := setImgOp (setImgState t 4) 1
    let ps := (imageParts im).map PartEnt.part
    let t2 := setImg t1 { t1.img with image := some im, loading := some (some v.id, false), starts := ps.map (fun p => { part := p }) }
    ps.foldl (fun s p => runLoads p none s (im.secs.filter (fun x => x.part == p))) t2

/-- IMAGE_LOAD (R545): steps 1 to 4 in this command, and the LOADS of step 5 queued. -/
def execImageLoad (fn : FnId) (ring : Fin 8) (bytes : Option (List Byte)) (sig : Bool) (s : State) : Out :=
  ownerImg 0x60 true fn ring s (fun v s =>
    let n := bits v.op0 63 32
    if n > 2 ^ 28 then imgDone (sayFault s 0xFFFF) v 0x27
    else
      match imgBytes s v n bytes with
      | none => imgDone (imgSay s v n) v 2
      | some b =>
        match checkImage s 0 false b sig (fullPerm s) with
        | .error (st, k) => imgDone (sayFault s k) v st
        | .ok im => imageTake s v im)

/-- A partition does not start (R546). -/
def partFailed (s : State) (p g why : Nat) : State :=
  let bit_ := rImg (0x1C + 4 * (p / 32))
  raise (orReg (setRegF s (rPrt p 8) 3 0 5) bit_ (2 ^ (p % 32))) .partitionFailed (some p) 6 p [(6, p), (16, g), (8, why)]

/-- A start whose loads failed ends: its verbs complete with PRT_STATE FAILED (R546, R746). -/
def startFailed (s : State) (t : Start) (e : Nat × Nat) : State :=
  let s1 := setImg (partFailed s t.part e.1 e.2) { s.img with starts := s.img.starts.filter (fun x => x.part != t.part) }
  t.verbs.foldl (fun s id => verbEnd s id 0 5) s1

/-- Sections of a partition are rebuilt after its reset, and its loads queued (R547). A write that faults leaves it FAILED. -/
def rebuildPart (verbs : List Nat) (s : State) (p : Nat) : State :=
  let secs := effective s p
  let s1 := setRegF (setImg s { s.img with starts := s.img.starts ++ [{ part := p, verbs := verbs, reset := true }] }) (rPrt p 8) 3 0 1
  let m : AddrMap := fun a => some (xlatAddr s p a)
  match secs.foldl (fun (a : State × Bool) x => if a.2 then secApply false m x a.1 else a) (s1, true) with
  | (t, true) => runLoads p none t secs
  | (t, false) => startFailed t { part := p, verbs := verbs, reset := true } (0xFFFF, 0)

/-- The START sheaves of a partition, where they are (R529, R556). -/
def startSheaves (s : State) (p : Nat) : List Nat :=
  ((effective s p).filter (fun x => x.kind == 6)).flatMap (fun x => (entries 4 x.body).map (fun e => xlatSheaf s p (sheafOfCode e)))

/-- A partition starts at a beat (R545 step 6, R547). -/
def startPart (s : State) (t : Start) : State :=
  let p := t.part
  let s1 := ((curSheaves s p).filter (fun sh => !sheafFailed s sh)).foldl (openSheaf p) s
  let s2 := (startSheaves s1 p).foldl (fun s sh => if sheafFailed s sh then s else runStart s (ub sh)) s1
  let s3 := setImg (setRegF (swingStart s2 p) (rPrt p 8) 3 0 2) { s2.img with starts := s2.img.starts.filter (fun x => x.part != p) }
  let s4 := if t.reset then setReg s3 (rPart p 0x17 4) (word (s.beat % 2 ^ 32)) else s3
  t.verbs.foldl (fun s id => verbEnd s id 0 2) s4

/-- FENCE_N holds every partition (R742). -/
def fenceN (s : State) : Bool := (mapGet {} s.flt.inputs 0).inForce

/-- Starts at a beat: those whose loads have ended (R545 to R547, R742, R748). -/
def startBeat (s : State) : State :=
  let go := fun (t : Start) => t.fail.isNone && !loadsLeft s t.part && !fenceN s
  let s1 := (s.img.starts.filter (fun t => t.reset && go t)).foldl startPart s
  match s1.img.loading with
  | some (id, true) =>
    let begun := s1.img.starts.filter (fun t => !t.reset && go t)
    let s2 := begun.foldl startPart s1
    let held := s2.img.starts.map (fun t => { t with reset := true })
    let s3 := setReg (setImgOp (setImgState (setImg s2 { s2.img with loading := none, starts := held }) 5) 0) (rImg 0x3C) (word (s.beat % 2 ^ 32))
    let n := (s3.img.image.map (fun x => x.id)).getD 0
    let some_ := reg s3 (rImg 0x1C) != 0 || reg s3 (rImg 0x20) != 0
    let s4 := match id with
      | some id => imgEnd s3 id (if some_ then 0x29 else 0) n
      | none => s3
    raise s4 .imageLoaded none 0 0 [(64, n), (32, s.beat % 2 ^ 32), (16, begun.length)]
  | _ => s1

/-! ### Keys (R531) -/

/-- KEY_CHANGED: the slot, enrolled (1) or revoked (2), the lock state. -/
def sayKey (s : State) (slot what : Nat) : State := raise s .keyChanged none 0 0 [(3, slot), (4, what), (1, bnat s.store.locked)]

/-- KEY_ENROLL (R531). -/
def execKeyEnroll (fn : FnId) (ring : Fin 8) (key : Option (List Byte)) (s : State) : Out :=
  ownerImg 0x66 false fn ring s (fun v s =>
    let k := bits v.op0 2 0
    if s.store.locked then imgDone s v 0x2D
    else if k = 0 then imgDone s v 2
    else
      match srcBytes s v.fn (bit v.op0 3) (bits v.op1 63 0) 96 key with
      | none => imgDone (srcSay s v (bit v.op0 3) (bits v.op1 63 0) 96) v 2
      | some m => imgDone (sayKey (setStore s { s.store with keys := mapInsert s.store.keys k (memGet m 0 96) }) k 1) v 0)
/-- KEY_REVOKE (R531). -/
def execKeyRevoke (fn : FnId) (ring : Fin 8) (s : State) : Out :=
  ownerImg 0x67 false fn ring s (fun v s =>
    let k := bits v.op0 2 0
    if s.store.locked then imgDone s v 0x2D
    else if k = 0 then imgDone s v 2
    else imgDone (sayKey (setStore s { s.store with keys := mapErase s.store.keys k }) k 2) v 0)
/-- The next verb of a ring is KEY_LOCK with a value of LOCK. -/
def lockNext (s : State) (fn ring : Nat) (on : Bool) : Bool :=
  match verbNext s fn ring 0x68 with
  | some v => bit v.op0 0 == on
  | none => false
/-- The lock of the key store changes (R531). -/
def setLocked (s : State) (on : Bool) : State :=
  if s.store.locked = on then s else sayKey (setStore s { s.store with locked := on }) 0 0
/-- KEY_LOCK with LOCK 1 (R531). -/
def execKeyLock (fn : FnId) (ring : Fin 8) (s : State) : Out :=
  if lockNext s fn ring true then ownerImg 0x68 false fn ring s (fun v s => imgDone (setLocked s true) v 0) else .next s
/-- KEY_LOCK with LOCK 0 (R531): the operand says whether the signature was read, and whether a filled slot verifies it; every
attempt draws a new nonce. -/
def execKeyUnlock (fn : FnId) (ring : Fin 8) (sig : Option Bool) (s : State) : Out :=
  if lockNext s fn ring false then
    ownerImg 0x68 false fn ring s (fun v s =>
      let (d, s1) := draw s
      let s2 := setStore s1 { s1.store with nonce := d }
      match srcBytes s v.fn (bit v.op0 1) (bits v.op1 63 0) 96 (sig.map (fun _ => [])), sig with
      | some _, some true => imgDone (setLocked s2 false) v 0
      | some _, some false => imgDone s2 v 0x20
      | _, _ => imgDone (srcSay s2 v (bit v.op0 1) (bits v.op1 63 0) 96) v 2)
  else .next s

end Sys2Proof.Machine
end

