-- ==== Sys2Proof/Machine/Relocate.lean ====
section
/-!
DEFINITION. Operations on running partitions (R552 to R566): staging, applying and dropping patches, quiescing, and relocation.
-/
namespace Sys2Proof.Machine

def setOp (s : State) (o : ImgOp) : State := setImg s { s.img with op := some o }
/-- The address a section writes while an operation moves a sheaf: translated, and the sheaf moved at its new place (R556, R557,
R564). -/
def opAddr (s : State) (o : ImgOp) (a : Nat) : Nat :=
  let b := xlatAddr s o.part a
  let rg := nbits b 47 44
  if !o.move then b
  else if rg = 0 ∧ winSheaf b = o.src then withSheaf b 37 30 24 o.dst
  else if rg = 8 ∧ (nbits b 43 40 = 3 ∨ nbits b 43 40 = 4) ∧ sheafOfUnit (keyUnit b) = o.src then withSheaf b 39 32 26 o.dst
  else b
/-- The sheaf an address names, if it names one in the fabric or by register. -/
def addrSheaf (a : Nat) : Option Nat :=
  let rg := nbits a 47 44
  if rg = 0 then some (winSheaf a)
  else if rg = 8 ∧ (nbits a 43 40 = 3 ∨ nbits a 43 40 = 4) then some (sheafOfUnit (keyUnit a)) else none

/-! ### Patches (R563 to R565) -/

/-- PATCH_STAGE (R563). -/
def execPatchStage (fn : FnId) (ring : Fin 8) (bytes : Option (List Byte)) (sig : Bool) (s : State) : Out :=
  .next (
    if !imgReady s then s
    else
      verbStart s fn ring 0x62 (fun v s =>
        let n := bits v.op0 63 32
        if imgBusy s then imgDone s v 0x2F
        else
          match (List.range 8).find? (fun k => (mapFind s.img.slots k).isNone) with
          | none => imgDone s v 0x2E
          | some k =>
            if n > 2 ^ 24 then imgDone (sayFault s 0xFFFF) v 0x27
            else
              match imgBytes s v n bytes with
              | none => imgDone (imgSay s v n) v 2
              | some b =>
                let mine := fun (p sh : Nat) => (rectSheaves s p).contains sh
                let perm := fun (im : Image) =>
                  permFault mine (fun t x => (secApply true (fun a => some (xlatAddr t im.part a)) x t).1) im.secs 0 s
                match checkImage s v.fn true b sig perm with
                | .error (st, j) => imgDone (sayFault s j) v st
                | .ok im => imgDone (setImg s { s.img with slots := mapInsert s.img.slots k (v.fn, im) }) v 0 k))

/-- PATCH_DROP (R565). -/
def execPatchDrop (fn : FnId) (ring : Fin 8) (s : State) : Out :=
  .next (
    if !imgReady s then s
    else
      verbStart s fn ring 0x64 (fun v s =>
        let k := bits v.op0 2 0
        if imgBusy s then imgDone s v 0x2F
        else
          match mapFind s.img.slots k with
          | none => imgDone s v 4
          | some (f, _) =>
            if f ≠ v.fn then imgDone s v 0x26
            else imgDone (setImg s { s.img with slots := mapErase s.img.slots k }) v 0))

/-! ### Quiescing (R552) -/

/-- PRT_CTRL.QUIESCE_BEATS; 0 acts as 1 (R568). -/
def quiesceBeats (s : State) (p : Nat) : Nat := max 1 (regF s (rPrt p 0xC) 7 0)
/-- The binder-memory offset of a partition's rest words (R568). -/
def restAt (s : State) (p : Nat) : Nat := regF s (rPrt p 0x10) 17 0 / 4 * 4
/-- The sheaves whose rest words count: a sheaf to be rescued, and one that has failed, are exempt (R560). -/
def restSheaves (s : State) (o : ImgOp) : List Nat :=
  (curSheaves s o.part).filter (fun sh => !(o.rescue && sh == o.src) && !sheafFailed s sh)
/-- Write the rest words of sheaves with a code and a beat, and notify their binders (R552). -/
def restWords (s : State) (p code b : Nat) (shs : List Nat) : State :=
  shs.foldl (fun s sh =>
    ncInc (bmemWrite s sh (restAt s p) 4 (code * 2 ^ 30 + b % 2 ^ 30)) sh (regF s (rPrt p 0xC) 13 11) 1) s
/-- The sheaves whose rest word does not read REST. -/
def unrested (s : State) (o : ImgOp) : List Nat :=
  (restSheaves s o).filter (fun sh => memGet (sheaf s sh).bmem (restAt s o.part) 4 / 2 ^ 30 != 2)

/-- An operation begins to quiesce its partition (R552 step 1). -/
def opStart (s : State) (o : ImgOp) : State :=
  let s1 := setImgOp (setOp (setRegF s (rPrt o.part 8) 3 0 3) o) (if o.move then 5 else 4)
  restWords s1 o.part 1 (s.beat + 2) (restSheaves s1 o)

/-- RUN words are written for the next beat, naming the new places (R552 step 5), and the operation waits for it with a status. -/
def opRun (s : State) (o : ImgOp) (status : Nat) : State :=
  let moved := o.move && status == 0
  let shs := (restSheaves s o).filter (fun sh => !(moved && sh == o.src)) ++ (if moved then [o.dst] else [])
  setOp (restWords s o.part 3 (s.beat + 1) shs) { o with phase := .run, status := status }

/-! ### What an operation does in the rest beat (R557, R560, R564) -/

/-- A lock word that stands against a move (R558). -/
def locksHeld (s : State) (sh : Nat) : Bool :=
  (sheaf s sh).locks.any (fun l => l.2.st == .held) ||
    s.sheaves.any (fun e => e.2.locks.any (fun l =>
      l.2.st == .held && coordOk l.2.owner.toNat && sheafOfGrain (grainOfCoord l.2.owner.toNat) == sh))

/-- One grain is copied to the same position of another sheaf (R557), its generators reseeded there. -/
def copyGrain (src dst : Nat) (s : State) (i : Nat) : State :=
  let g := 256 * src + i
  let h := 256 * dst + i
  let s1 := setGrain s h { grain s g with wb := [], arriving := [], copy := none, scrubFix := none, lfsr := none }
  let s2 := setReg (setReg s1 (rStart (ug h)) (reg s (rStart (ug g)))) (rCtrl (ug h)) (reg s (rCtrl (ug g)))
  let s3 := resetRegs s2 (fun k => keyScope k == 4 && keyUnit k == grainUnit h && keyBlk k == 2)
  let s4 := { s3 with regs := (s.regs.filter (fun e => keyScope e.1 == 4 && keyUnit e.1 == grainUnit g && keyBlk e.1 == 2)).foldl
                        (fun m e => mapInsert m (e.1 - grainUnit g * 2 ^ 18 + grainUnit h * 2 ^ 18) e.2) s3.regs }
  let keep := reg s4 (rGrain h 3 0) &&& word (2 ^ 31 + 2 ^ 6 - 1)
  srSeed (setReg s4 (rGrain h 3 0) (reg s (rGrain g 3 0) &&& word (2 ^ 31 - 2 ^ 6) ||| keep)) h
/-- The copy of a MOVE (R557 steps 2 to 5): grains, binder, lock words, rotary table and settings. -/
def copySheaf (s : State) (o : ImgOp) : State :=
  let s1 := (List.range 256).foldl (copyGrain o.src o.dst) s
  let x := sheaf s1 o.src
  let wseed := some (winSeeds (reg s1 (rErg o.part 4)) o.dst)
  let s2 := setSheaf s1 o.dst { x with scrubFix := none, streams := [], wnw := { x.wnw with lfsr := wseed } }
  let mine := fun (k u : Nat) => keyScope k == 3 && keyUnit k == sheafUnit u
  let s3 := resetRegs s2 (fun k => mine k o.dst)
  { s3 with regs := (s.regs.filter (fun e => mine e.1 o.src && !(keyBlk e.1 == 1 && keyOff e.1 == 0x18))).foldl
              (fun m e => mapInsert m (e.1 - sheafUnit o.src * 2 ^ 18 + sheafUnit o.dst * 2 ^ 18) e.2) s3.regs }
/-- PART of the ports of the sheaf that a partition moves to (R557 step 1). -/
def givePorts (p : Nat) (s : State) (sh : Nat) : State := (sheafGrains sh).foldl (fun s g => setRegF s (rGrain g 3 0) 5 0 p) s

/-- The patch of an operation. -/
def opPatch (s : State) (o : ImgOp) : Option Image := (o.slot.bind (fun k => mapFind s.img.slots k)).map Prod.snd
/-- Write sections until a write faults. -/
def writeSecs (m : AddrMap) (secs : List Section) (s : State) : State × Bool :=
  secs.foldl (fun (a : State × Bool) x => if a.2 then secApply false m x a.1 else a) (s, true)
/-- The sections of an operation are written and their loads queued: for a RESCUE those of the image for the sheaf (R560), then
those of its patch (R557, R564). -/
def opWrite (s : State) (o0 : ImgOp) : State :=
  let o := { o0 with phase := .act }
  let s1 := setOp s o
  let img := effective s1 o.part
  let toNew : AddrMap := fun a => if addrSheaf a = some o.image then some (opAddr s1 o a) else none
  let (s2, ok) := if o.rescue then writeSecs toNew img (givePorts o.part s1 o.dst) else (s1, true)
  let patch := ((opPatch s o).map (fun im => im.secs)).getD []
  let (s3, ok3) := writeSecs (fun a => some (opAddr s2 o a)) patch s2
  let done := ok && ok3
  let s4 := match s3.img.op with
    | some x => setOp s3 { x with wrote := done, fail := !done }
    | none => s3
  let s5 := if !done then s4 else runLoads o.part none (if o.rescue then runLoads o.part (some o.dst) s4 img else s4) patch
  if loadsLeft s5 o.part then s5
  else
    match s5.img.op with
    | some x => opRun s5 x (if x.fail then 0x28 else 0)
    | none => s5

/-- The partition rests: the operation is done, or its copy starts (R552 step 4, R558). -/
def opAct (s0 : State) (o0 : ImgOp) : State :=
  let o := { o0 with rest := s0.beat }
  let s := setOp (setRegF s0 (rPrt o.part 8) 3 0 4) o
  if o.move && sheafFailed s o.dst then opRun s o 0x2C
  else if o.move && !o.rescue then
    if locksHeld s o.src then opRun s o 0x2B else setOp s { o with phase := .copy }
  else opWrite s o

/-- RELOCATE_COPY_DONE (R559): the copy has ended; where it met GONE the operation goes on as a RESCUE (R561). -/
def execRelocateCopyDone (s : State) : Out :=
  .next (
    match s.img.op with
    | none => s
    | some o =>
      if o.phase ≠ .copy then s
      else if sheafFailed s o.dst then opRun s o 0x2C
      else if sheafFailed s o.src then opWrite s { o with rescue := true, rescued := true }
      else opWrite (copySheaf (givePorts o.part s o.dst) o) o)

/-- QUIESCE_TIMEOUT (R552). -/
def execQuiesceTimeout (s : State) : Out :=
  .next (
    match s.img.op with
    | none => s
    | some o =>
      let lim := o.beat + 2 + quiesceBeats s o.part
      if o.phase ≠ .quiesce ∨ s.beat < lim then s
      else
        let d := [(6, o.part), (4, if o.move then 5 else 4), (16, (unrested s o).length)]
        let s1 := restWords s o.part 3 (lim + 1) (restSheaves s o)
        let s2 := raise (raise s1 .quiesceTimeout none 6 o.part d) .quiesceTimeout (some o.part) 6 o.part d
        endOp (setRegF s2 (rPrt o.part 8) 3 0 2) 0x2A)

/-! ### The end of an operation (R552 step 6) -/

/-- An applied patch is kept for R547 and its slot freed (R564). -/
def keepPatch (s : State) (o : ImgOp) : State :=
  match o.slot, opPatch s o with
  | some k, some im =>
    let s1 := setImg s { s.img with patches := s.img.patches ++ [im], slots := mapErase s.img.slots k }
    raise (incReg s1 (rPrt o.part 0x24)) .patchApplied (some o.part) 6 o.part [(6, o.part), (64, im.id), (32, o.rest % 2 ^ 32)]
  | _, _ => s

/-- The map entry of an image sheaf: its own, else the first that is not VALID (R556). -/
def mapSlot (s : State) (p sh : Nat) : Option Nat :=
  match (List.range 16).find? (fun i => (mapPair s p i).map Prod.fst == some sh) with
  | some i => some i
  | none => (List.range 16).find? (fun i => (mapPair s p i).isNone)

/-- Flue entries of a partition that name a grain of a moved sheaf name its new place; a far half of another side cannot be named
(R557 step 6). -/
def flueMoved (s : State) (o : ImgOp) : State :=
  { s with flue := s.flue.map (fun k =>
      let dir := k.1 / 512 % 2
      let g := atCoord (flueDst dir k.2)
      if k.2.valid && k.2.part.toNat == o.part && sheafOfGrain g == o.src && halfOfSheaf o.dst == flueHalf dir then
        let h := o.dst * 256 + g % 256
        (k.1, { k.2 with dx := BitVec.ofNat 10 (grainX h), dy := BitVec.ofNat 10 (grainY h) })
      else k) }

/-- The reserves after a relocation (R549, R555, R557, R560). -/
def reservesMoved (s : State) (o : ImgOp) : State :=
  let gone := o.retire || o.rescue
  let rs := s.img.reserves.map (fun e =>
    if e.2.sh = o.dst then (e.1, { e.2 with adopter := some o.part })
    else if e.2.sh = o.src then (e.1, { e.2 with adopter := none }) else e)
  let top := rs.foldl (fun m e => max m (e.1 + 1)) 0
  let rs := if gone || rs.any (fun e => e.2.sh == o.src) then rs else mapInsert rs top { sh := o.src }
  let s1 := setImg s { s.img with reserves := rs }
  let s2 := setRegF s1 (rPrt o.part 0x28) 7 0 (rs.filter (fun e => e.2.adopter == some o.part)).length
  let s3 := if gone then setStore s2 { s2.store with badRes := setAdd s2.store.badRes o.src } else s2
  reserveCheck s s3

/-- A relocation takes effect (R557, R560): the ports of a sheaf that is left drain, with the notice of it (R242). -/
def moveDone (s : State) (o : ImgOp) : State :=
  let p := o.part
  let k := (mapSlot s p o.image).getD 0
  let w := 2 ^ 31 + sheafCol o.image * 2 ^ 24 + sheafRow o.image * 2 ^ 18 + sheafCol o.dst * 2 ^ 11 + sheafRow o.dst * 2 ^ 5
  let s1 := { s with sheafMap := mapSet 0 s.sheafMap (16 * p + k) (word w) }
  let s2 := if o.rescue then s1 else sendNotice (stopSheaf (fenceSheaf (flueMoved s1 o) o.src) o.src) p [o.src]
  let s3 := recordSheaf (if o.retire || o.rescue then .failed else .fenced) (openSheaf p (reservesMoved s2 o) o.dst) o.src
  let s4 := if o.rescue && (startSheaves s3 p).contains o.dst then runStart s3 (ub o.dst) else s3
  raise s4 .relocated (some p) 6 p
    [(6, p), (14, sheafCode o.image), (14, sheafCode o.dst), (1, bnat (o.rescue && !o.rescued)), (1, bnat o.rescued)]

/-- An operation at a beat: rest is looked for, or its changes take effect (R552). -/
def opBeat (s : State) : State :=
  match s.img.op with
  | none => s
  | some o =>
    match o.phase with
    | .quiesce =>
      if o.beat + 2 ≤ s.beat && s.beat ≤ o.beat + 2 + quiesceBeats s o.part && (unrested s o).isEmpty then opAct s o else s
    | .run =>
      let lost := o.move && o.status == 0 && sheafFailed s o.dst
      let status := if lost then 0x2C else o.status
      let s1 := if status ≠ 0 then s else keepPatch (if o.move then moveDone s o else s) o
      endOp (setRegF s1 (rPrt o.part 8) 3 0 2) status (bnat o.rescued)
    | _ => s

/-- IMAGE_LOADS_DONE: the LOADS groups of an image, of a rebuild or of an operation have ended (R546, R547, R560, R564). -/
def execImageLoadsDone (s : State) : Out :=
  .next (
    let open_ := s.img.starts.any (fun t => !t.reset && loadsLeft s t.part)
    let bad := s.img.starts.filter (fun t => t.fail.isSome && !loadsLeft s t.part && (t.reset || !open_))
    let s1 := bad.foldl (fun s t => startFailed s t (t.fail.getD (0, 0))) s
    let s2 := match s1.img.loading with
      | some (v, false) => if open_ then s1 else setImg s1 { s1.img with loading := some (v, true) }
      | _ => s1
    match s2.img.op with
    | some o => if o.phase = .act ∧ !loadsLeft s2 o.part then opRun s2 o (if o.fail then 0x28 else 0) else s2
    | none => s2)

/-! ### The verbs -/

/-- PATCH_APPLY (R564): its partition begins to quiesce. -/
def execPatchApply (fn : FnId) (ring : Fin 8) (s : State) : Out :=
  .next (
    if !imgReady s then s
    else
      verbStart s fn ring 0x63 (fun v s =>
        let k := bits v.op0 2 0
        if imgBusy s then imgDone s v 0x2F
        else
          match mapFind s.img.slots k with
          | none => imgDone s v 4
          | some (f, im) =>
            if f ≠ v.fn then imgDone s v 0x26
            else if prtState s im.part ≠ 2 then imgDone s v 4
            else opStart s { verb := some v.id, part := im.part, beat := s.beat, slot := some k }))

/-- A relocation is accepted: the ears of TO are asked ON, and for a RESCUE its sheaf is fenced as a failed unit (R557, R560). -/
def moveStart (s : State) (o : ImgOp) : State :=
  let s1 := setReg s (rSheaf o.dst 1 0x18) 0
  let s2 := if o.rescue then recordSheaf .failed (setReg (closeSheaves s1 [o.src]) (rSheaf o.src 1 0x18) (word 0xAAAAAAAA)) o.src else s1
  opStart s2 o

/-- The status that refuses a RELOCATE at acceptance (R543, R555). -/
def moveRefusal (s : State) (v : Verb) : Option Nat :=
  let p := bits v.op0 5 0
  let fc := bits v.op0 12 6
  let fr := bits v.op0 18 13
  let tc := bits v.op0 25 19
  let tr := bits v.op0 31 26
  let src := sheafAt fc fr
  let dst := sheafAt tc tr
  if fc ≥ 120 ∨ fr ≥ 48 ∨ tc ≥ 120 ∨ tr ≥ 48 ∨ !(rectSheaves s p).contains src then some 0x23
  else if prtState s p ≠ 2 ∨ (mapSlot s p src).isNone ∨ (xlatSheaf s p src = src ∧ adopted s p ≥ regF s (rPrt p 0x28) 15 8) then some 4
  else if bit v.op0 34 ∧ ((mapFind s.img.slots (bits v.op0 37 35)).map (fun e => e.2.part)) ≠ some p then some 4
  else if !s.img.reserves.any (fun e => e.2.sh == dst && reserveFree s e.2) then some 0x2C
  else none

/-- RELOCATE in one of its modes (R555, R557, R560). -/
def relocate (rescue : Bool) (fn : FnId) (ring : Fin 8) (s : State) : Out :=
  match verbNext s fn ring 0x65 with
  | none => .next s
  | some w =>
    if bit w.op0 32 != rescue then .next s
    else
      ownerImg 0x65 true fn ring s (fun v s =>
        match moveRefusal s v with
        | some st => imgDone s v st
        | none =>
          let p := bits v.op0 5 0
          let im := sheafAt (bits v.op0 12 6) (bits v.op0 18 13)
          moveStart s { verb := some v.id, part := p, beat := s.beat, slot := if bit v.op0 34 then some (bits v.op0 37 35) else none
                        move := true, image := im, src := xlatSheaf s p im, dst := sheafAt (bits v.op0 25 19) (bits v.op0 31 26)
                        rescue := rescue, retire := bit v.op0 33 })
/-- RELOCATE with MODE 0 (R557). -/
def execRelocateMove (fn : FnId) (ring : Fin 8) (s : State) : Out := relocate false fn ring s
/-- RELOCATE with MODE 1 (R560). -/
def execRelocateRescue (fn : FnId) (ring : Fin 8) (s : State) : Out := relocate true fn ring s

/-- The FREE reserve of a sheaf's half nearest to it: columns plus rows, then the lower column, then the lower row (R728). -/
def nearestReserve (s : State) (sh : Nat) : Option Nat :=
  let far := fun (r : Nat) =>
    ((sheafCol r : Int) - sheafCol sh).natAbs + ((sheafRow r : Int) - sheafRow sh).natAbs
  let key := fun (r : Nat) => (far r * 128 + sheafCol r) * 64 + sheafRow r
  (freeReserves s (halfOfSheaf sh)).foldl (fun (m : Option Nat) r =>
    match m with
    | none => some r
    | some x => if key r < key x then some r else some x) none

/-- AUTO_RESCUE at a beat (R728): the oldest sheaf that waits, when no image operation goes on. -/
def rescueBeat (s : State) : State :=
  match s.flt.rescues with
  | [] => s
  | sh :: rest =>
    let drop := setFlt s { s.flt with rescues := rest }
    if imgBusy s then s
    else
      match ownerOf s sh with
      | none => drop
      | some p =>
        if prtState s p ≠ 2 then s
        else
          match (if noReserve s p sh then none else nearestReserve s sh) with
          | none => drop
          | some r =>
            moveStart drop { verb := none, part := p, beat := s.beat, move := true, image := imageSheaf s p sh, src := sh, dst := r
                             rescue := true, retire := true }

end Sys2Proof.Machine
end

