-- ==== Sys2Proof/Machine/Resets.lean ====
section
/-!
DEFINITION. The verbs that reset and fail units, and the steps of a reset (R725 to R734, R742, R746 to R748).
-/
namespace Sys2Proof.Machine

/-- The sheaf that a verb's operand names (R746): HALF, FIELD, SHEAF; none where there is no such sheaf. -/
def opSheaf (v : Verb) : Option Nat :=
  if bits v.op0 7 1 < 80 ∧ bits v.op0 13 8 < 36 then some ((bits v.op0 0 0 * 80 + bits v.op0 7 1) * 36 + bits v.op0 13 8) else none
/-- The field that a verb's operand names. -/
def opField (v : Verb) : Option Nat := if bits v.op0 7 1 < 80 then some (bits v.op0 0 0 * 80 + bits v.op0 7 1) else none
/-- A half is lost, being reset, or not yet kindled (R747). -/
def halfDown (s : State) (h : Nat) : Bool := !halfUp s h || (halfSt s h).lost || (halfSt s h).draining || resetting s (.half h)
/-- A partition with a current sheaf among sheaves. -/
def partsOn (s : State) (shs : List Nat) : List Nat :=
  (List.range 64).filter (fun p => prtState s p != 0 && (curSheaves s p).any (fun sh => shs.contains sh))
/-- A reset under way that covers a unit. -/
def covering (s : State) (doms : List Domain) : Option ResetRun := s.flt.resets.find? (fun r => doms.contains r.dom)
/-- Change the resets under way. -/
def modReset (s : State) (id : Nat) (f : ResetRun → ResetRun) : State :=
  setFlt s { s.flt with resets := s.flt.resets.map (fun r => if r.id = id then f r else r) }
/-- A reset is no longer under way. -/
def dropReset (s : State) (id : Nat) : State := setFlt s { s.flt with resets := s.flt.resets.filter (fun r => r.id != id) }

/-! ### RESET_UNIT, RESET_PARTITION, RESET_HALF (R731, R732, R746, R748) -/

/-- A reset of units starts, or is absorbed in one under way that covers them (R748). -/
def unitReset (s : State) (v : Verb) (dom : Domain) (over_ : List Domain) (shs : List Nat) (failed : Bool) : State :=
  let h := (shs.map halfOfSheaf).headD 0
  if halfDown s h then verbDone s v 0x64
  else if failed then verbDone s v 0x63
  else
    match covering s (dom :: over_) with
    | some r => modReset s r.id (fun r => { r with verbs := r.verbs ++ [v.id] })
    | none =>
      let busy := (partsOn s shs).any (fun p => [3, 4, 6].contains (prtState s p))
      if busy || fenceN s then verbDone s v 4 else beginReset s dom [v.id]

/-- RESET_UNIT with a SCOPE (R746); one with SCOPE 0 is turned away by whichever command meets it. -/
def resetUnit (scope : Nat) (fn : FnId) (ring : Fin 8) (s : State) : Out :=
  match verbNext s fn ring 0x90 with
  | none => .next s
  | some w =>
    let sc := bits w.op0 23 22
    if sc ≠ scope ∧ sc ≠ 0 then .next s
    else
      .next (verbStart s fn ring 0x90 (fun v s =>
        if sc = 0 then verbDone s v 2
        else if sc = 3 then
          match opField v with
          | none => verbDone s v 2
          | some f =>
            if v.fn ≠ 0 then verbDone s v 0x26
            else
              let shs := (List.range 36).map (fun k => 36 * f + k)
              unitReset s v (.field f) [] shs (shs.all (sheafFailed s))
        else
          match opSheaf v with
          | none => verbDone s v 2
          | some sh0 =>
            let sh := if v.fn = 0 then sh0 else xlatSheaf s v.fn sh0
            if v.fn ≠ 0 ∧ !(prtState s v.fn != 0 && (curSheaves s v.fn).contains sh) then verbDone s v 0x26
            else
              let over_ := [.sheaf sh, .field (fieldOfSheaf sh)]
              if sc = 1 then unitReset s v (.grain (256 * sh + bits v.op0 21 14)) over_ [sh] (sheafFailed s sh)
              else unitReset s v (.sheaf sh) over_ [sh] (sheafFailed s sh)))
/-- RESET_UNIT of a grain. -/
def execResetGrain (fn : FnId) (ring : Fin 8) (s : State) : Out := resetUnit 1 fn ring s
/-- RESET_UNIT of a sheaf. -/
def execResetSheaf (fn : FnId) (ring : Fin 8) (s : State) : Out := resetUnit 2 fn ring s
/-- RESET_UNIT of a field. -/
def execResetField (fn : FnId) (ring : Fin 8) (s : State) : Out := resetUnit 3 fn ring s

/-- RESET_PARTITION (R731, R732, R748). -/
def execResetPartition (fn : FnId) (ring : Fin 8) (s : State) : Out :=
  .next (verbStart s fn ring 0x91 (fun v s =>
    let p := bits v.op0 5 0
    if v.fn ≠ 0 ∧ v.fn ≠ p then verbDone s v 0x26
    else if prtState s p = 0 then verbDone s v 4
    else if resetting s (.part p) then verbDone s v 0x2F
    else if [0, 1].any (fun h => partInHalf s p h && halfDown s h) then verbDone s v 0x64
    else beginPart s p [v.id]))

/-- RESET_HALF (R734, R746): of a lost half too, which it kindles. -/
def execResetHalf (fn : FnId) (ring : Fin 8) (s : State) : Out :=
  .next (ownerVerb s fn ring 0x92 0x26 (fun v s =>
    let h := bits v.op0 0 0
    let lost := (halfSt s h).lost
    if !lost && halfDown s h || lost && resetting s (.half h) then verbDone s v 0x64
    else
      let s1 := setFlt s { s.flt with halfHeld := s.flt.halfHeld.filter (fun p => !partInHalf s p h) }
      beginHalf s1 h [v.id] (bit v.op0 1 || lost)))

/-! ### The drain of a half (R317) -/

/-- A half's units and routers take their reset values; its run goes on (R730, R732). -/
def halfEmpty (s : State) (h : Nat) : State :=
  let s1 := halfReset s h
  setFlt s1 { s1.flt with resets := s1.flt.resets.map (fun r => if r.dom == .half h then { r with drained := true } else r) }
/-- Packets in the FIFOs of a half: in flight there, in its landing buffers, or at its near gateways (R304, R317). -/
def heldIn (s : State) (h : Nat) : List Flight :=
  (s.mesh ++ s.flueWait).filter (fun f => halfOfGrain f.at_ == h) ++ s.flueNear.filter (fun f => halfOfGrain f.at_ != h)
/-- HALF_DRAIN_END: no flit is left in the half's FIFOs (R317). -/
def execHalfDrainEnd (h : HalfId) (s : State) : Out :=
  .next (
    let held := !(heldIn s h).isEmpty
    if !(halfSt s h).draining || (held && !(halfSt s h).lost) then s else halfEmpty s h)
/-- DRAIN_TIMEOUT: 100 µs pass first, and the packets still in the half are lost (R317). -/
def execDrainTimeout (h : HalfId) (s : State) : Out :=
  .next (
    if !(halfSt s h).draining then s
    else
      let n := ((heldIn s h).map (fun f => flits f.pkt)).sum
      let s1 := (List.range 8).foldl (fun s b => orReg s (rFlue b 4) (2 ^ 4)) s
      halfEmpty (raise s1 .drainTimeout none 1 (halfUnit h) [(1, h.val), (16, n)]) h)

/-! ### The steps of a reset (R732) -/

/-- What a domain's reset reinitialises, and its epochs (R730, R732 steps 4 and 5). -/
def reinit (s : State) : Domain → State
  | .grain g => bumpEpoch (grainReset s g) (.grain g)
  | .sheaf sh => bumpSheaf (sheafReset false s sh) sh
  | .field f =>
    let shs := (List.range 36).map (fun k => 36 * f + k)
    bumpEpoch (shs.foldl bumpSheaf (loaderReset (shs.foldl (sheafReset true) s) f)) (.granary f)
  | .part p => (curSheaves s p).foldl bumpSheaf (partReset s p)
  | .half _ => s

/-- RESET_DRAIN_DONE: nothing is left to inject (R732 steps 4 and 5). -/
def execResetDrainDone (id : Nat) (s : State) : Out :=
  .next (
    match s.flt.resets.find? (fun r => r.id == id) with
    | none => s
    | some r =>
      match r.dom with
      | .half _ => s
      | d =>
        if r.drained then s
        else
          let s1 := modReset (reinit s d) id (fun r => { r with drained := true })
          let l := rModule 0x17 0xC
          setReg s1 l (word (max (reg s1 l).toNat (min (s.cycle - r.at_) (2 ^ 32 - 1)))))

/-- RESET_DONE (R732): domain, unit, epoch. -/
def sayReset (s : State) (d : Domain) : State :=
  let (p, scope, unit, e) : Option Nat × Nat × Nat × Nat := match d with
    | .grain g => (ownerOf s (sheafOfGrain g), 4, grainUnit g, epochOf s (.grain g))
    | .sheaf sh => (ownerOf s sh, 3, sheafUnit sh, epochOf s (.sheaf sh))
    | .field f => (none, 2, fieldUnit f, epochOf s (.granary f))
    | .half h => (none, 1, halfUnit h, 0)
    | .part p => (some p, 6, p, 0)
  raise s .resetDone p scope unit [(4, domCode d), (26, unit), (32, e)]

/-- A sheaf's ports after a reset (R732 step 6): open where its partition is RUNNING and it has not failed. -/
def releaseSheaf (s : State) (sh : Nat) : State :=
  if sheafFailed s sh then recordSheaf .failed s sh
  else
    match ownerOf s sh with
    | some p => if prtState s p = 2 then openSheaf p s sh else recordSheaf .fenced s sh
    | none => recordSheaf .fenced s sh
/-- A grain's port after its reset. -/
def releaseGrain (s : State) (g : Nat) : State :=
  let k := portKey (.grain g)
  let sh := sheafOfGrain g
  if sheafFailed s sh then setRecord .failed s k
  else
    match ownerOf s sh with
    | some p => if prtState s p = 2 then setRecord .running (openPort p s g) k else setRecord .fenced s k
    | none => setRecord .fenced s k

/-- Fields of a half passed and retired (R746). -/
def fieldCounts (s : State) (h : Nat) : Nat := (80 - retiredOf s h) + 256 * retiredOf s h

/-- RESET_RELEASE: the last step of a reset, at least 2 000 cycles after its ports were fenced (R732 step 6, R734, R742, R747). -/
def execResetRelease (id : Nat) (s : State) : Out :=
  .next (
    match s.flt.resets.find? (fun r => r.id == id) with
    | none => s
    | some r =>
      if !r.drained || s.cycle < r.at_ + 2000 then s
      else
        let s1 := dropReset s id
        let ends := fun (s : State) (data : Nat) => r.verbs.foldl (fun s v => verbEnd s v 0 data) (sayReset s r.dom)
        match r.dom with
        | .grain g => ends (releaseGrain s1 g) (epochOf s (.grain g))
        | .sheaf sh => ends (releaseSheaf s1 sh) (epochOf s (.sheaf sh))
        | .field f => ends (((List.range 36).map (fun k => 36 * f + k)).foldl releaseSheaf s1) 0
        | .half h =>
          if r.retest && !halfUp s h then s
          else
            let s2 := { s1 with halves := mapMod {} s1.halves h (fun x => { x with kindled := true, inReset := false, lost := false }) }
            ends (keysLoad s2 h) (fieldCounts s2 h)
        | .part p =>
          if s.flt.halfHeld.contains p then sayReset s1 r.dom
          else if fenceN s || [0, 1].any (fun h => partInHalf s p h && halfDown s h) then s
          else
            let was := r.fence && !s.flt.fenceHeld.contains p && r.verbs.isEmpty
            let s2 := setFlt (sayReset s1 r.dom) { s1.flt with fenceHeld := setDel s1.flt.fenceHeld p }
            let s3 := ((curSheaves s2 p).filter (fun sh => !sheafFailed s2 sh)).foldl (recordSheaf .fenced) s2
            if was || s.img.image.isNone then r.verbs.foldl (fun s v => verbEnd s v 0 5) (setRegF s3 (rPrt p 8) 3 0 5)
            else rebuildPart r.verbs s3 p)

/-! ### Failing units (R725 to R729, R746) -/

/-- SHEAF_CHECK_ERROR: a unit of the sheaf reports an internal error, or a grain of it has passed the UE limit (R725). -/
def execSheafCheckError (sh : SheafId) (ue : Bool) (s : State) : Out :=
  .next (
    let lim := regF s (rFlt 0) 15 8
    let over_ := s.flt.ueWords.any (fun e => sheafOfGrain e.1 == sh.val &&
      (e.2.filter (fun w => s.time < w.2 + 3600000000000)).length > lim)
    if ue then (if lim != 0 && over_ then failSheaf 3 s sh else s) else failSheaf 2 s sh)

/-- UNIT_FENCE (R725, R746). -/
def execUnitFence (fn : FnId) (ring : Fin 8) (s : State) : Out :=
  .next (ownerVerb s fn ring 0x94 0x26 (fun v s =>
    let h := bits v.op0 0 0
    match bit v.op0 14, opField v, opSheaf v with
    | true, some f, _ =>
      if halfDown s h then verbDone s v 0x64
      else if ((List.range 36).map (fun k => 36 * f + k)).all (sheafFailed s) then verbDone s v 0x63
      else verbDone (failField s f) v 0
    | false, _, some sh =>
      if halfDown s h then verbDone s v 0x64 else if sheafFailed s sh then verbDone s v 0x63 else verbDone (failSheaf 4 s sh) v 0
    | _, _, _ => verbDone s v 2))

/-- FIELD_RETIRE (R746, R747). -/
def execFieldRetire (fn : FnId) (ring : Fin 8) (s : State) : Out :=
  .next (ownerVerb s fn ring 0x95 0x26 (fun v s =>
    match opField v with
    | none => verbDone s v 2
    | some f =>
      let shs := (List.range 36).map (fun k => 36 * f + k)
      if halfDown s (f / 80) then verbDone s v 0x64
      else if !(partsOn s shs).isEmpty || s.img.reserves.any (fun e => shs.contains e.2.sh) then verbDone s v 0x60
      else verbDone (retireField s f 6 (fun _ => 5)) v 0))

/-- SHEAF_RETEST, with what the sheaf's tests find (R729, R747). -/
def execSheafRetest (fn : FnId) (ring : Fin 8) (pass : Bool) (s : State) : Out :=
  .next (ownerVerb s fn ring 0x96 0x26 (fun v s =>
    match opSheaf v with
    | none => verbDone s v 2
    | some sh =>
      if halfDown s (halfOfSheaf sh) then verbDone s v 0x64
      else if !s.store.failed.any (fun e => e.1 == sh) then verbDone s v 0x65
      else if (ownerOf s sh).isSome || s.img.reserves.any (fun e => e.2.sh == sh && e.2.adopter.isSome) then verbDone s v 0x60
      else if !pass then verbDone s v 0x61
      else
        let s1 := setStore s { s.store with failed := s.store.failed.filter (fun e => e.1 != sh), badRes := setDel s.store.badRes sh }
        verbDone (recordSheaf .fenced s1 sh) v 0))

/-! ### What the Dampers keep (R722, R745) -/

/-- A row entry of the defect map (R722). -/
def rowEntry (s : State) (f r : Nat) : Nat :=
  if retired s f then 0 else let (a, b) := bypass s f r; b * 2 ^ 7 + a
/-- A field's record in the defect map: 13 rows (R722). -/
def mapRecord (s : State) (f : Nat) : List (BitVec 128) :=
  let x := fieldRec s f
  BitVec.ofNat 128 (packFields [(64, x.time), (43, 0), (7, x.tester), (6, x.wave), (6, x.cause), (2, x.status)]) ::
    (List.range 12).map (fun k => BitVec.ofNat 128 (packFields ((List.range 8).map (fun j => (16, rowEntry s f (8 * k + j))))))
/-- DEFECT_MAP_READ (R722, R746). -/
def execDefectMapRead (fn : FnId) (ring : Fin 8) (ok : Bool) (s : State) : Out :=
  .next (ownerVerb s fn ring 0x97 0x26 (fun v s =>
    verbResult s v ((List.range 80).flatMap (fun k => mapRecord s (80 * bits v.op0 0 0 + k))) ok))
/-- FAULT_LOG_READ (R745, R746): records from FIRST on, the oldest held being 0. -/
def execFaultLogRead (fn : FnId) (ring : Fin 8) (ok : Bool) (s : State) : Out :=
  .next (ownerVerb s fn ring 0x98 0x26 (fun v s =>
    let es := (s.log.drop (bits v.op0 31 0)).take (bits v.op0 47 32)
    verbResult s v (es.flatMap (fun e => evRows e false)) ok 0 es.length))

end Sys2Proof.Machine
end

