-- ==== Sys2Proof/Machine/Kindle.lean ====
section
/-!
DEFINITION. Kindling and the defect map (R718 to R724), the reset of the module (R730, R746), power-on (R665) and the release
from a trip (R703).
-/
namespace Sys2Proof.Machine

/-! ### Kindling -/

/-- The seed fields of a half: the Damper's field first, then the port-die fields (R719). -/
def seeds (h : Nat) : List Nat := if h = 0 then [40, 30, 0, 70] else [129, 119, 89, 159]
/-- Field steps between two fields of a half (R719). -/
def fieldSteps (a b : Nat) : Nat :=
  let x := fun (f : Nat) => (f % 80 % 10 : Int)
  let y := fun (f : Nat) => (f % 80 / 10 : Int)
  (x a - x b).natAbs + (y a - y b).natAbs

/-- Columns of the fill list that complete a row's bypassed set (R721); the flag says whether column 0 of the same row of the east
field is sound. -/
def fillRow (bad : List Nat) (east : Bool) : List Nat :=
  [97, 48, 95, 46].foldl (fun set c =>
    if set.length < 2 && !set.contains c && !set.any (fun d => d + 1 == c || c + 1 == d) && (c != 97 || east) then set ++ [c]
    else set) bad
/-- The two bypassed columns of a row, lower first; none where the row is unrepairable (R292, R721). A row whose column 97 is
defective beside a defective column 0 of the east field is unrepairable: no two bypassed grains touch across a boundary (R289, log 98). -/
def rowPair (bad : List Nat) (east : Bool) : Option (Nat × Nat) :=
  match fillRow bad east with
  | [a, b] => if a + 1 = b ∨ b + 1 = a ∨ (!east ∧ (a = 97 ∨ b = 97)) then none else some (min a b, max a b)
  | _ => none
/-- The defective columns of a row, as a test found them. -/
def rowDefects (t : FieldTest) (r : Nat) : List Nat := ((t.defects.filter (fun e => e.1 == r && e.2 < 98)).map Prod.snd).foldl setAdd []
/-- A field's rows as R721 fixes them; none where a row is unrepairable. -/
def fieldRows (k : Kindling) (f : Nat) (t : FieldTest) : Option (List (Nat × Nat)) :=
  let east := fun (r : Nat) =>
    if f % 10 = 9 then true
    else
      match mapFind k.tested (f + 1) with
      | some (_, _, _, u) => !(rowDefects u r).contains 0
      | none => true
  (List.range 96).foldr (fun r acc => match acc, rowPair (rowDefects t r) (east r) with
    | some l, some p => some (p :: l)
    | _, _ => none) (some [])
/-- A row alone is repairable (R292). -/
def rowsSound (t : FieldTest) : Bool :=
  (List.range 96).all (fun r =>
    let d := rowDefects t r
    d.length ≤ 2 && !d.any (fun c => d.contains (c + 1)))
/-- The test of a field passed (R720). -/
def testPassed (t : FieldTest) : Bool := t.stitch && t.port && t.power && rowsSound t
/-- The fields of a half that have passed. -/
def passedFields (k : Kindling) : List Nat := (k.tested.filter (fun e => testPassed e.2.2.2.2)).map Prod.fst

/-- The candidates of a wave (R719, R724): at most two, nearest the Damper's field. -/
def candidates2 (s : State) (h : Nat) (k : Kindling) : List Nat :=
  let ok := fun (f : Nat) => (mapFind k.tested f).isNone && !((fieldRec s f).status == 2 && (fieldRec s f).cause == 6)
  let edge := (passedFields k).flatMap edgeFields
  let all := (((seeds h) ++ edge).filter ok).foldl setAdd []
  let key := fun (f : Nat) => fieldSteps f ((seeds h).headD 0) * 256 + f
  let least := fun (l : List Nat) => l.foldl (fun (m : Option Nat) f =>
    match m with
    | none => some f
    | some x => if key f < key x then some f else some x) none
  match least all with
  | none => []
  | some a => a :: (least (all.filter (fun f => f != a))).toList
/-- The field that tests a candidate: 0x7F, the Damper, for a seed field (R719, R722). -/
def testerOf (h : Nat) (k : Kindling) (f : Nat) : Nat :=
  if (seeds h).contains f then 0x7F
  else (((edgeFields f).filter (fun e => (passedFields k).contains e)).foldl (fun m e => min m (e % 80)) 0x7F)

/-- Rails that kindling may use: the bus is up and no trip holds the halves (R665, R702, R703). -/
def mayKindle (s : State) (h : Nat) : Bool :=
  s.pwr.bus && !s.thm.latched && !s.thm.await && !(halfSt s h).draining && !halfUp s h &&
    (match s.flt.resets.find? (fun r => r.dom == .half h) with
     | some r => r.drained && r.retest
     | none => !(halfSt s h).lost)

/-- KINDLING_START (R718, R491): the half's rails rise, its bins begin their fill. -/
def execKindlingStart (h : HalfId) (s : State) : Out :=
  .next (
    if !mayKindle s h || (mapFind s.flt.kindling h).isSome then s
    else
      let s1 := setFlt s { s.flt with kindling := mapInsert s.flt.kindling h { began := s.time } }
      let s2 := { s1 with halves := mapMod {} s1.halves h (fun x => { x with lost := false }) }
      (List.range 8).foldl (fun s b => binFill s (8 * h + b)) s2)

/-- A field's test is recorded; its bins that failed are fenced (R492, R720). -/
def takeTest (h wave : Nat) (s : State) (e : Nat × FieldTest) : State :=
  match mapFind s.flt.kindling h with
  | none => s
  | some k =>
    let t := if (seeds h).contains e.1 then { e.2 with stitch := true } else e.2
    let k1 := { k with tested := mapInsert k.tested e.1 (wave, testerOf h k e.1, s.time, t) }
    let s1 := setFlt s { s.flt with kindling := mapInsert s.flt.kindling h k1 }
    let fs := t.bins.filter (fun b => binField b.val == e.1)
    fs.foldl (fun s b => if regBit s (rBin b.val 4) 7 then s else binFail s b.val 1) s1

/-- KINDLING_WAVE: the tests of the wave's candidates end, the nearer first (R719, R720). -/
def execKindlingWave (h : HalfId) (a b : FieldTest) (s : State) : Out :=
  .next (
    match mapFind s.flt.kindling h with
    | none => s
    | some k =>
      if k.ended then s
      else
        let fs := candidates2 s h k
        let wave := min 63 (k.waves + 1)
        let setK := fun (s : State) (f : Kindling → Kindling) =>
          setFlt s { s.flt with kindling := s.flt.kindling.map (fun e => if e.1 = h.val then (e.1, f e.2) else e) }
        let s1 := (fs.zip [a, b]).foldl (takeTest h wave) s
        let s2 := if fs.isEmpty then s1 else setK s1 (fun k => { k with waves := wave })
        match mapFind s2.flt.kindling h with
        | some k2 => if (candidates2 s2 h k2).isEmpty then setK s2 (fun k => { k with ended := true }) else s2
        | none => s2)

/-- The record that kindling gives a field, and the columns of its rows (R720 to R722, R724). -/
def kindledRec (s : State) (k : Kindling) (f : Nat) : FieldRec :=
  let old := fieldRec s f
  match mapFind k.tested f with
  | none => if old.status = 2 ∧ old.cause = 6 then old else { status := 2, cause := 5, time := s.time }
  | some (wave, tester, time, t) =>
    let bad := fun (c : Nat) => ({ status := 2, cause := c, wave := wave, tester := tester, time := time } : FieldRec)
    if !t.stitch then bad 4
    else if !t.port then bad 2
    else if !t.power then bad 3
    else
      match fieldRows k f t with
      | none => bad 1
      | some l =>
        let rows := l.zipIdx.foldl (fun (m : SMap (Nat × Nat)) e => mapSet (48, 97) m e.2 e.1) []
        { status := if rows = [] then 0 else 1, wave := wave, tester := tester, time := time, rows := rows }
/-- The row entries of a record (R722). -/
def recRow (x : FieldRec) (r : Nat) : Nat × Nat := if x.status = 2 then (0, 0) else mapGet (48, 97) x.rows r

/-- A field's new record is stored and what changed is told (R723, R746); its R_path is that measured (R677). -/
def storeField (k : Kindling) (s : State) (f : Nat) : State :=
  let old := fieldRec s f
  let new := kindledRec s k f
  let s1 := setStore s { s.store with fields := mapSet {} s.store.fields f new }
  let n := ((List.range 96).filter (fun r => recRow old r != recRow new r)).length
  let s2 := if n = 0 then s1 else raise s1 .defectMapChanged none 2 (fieldUnit f) [(1, f / 80), (7, f % 80), (16, n)]
  if new.status = 2 then (if new.cause = 6 then s2 else sayRetired s2 f new.cause)
  else
    match mapFind k.tested f with
    | none => s2
    | some (_, _, _, t) =>
      let s3 := setFieldPw s2 f { fieldPw s2 f with rpath := t.rpath.toNat }
      t.sheaves.foldl (fun s i => failSheaf 1 s (36 * f + i.val)) s3

/-- KINDLING_DONE: testing has ended and every bin of the half has finished its fill or is fenced (R491, R721 to R723). -/
def execKindlingDone (h : HalfId) (s : State) : Out :=
  .next (
    match mapFind s.flt.kindling h with
    | none => s
    | some k =>
      let bins := (List.range 8).all (fun b => regBit s (rBin (8 * h.val + b) 4) 5 || regBit s (rBin (8 * h.val + b) 4) 7)
      if !k.ended || !bins then s
      else
        let s1 := ((List.range 80).map (fun j => 80 * h.val + j)).foldl (storeField k) s
        let rows := fun (f : Nat) => (fieldRec s1 f).rows
        let s2 := { s1 with
          spares := ((List.range 80).map (fun j => 80 * h.val + j)).foldl (fun m f => mapSet [] m f (rows f)) s1.spares
          halves := mapMod {} s1.halves h (fun x => { x with kindled := true, inReset := false }) }
        let s3 := setFlt (keysLoad s2 h) { s2.flt with kindling := mapErase s2.flt.kindling h }
        let ms := min 0xFFFF ((s.time - k.began) / 1000000)
        let s4 := setRegF (setRegF (setReg s3 (rHalf h 0x18 4) (word ms)) (rHalf h 0x18 0) 31 28 2) (rHalf h 0x18 0) 27 22 k.waves
        raise s4 .kindlingDone none 1 (halfUnit h) [(1, h.val), (16, 80 - retiredOf s4 h), (16, retiredOf s4 h), (6, k.waves), (16, ms)])

/-! ### The module -/

/-- The registers that a module reset keeps: PCIe port status, the floors of calibration, the time of the last kindling (R657, R730,
R754). -/
def keptKey (k : Nat) : Bool :=
  (keyScope k == 5 && keyBlk k == 0xF && keyOff k == 0) || (keyScope k == 0 && keyBlk k == 0x12 && 0x10 ≤ keyOff k && keyOff k < 0x20) ||
    (keyScope k == 1 && keyBlk k == 0x18 && keyOff k == 4)

/-- A reset of the module (R20, R460, R491, R588, R730): every field at its reset value, but for what persists; memories are
unpredictable, bins zero, links and images gone. -/
def moduleReset (s0 : State) (cause : Nat) : State :=
  let s := (List.range 64).foldl flr s0
  let g := s.granary
  let keep := g.regions.map (fun e => (e.1, ({ blocks := e.2.blocks, journal := e.2.journal } : Region)))
  let half := fun (k : Nat) => ({ draw := s.fresh + 3000000 * k } : HalfSt)
  { State.reset with
    pending := s.pending
    fresh := s.fresh + 6000000
    regs := s.regs.filter (fun e => keptKey e.1)
    halves := [(0, half 0), (1, half 1)]
    evq := s.evq
    log := s.log
    standbyWrites := s.standbyWrites
    granary := { g with regions := keep }
    host := { sent := s.host.sent, nextId := s.host.nextId }
    regResp := s.regResp
    nextTag := s.nextTag
    store := { s.store with cause := cause, resets := min (s.store.resets + 1) (2 ^ 32 - 1) }
    flt := { damper := s.flt.damper, inputs := s.flt.inputs }
    pwr := { use := s.pwr.use, outTold := s.pwr.outTold, conv := s.pwr.conv, bus := s.pwr.bus, meter := s.pwr.meter, uf := s.pwr.uf
             tested := s.pwr.tested, holdup := s.pwr.holdup, bleed := s.pwr.bleed }
    thm := { flow := s.thm.flow, present := s.thm.present, trip := s.thm.trip, await := s.thm.await, trips := s.thm.trips } }

/-- RESET_MODULE: its completion is written, and the reset begins 1 ms later (R746). -/
def execResetModule (fn : FnId) (ring : Fin 8) (s : State) : Out :=
  .next (ownerVerb s fn ring 0x93 0x26 (fun v s => verbDone (setFlt s { s.flt with moduleDue := true }) v 0))
/-- MODULE_RESET_BEGIN (R746). -/
def execModuleResetBegin (s : State) : Out := .next (if s.flt.moduleDue then moduleReset s 2 else s)

/-- POWER_ON: a feed is applied and the supply comes up (R665); a module that was without power starts anew, and posts the INPUT_LOST
it had recorded (R745). -/
def execPowerOn (feed : Fin 2) (m : PowerMeter) (s : State) : Out :=
  .next (
    let p := { s.pwr with use := s.pwr.use.set! feed.val true, bus := true, holdup := false, bleed := false, meter := m }
    if s.pwr.bus then s
    else
      let lost := s.pwr.lostRec
      let s1 := setFlt (setPwr s { p with lostRec := [] }) { s.flt with damper := { s.flt.damper with lost := false, missed := 0 } }
      let s2 := setThm (moduleReset s1 (if lost.isEmpty then 1 else 4)) { trips := s.thm.trips, flow := s.thm.flow, present := s.thm.present }
      lost.foldl hold s2)

/-- TRIP_RELEASE: 60 s with every channel below 55 °C and flow present (R703). -/
def execTripRelease (s : State) : Out :=
  .next (
    match s.thm.trip with
    | none => s
    | some (c, t) =>
      if !s.thm.latched || !s.thm.present || s.thm.chans.any (fun e => e.2.reading ≥ deg 55) then s
      else
        let s1 := moduleReset s 3
        let s2 := setThm s1 { s1.thm with latched := false, await := true, demand := 21500, chans := s.thm.chans.map (fun e => (e.1, { reading := e.2.reading })) }
        raise s2 .thermalTrip none 0 0 [(8, c), (16, int16 t), (64, s.time)])

end Sys2Proof.Machine
end

