-- ==== Sys2Proof/Machine/Damper.lean ====
section
/-!
DEFINITION. The Dampers (R735 to R740), the sideband inputs (R741, R742), and the binder-memory scrubber (R743).
-/
namespace Sys2Proof.Machine

def setDamper (s : State) (d : Damper) : State := setFlt s { s.flt with damper := d }
/-- The companion die of a Damper (R30). -/
def damperDie (db : Bool) : Nat := 0x1E + bnat db

/-! ### Failover (R738 to R740) -/

/-- DAMPER_HEARTBEAT: a heartbeat is due, and reaches the standby or not (R738). -/
def execDamperHeartbeat (came : Bool) (s : State) : Out :=
  .next (
    let d := s.flt.damper
    if !d.standby || d.lost then s else setDamper s { d with missed := if came then 0 else min (d.missed + 1) 10 })

/-- Verbs that the active Damper carries out: of images, of cadence and calibration, of power, heat, resets and faults (R581). -/
def damperVerb (v : Verb) : Bool := v.started && 0x60 ≤ v.code
/-- The standby takes over (R739): verbs in progress end with RESET, partitions in an image operation are reset, resets go on
(R748), and the next audit is not compared (R736). Causes: 1 HEARTBEAT, 2 FAULT, 3 VERB. -/
def takeover (s : State) (cause : Nat) (spare : Option Nat) : State :=
  let d := s.flt.damper
  let ps := s.img.starts.map (fun t => t.part) ++ (s.img.op.map (fun o => o.part)).toList
  let ids := (s.host.verbs.filter (fun v => damperVerb v && spare != some v.id)).map (fun v => v.id)
  let s1 := ps.foldl (fun s p => if resetting s (.part p) then s else beginPart s p []) s
  let s2 := if s1.img.loading.isNone then s1 else setImgOp (setImgState (setImg s1 { s1.img with loading := none }) 5) 0
  let s3 := ids.foldl (fun s id => verbEnd s id 0x19) { s2 with cal := { s2.cal with run := none } }
  let s4 := setFlt s3 { s3.flt with
    resets := s3.flt.resets.map (fun r => { r with verbs := r.verbs.filter (fun v => spare == some v) })
    damper := { db := !d.db, standby := false, skip := true } }
  let s5 := raise s4 .damperFailover none 5 (damperDie (!d.db)) [(5, damperDie (!d.db)), (4, cause)]
  raise s5 .damperStandbyLost none 5 (damperDie d.db) [(5, damperDie d.db)]

/-- DAMPER_TAKEOVER: ten heartbeats are missed, or the active Damper reports an internal fault (R739). -/
def execDamperTakeover (fault : Bool) (s : State) : Out :=
  .next (
    let d := s.flt.damper
    if !d.standby || d.lost || !(fault || d.missed ≥ 10) then s else takeover s (if fault then 2 else 1) none)

/-- DAMPER_SWITCH (R739, R746, R747). -/
def execDamperSwitch (fn : FnId) (ring : Fin 8) (s : State) : Out :=
  .next (ownerVerb s fn ring 0x99 0x26 (fun v s =>
    if !s.flt.damper.standby then verbDone s v 0x62
    else
      let s1 := takeover s 3 (some v.id)
      verbDone s1 v 0 (bnat s1.flt.damper.db)))

/-- BOTH_DAMPERS_LOST: the watchdog fences every local port, and the demand loop goes to 3.5 mA (R714, R740). -/
def execBothDampersLost (s : State) : Out :=
  .next (
    let s1 := [0, 1].foldl (fun s h => (openPorts s h).foldl (fun s g => setFence s g true) s) s
    setThm (setDamper s1 { s1.flt.damper with standby := false, lost := true }) { s1.thm with demand := 3500 })

/-! ### Sideband inputs (R741, R742) -/

/-- FENCE_N comes into force: every partition is reset and held (R742, R748). -/
def fenceAssert (s : State) : State :=
  let ps := (List.range 64).filter (fun p => prtState s p != 0)
  let ran := ps.filter (fun p => [2, 3, 4].contains (prtState s p))
  let go := ps.filter (fun p => prtState s p != 1 && !resetting s (.part p))
  let s1 := go.foldl (fun s p => beginPart s p []) s
  let s2 := setFlt s1 { s1.flt with
    fenceHeld := ran
    resets := s1.flt.resets.map (fun r => if go.any (fun p => r.dom == .part p) then { r with fence := true } else r) }
  raise s2 .fenceInput none 0 0 [(64, ps.foldl (fun m p => m + 2 ^ p) 0)]

/-- An input's state in force changes, and its effect begins or ends (R589, R710, R741, R742). -/
def takeForce (s : State) (i : Nat) (on : Bool) : State :=
  let x := mapGet {} s.flt.inputs i
  if x.inForce = on then s
  else
    let s1 := setFlt s { s.flt with inputs := mapSet {} s.flt.inputs i { x with inForce := on, stuck := x.stuck && on } }
    match i, on with
    | 0, true => fenceAssert s1
    | 1, true => after (execHostPortDown 0 true s1) s1
    | 2, true => after (execHostPortDown 1 true s1) s1
    | 1, false => setRegF s1 (rPortSt 0) 30 30 0
    | 2, false => setRegF s1 (rPortSt 1) 30 30 0
    | 3, true => sayThermIn s1
    | _, _ => s1

/-- SIDEBAND_INPUT_CHANGE: the glitch-filtered level changes, with the changes of the last 10 ms; or it has held for 20 µs (R741). -/
def execSidebandInputChange (input : Fin 4) (level : Bool) (changes : Nat) (held : Bool) (s : State) : Out :=
  .next (
    let i := input.val
    let x := mapGet {} s.flt.inputs i
    let put := fun (s : State) (y : SideIn) => setFlt s { s.flt with inputs := mapSet {} s.flt.inputs i y }
    if held then (if x.raw = level ∧ !x.chatter then takeForce s i level else s)
    else if x.raw = level then s
    else
      let s1 := incRegF (put s { x with raw := level }) (rFlt 0xC i) 15 0
      if changes ≤ 16 ∨ x.chatter then s1
      else
        let s2 := orReg (put s1 { x with raw := level, chatter := true }) (rFlt 4) 2
        takeForce (raise s2 .chatter none 0 0 [(2, i), (16, changes)]) i true)

/-- CHATTER_END: the input has stayed deasserted for 100 ms (R741). -/
def execChatterEnd (input : Fin 4) (s : State) : Out :=
  .next (
    let x := mapGet {} s.flt.inputs input.val
    if !x.chatter || x.raw then s
    else takeForce (setFlt s { s.flt with inputs := mapSet {} s.flt.inputs input.val { x with chatter := false } }) input.val false)

/-- STUCK: the input has been in force as asserted for more than 10 s (R741). -/
def execStuck (input : Fin 4) (s : State) : Out :=
  .next (
    let x := mapGet {} s.flt.inputs input.val
    if !x.inForce || x.stuck then s
    else
      let s1 := setFlt s { s.flt with inputs := mapSet {} s.flt.inputs input.val { x with stuck := true } }
      raise (orReg s1 (rFlt 4) 1) .stuck none 0 0 [(2, input.val)])

/-! ### The audit (R735 to R737) -/

/-- What a port's record says of its FENCE; none where it is not compared (R736). -/
def recFence : PortRec → Option Bool
  | .running => some false
  | .fenced | .failed => some true
  | .resetting => none
/-- The record of a grain's port. -/
def portRec (s : State) (g : Nat) : PortRec := mapGet .fenced s.record (portKey (.grain g))
/-- True when a grain's port differs from its record. -/
def portDiffers (s : State) (g : Nat) : Bool :=
  match recFence (portRec s g) with
  | some b => b != fenced s g
  | none => false
/-- Ears with a port that may differ: those with a port recorded or written. -/
def auditEars (s : State) : List Nat :=
  let a := (s.record.filter (fun e => e.1 < 1474560)).map (fun e => e.1 / 16)
  let b := s.regs.filterMap (fun e =>
    if keyScope e.1 == 4 && keyBlk e.1 == 3 && keyOff e.1 == 0 then some (grainOfUnit (keyUnit e.1) / 16) else none)
  (a ++ b).eraseDups
/-- The fence summary of an ear: 1 ALL, 2 NONE, 3 MIXED (R736). -/
def fenceSummary (s : State) (e : Nat) : Nat :=
  let n := ((earGrains e).filter (fenced s)).length
  if n = 16 then 1 else if n = 0 then 2 else 3
/-- A record's state as FENCE_MISMATCH names it. -/
def recCode : PortRec → Nat
  | .fenced => 1 | .running => 2 | .resetting => 3 | .failed => 4

/-- The fence audit of a beat (R736, R737): an ear in mismatch at two consecutive audits is told, and its ports take what the record
gives. Ears that are not ON are not compared (log 48). -/
def auditBeat (s : State) : State :=
  let d := s.flt.damper
  if d.lost then s
  else if d.skip then setDamper s { d with skip := false, seen := [] }
  else
    let bad := (auditEars s).filter (fun e => earOn s e && (earGrains e).any (portDiffers s))
    let again := bad.filter (fun e => d.seen.contains e)
    let s1 := again.foldl (fun s e =>
      let g := ((earGrains e).find? (portDiffers s)).getD (16 * e)
      let s1 := orReg (incReg s (rFlt 0x10)) (rFlt 4) 4
      let s2 := raise s1 .fenceMismatch none 4 (grainUnit (16 * e)) [(26, grainUnit (16 * e)), (4, recCode (portRec s g)), (4, fenceSummary s e)]
      (earGrains e).foldl (fun s g => match recFence (portRec s g) with | some b => setFence s g b | none => s) s2) s
    setDamper s1 { s1.flt.damper with seen := bad.filter (fun e => !again.contains e) }

/-! ### Binder-memory scrub (R743) -/

/-- BINDER_SCRUB_READ: the next row of a sheaf's binder memory, and what the check finds in its two words; a corrected row is written
back, which changes none of its bytes (R743). -/
def execBinderScrubRead (sh : SheafId) (lo hi : Ecc) (s : State) : Out :=
  .next (
    if regF s (rFlt 0x14) 15 0 = 0 then s
    else
      let x := sheaf s sh
      let r := x.scrubRow
      let s1 := setSheaf s sh { x with scrubRow := (r + 1) % 16384 }
      bmemChecks [(2 * r, lo), (2 * r + 1, hi)] 0 sh (16 * r) 16 s1)

end Sys2Proof.Machine
end

