-- ==== Sys2Proof/Machine/Beat.lean ====
section
/-!
DEFINITION. The beat boundary (R27, R634 to R637): everything that takes effect at a beat, at one boundary.
-/
namespace Sys2Proof.Machine

/-- BEATW ends at a boundary: the low 32 bits of the beat number in s[rd] (R114). -/
def beatwEnd (s : State) (u : Issuer) : State :=
  let c := core s u
  match c.wait with
  | .beat rd => setCore s u { advance (sSet c rd (word (s.beat % 2 ^ 32))) 1 with state := .running, wait := .none }
  | _ => s

/-- Every binder that waits in BEATW goes on (R114). -/
def beatwBeat (s : State) : State :=
  ((s.sheaves.filter (fun e => e.2.core.state == .waitBeat)).map Prod.fst).foldl (fun s sh => beatwEnd s (ub sh)) s

/-- Grains and Winnows post their Ergot counts; jobs that wait count the beat (R168, R361). -/
def postBeat (s : State) : State :=
  let s1 := ((s.grains.filter (fun e => e.2.ergot != {})).map Prod.fst).foldl ergPost s
  (s1.sheaves.map Prod.fst).foldl winBeat s1

/-- Accepted role changes of the links apply; a link that now has its upstream end here is no DRAUGHT source (R609, R642). -/
def rolesBeat (s : State) : State :=
  (s.links.map Prod.fst).foldl (fun s k =>
    let s1 := roleBeat s (k / 4, k % 4)
    if cadUp s1 (k / 4) (k % 4) && !cadUp s (k / 4) (k % 4) then cadLinkLost s1 (k / 4) (k % 4) else s1) s

/-- The ears' power, the generators' seeds, the windows and allocations written, the refused routes (R110, R152, R306, R500,
R505). -/
def unitsBeat (s : State) : State :=
  (List.range 8).foldl cribBeat ((List.range 16).foldl binBeat (flueBeat (reseedBeat (earPowerBeat s))))

/-- The Hoppers at the boundary (R392 to R420). -/
def servingBeat (s : State) : State := hopBeat s.beat s.time (1000 * regF s (rCad 0x18) 13 0) s

/-- The image's starts and operations, rescues, and the Dampers' audit (R545, R552, R728, R737). -/
def damperBeat (s : State) : State := auditBeat (rescueBeat (startBeat (opBeat s)))

/-- BEAT_BOUNDARY (R634): cadence time is at the boundary; what was pending there takes effect, and every unit that acts at a
beat is signalled. The standby Damper's mirror (R738) holds what the active one holds. -/
def execBeatBoundary (s : State) : Out :=
  .next (
    let s1 := { cadBoundary s with onceBeat := [] }
    let s2 := postBeat (servingBeat (unitsBeat (beatwBeat s1)))
    thermalBeat (emberBeat (calCommit (rolesBeat (damperBeat s2)))))

end Sys2Proof.Machine
end

