-- ==== Sys2Proof/Machine/Dispatch.lean ====
section
/-!
DEFINITION. The dispatcher: one arm for each row of the opcode table, each one call of that command's meaning.
-/
namespace Sys2Proof.Machine

def exec (i : Instr) (s : State) : Host.Outcome State Fault Refusal :=
  match i with
  | .registerWrite ini addr be value hw => Sys2Proof.Machine.execRegisterWrite ini addr be value hw s
  | .rcFieldRead ini a hw => Sys2Proof.Machine.execRcFieldRead ini a hw s
  | .lowWordRead ini a => Sys2Proof.Machine.execLowWordRead ini a s
  | .lowWordWrite ini addr value => Sys2Proof.Machine.execLowWordWrite ini addr value s
  | .highWordWrite ini addr value => Sys2Proof.Machine.execHighWordWrite ini addr value s
  | .beatBoundary => Sys2Proof.Machine.execBeatBoundary s
  | .codeLoad ini g value => Sys2Proof.Machine.execCodeLoad ini g value s
  | .codeLoadDone g => Sys2Proof.Machine.execCodeLoadDone g s
  | .grnRunStart ini u value => Sys2Proof.Machine.execGrnRunStart ini u value s
  | .grnRunHalt ini u value => Sys2Proof.Machine.execGrnRunHalt ini u value s
  | .nop u => Sys2Proof.Machine.execNop u s
  | .halt u => Sys2Proof.Machine.execHalt u s
  | .brk u => Sys2Proof.Machine.execBrk u s
  | .rdcyc u => Sys2Proof.Machine.execRdcyc u s
  | .rdid u => Sys2Proof.Machine.execRdid u s
  | .add u => Sys2Proof.Machine.execAdd u s
  | .sub u => Sys2Proof.Machine.execSub u s
  | .andd u => Sys2Proof.Machine.execAndd u s
  | .orr u => Sys2Proof.Machine.execOrr u s
  | .xor u => Sys2Proof.Machine.execXor u s
  | .sll u => Sys2Proof.Machine.execSll u s
  | .srl u => Sys2Proof.Machine.execSrl u s
  | .sra u => Sys2Proof.Machine.execSra u s
  | .slt u => Sys2Proof.Machine.execSlt u s
  | .sltu u => Sys2Proof.Machine.execSltu u s
  | .minS u => Sys2Proof.Machine.execMinS u s
  | .maxS u => Sys2Proof.Machine.execMaxS u s
  | .mul u => Sys2Proof.Machine.execMul u s
  | .mulh u => Sys2Proof.Machine.execMulh u s
  | .clz u => Sys2Proof.Machine.execClz u s
  | .popc u => Sys2Proof.Machine.execPopc u s
  | .addi u => Sys2Proof.Machine.execAddi u s
  | .andi u => Sys2Proof.Machine.execAndi u s
  | .ori u => Sys2Proof.Machine.execOri u s
  | .xori u => Sys2Proof.Machine.execXori u s
  | .shi u => Sys2Proof.Machine.execShi u s
  | .li u => Sys2Proof.Machine.execLi u s
  | .lih u => Sys2Proof.Machine.execLih u s
  | .pcmp u => Sys2Proof.Machine.execPcmp u s
  | .pcmpi u => Sys2Proof.Machine.execPcmpi u s
  | .pand u => Sys2Proof.Machine.execPand u s
  | .por u => Sys2Proof.Machine.execPor u s
  | .pxor u => Sys2Proof.Machine.execPxor u s
  | .pandn u => Sys2Proof.Machine.execPandn u s
  | .p2s u => Sys2Proof.Machine.execP2s u s
  | .s2p u => Sys2Proof.Machine.execS2p u s
  | .br u => Sys2Proof.Machine.execBr u s
  | .jr u => Sys2Proof.Machine.execJr u s
  | .loop u => Sys2Proof.Machine.execLoop u s
  | .lw u ecc => Sys2Proof.Machine.execLw u ecc s
  | .lhu u ecc => Sys2Proof.Machine.execLhu u ecc s
  | .lbu u ecc => Sys2Proof.Machine.execLbu u ecc s
  | .lh u ecc => Sys2Proof.Machine.execLh u ecc s
  | .lb u ecc => Sys2Proof.Machine.execLb u ecc s
  | .sw u => Sys2Proof.Machine.execSw u s
  | .sh u => Sys2Proof.Machine.execSh u s
  | .sb u => Sys2Proof.Machine.execSb u s
  | .vld u ecc => Sys2Proof.Machine.execVld u ecc s
  | .vst u => Sys2Proof.Machine.execVst u s
  | .vlds u ecc => Sys2Proof.Machine.execVlds u ecc s
  | .vsts u => Sys2Proof.Machine.execVsts u s
  | .vldt u ecc => Sys2Proof.Machine.execVldt u ecc s
  | .vadd u => Sys2Proof.Machine.execVadd u s
  | .vsub u => Sys2Proof.Machine.execVsub u s
  | .vmul u => Sys2Proof.Machine.execVmul u s
  | .vmin u => Sys2Proof.Machine.execVmin u s
  | .vmax u => Sys2Proof.Machine.execVmax u s
  | .vabs u => Sys2Proof.Machine.execVabs u s
  | .vneg u => Sys2Proof.Machine.execVneg u s
  | .vfma u => Sys2Proof.Machine.execVfma u s
  | .vand u => Sys2Proof.Machine.execVand u s
  | .vor u => Sys2Proof.Machine.execVor u s
  | .vxor u => Sys2Proof.Machine.execVxor u s
  | .vshl u => Sys2Proof.Machine.execVshl u s
  | .vshr u => Sys2Proof.Machine.execVshr u s
  | .vsar u => Sys2Proof.Machine.execVsar u s
  | .vcmpeq u => Sys2Proof.Machine.execVcmpeq u s
  | .vcmplt u => Sys2Proof.Machine.execVcmplt u s
  | .vcmple u => Sys2Proof.Machine.execVcmple u s
  | .vsel u => Sys2Proof.Machine.execVsel u s
  | .vexp2 u => Sys2Proof.Machine.execVexp2 u s
  | .vlog2 u => Sys2Proof.Machine.execVlog2 u s
  | .vrcp u => Sys2Proof.Machine.execVrcp u s
  | .vrsqrt u => Sys2Proof.Machine.execVrsqrt u s
  | .vrsum u => Sys2Proof.Machine.execVrsum u s
  | .vrmax u => Sys2Proof.Machine.execVrmax u s
  | .vrmin u => Sys2Proof.Machine.execVrmin u s
  | .vbcst u => Sys2Proof.Machine.execVbcst u s
  | .vext u => Sys2Proof.Machine.execVext u s
  | .vperm u => Sys2Proof.Machine.execVperm u s
  | .vacc u => Sys2Proof.Machine.execVacc u s
  | .vaccz u => Sys2Proof.Machine.execVaccz u s
  | .vqnt u => Sys2Proof.Machine.execVqnt u s
  | .vdq u => Sys2Proof.Machine.execVdq u s
  | .vcvt u => Sys2Proof.Machine.execVcvt u s
  | .ergres u => Sys2Proof.Machine.execErgres u s
  | .vrdl u => Sys2Proof.Machine.execVrdl u s
  | .earsum u => Sys2Proof.Machine.execEarsum u s
  | .earmax u => Sys2Proof.Machine.execEarmax u s
  | .earmin u => Sys2Proof.Machine.execEarmin u s
  | .earisum u => Sys2Proof.Machine.execEarisum u s
  | .earbar u => Sys2Proof.Machine.execEarbar u s
  | .earOpComplete e => Sys2Proof.Machine.execEarOpComplete e s
  | .wait u => Sys2Proof.Machine.execWait u s
  | .waitRelease u => Sys2Proof.Machine.execWaitRelease u s
  | .waitTimeout u => Sys2Proof.Machine.execWaitTimeout u s
  | .tcRd u => Sys2Proof.Machine.execTcRd u s
  | .tcSet u => Sys2Proof.Machine.execTcSet u s
  | .tcSub u => Sys2Proof.Machine.execTcSub u s
  | .tcAdd u => Sys2Proof.Machine.execTcAdd u s
  | .tcClrerr u => Sys2Proof.Machine.execTcClrerr u s
  | .cwSet u => Sys2Proof.Machine.execCwSet u s
  | .cwRet u => Sys2Proof.Machine.execCwRet u s
  | .cwRd u => Sys2Proof.Machine.execCwRd u s
  | .cwClose u => Sys2Proof.Machine.execCwClose u s
  | .lockTry u => Sys2Proof.Machine.execLockTry u s
  | .lockAcq u => Sys2Proof.Machine.execLockAcq u s
  | .lockAcqRetry u => Sys2Proof.Machine.execLockAcqRetry u s
  | .lockAcqTimeout u => Sys2Proof.Machine.execLockAcqTimeout u s
  | .lockRel u => Sys2Proof.Machine.execLockRel u s
  | .fenceL u => Sys2Proof.Machine.execFenceL u s
  | .fenceS u => Sys2Proof.Machine.execFenceS u s
  | .fenceG u => Sys2Proof.Machine.execFenceG u s
  | .put u => Sys2Proof.Machine.execPut u s
  | .notify u => Sys2Proof.Machine.execNotify u s
  | .stoke u => Sys2Proof.Machine.execStoke u s
  | .beatw u => Sys2Proof.Machine.execBeatw u s
  | .gsigStart u => Sys2Proof.Machine.execGsigStart u s
  | .gsigHalt u => Sys2Proof.Machine.execGsigHalt u s
  | .regwr u => Sys2Proof.Machine.execRegwr u s
  | .regrd u => Sys2Proof.Machine.execRegrd u s
  | .mxu u => Sys2Proof.Machine.execMxu u s
  | .mxuOpStart g ecc => Sys2Proof.Machine.execMxuOpStart g ecc s
  | .mxuOpComplete g => Sys2Proof.Machine.execMxuOpComplete g s
  | .dutyWindowBoundary m want rise => Sys2Proof.Machine.execDutyWindowBoundary m want rise s
  | .dmaRead u => Sys2Proof.Machine.execDmaRead u s
  | .dmaWrite u => Sys2Proof.Machine.execDmaWrite u s
  | .dmaDescStart u ecc => Sys2Proof.Machine.execDmaDescStart u ecc s
  | .dmaComplete u => Sys2Proof.Machine.execDmaComplete u s
  | .earPowerWrite ini sh value => Sys2Proof.Machine.execEarPowerWrite ini sh value s
  | .earPowerSettled e => Sys2Proof.Machine.execEarPowerSettled e s
  | .ergotPostApply part => Sys2Proof.Machine.execErgotPostApply part s
  | .ergSrReseed ini part value => Sys2Proof.Machine.execErgSrReseed ini part value s
  | .writeBufferAccept g credited => Sys2Proof.Machine.execWriteBufferAccept g credited s
  | .packetComplete g slot => Sys2Proof.Machine.execPacketComplete g slot s
  | .windowGrant g w => Sys2Proof.Machine.execWindowGrant g w s
  | .scrubRead g lo hi => Sys2Proof.Machine.execScrubRead g lo hi s
  | .scrubWriteback g => Sys2Proof.Machine.execScrubWriteback g s
  | .tlyCmdSet ini g value => Sys2Proof.Machine.execTlyCmdSet ini g value s
  | .tlyCmdClrerr ini g value => Sys2Proof.Machine.execTlyCmdClrerr ini g value s
  | .cwCmdSet ini g value => Sys2Proof.Machine.execCwCmdSet ini g value s
  | .cwCmdRet ini g value => Sys2Proof.Machine.execCwCmdRet ini g value s
  | .cwCmdClose ini g value => Sys2Proof.Machine.execCwCmdClose ini g value s
  | .abandonNotice part sheaves => Sys2Proof.Machine.execAbandonNotice part sheaves s
  | .write f => Sys2Proof.Machine.execWrite f s
  | .readReq f ecc => Sys2Proof.Machine.execReadReq f ecc s
  | .lockReq f => Sys2Proof.Machine.execLockReq f s
  | .creditReq f => Sys2Proof.Machine.execCreditReq f s
  | .regReq f => Sys2Proof.Machine.execRegReq f s
  | .notifyPacket f => Sys2Proof.Machine.execNotifyPacket f s
  | .ack f => Sys2Proof.Machine.execAck f s
  | .gone f => Sys2Proof.Machine.execGone f s
  | .readData f => Sys2Proof.Machine.execReadData f s
  | .writeCredited f => Sys2Proof.Machine.execWriteCredited f s
  | .lockResp f => Sys2Proof.Machine.execLockResp f s
  | .creditGrant f => Sys2Proof.Machine.execCreditGrant f s
  | .regResp f => Sys2Proof.Machine.execRegResp f s
  | .creditRelease f => Sys2Proof.Machine.execCreditRelease f s
  | .meshLinkUe f err => Sys2Proof.Machine.execMeshLinkUe f err s
  | .creditViolation f depth flit => Sys2Proof.Machine.execCreditViolation f depth flit s
  | .flueGatewayWrite f => Sys2Proof.Machine.execFlueGatewayWrite f s
  | .flueCreditRequest b dir idx => Sys2Proof.Machine.execFlueCreditRequest b dir idx s
  | .flueCreditRetry b dir idx => Sys2Proof.Machine.execFlueCreditRetry b dir idx s
  | .fluRouteWrite ini b second value => Sys2Proof.Machine.execFluRouteWrite ini b second value s
  | .rtrFenceWrite ini g value => Sys2Proof.Machine.execRtrFenceWrite ini g value s
  | .rtrTagWrite ini g tag value => Sys2Proof.Machine.execRtrTagWrite ini g tag value s
  | .halfDrainEnd h => Sys2Proof.Machine.execHalfDrainEnd h s
  | .drainTimeout h => Sys2Proof.Machine.execDrainTimeout h s
  | .jobStart sh ecc => Sys2Proof.Machine.execJobStart sh ecc s
  | .jobComplete sh ecc => Sys2Proof.Machine.execJobComplete sh ecc s
  | .framePoolTimeout sh => Sys2Proof.Machine.execFramePoolTimeout sh s
  | .glnLabInv ini sh value => Sys2Proof.Machine.execGlnLabInv ini sh value s
  | .chaffCommit ini sh value => Sys2Proof.Machine.execChaffCommit ini sh value s
  | .chaffRollback ini sh value => Sys2Proof.Machine.execChaffRollback ini sh value s
  | .chaffApply sh => Sys2Proof.Machine.execChaffApply sh s
  | .submit fn ring => Sys2Proof.Machine.execSubmit fn ring s
  | .extend fn ring => Sys2Proof.Machine.execExtend fn ring s
  | .cancel fn ring => Sys2Proof.Machine.execCancel fn ring s
  | .release fn ring => Sys2Proof.Machine.execRelease fn ring s
  | .query fn ring ok => Sys2Proof.Machine.execQuery fn ring ok s
  | .hopperPassCut part => Sys2Proof.Machine.execHopperPassCut part s
  | .dispatchRecordWrite part => Sys2Proof.Machine.execDispatchRecordWrite part s
  | .reportPoll part ring ecc => Sys2Proof.Machine.execReportPoll part ring ecc s
  | .tokenReport part ring => Sys2Proof.Machine.execTokenReport part ring s
  | .prefillDone part ring => Sys2Proof.Machine.execPrefillDone part ring s
  | .verifyReport part ring => Sys2Proof.Machine.execVerifyReport part ring s
  | .expertReport part ring => Sys2Proof.Machine.execExpertReport part ring s
  | .doneReport part ring => Sys2Proof.Machine.execDoneReport part ring s
  | .failReport part ring => Sys2Proof.Machine.execFailReport part ring s
  | .cancelAck part ring => Sys2Proof.Machine.execCancelAck part ring s
  | .outputRecordWrite part ok => Sys2Proof.Machine.execOutputRecordWrite part ok s
  | .nsCreate fn ring => Sys2Proof.Machine.execNsCreate fn ring s
  | .nsDestroy fn ring => Sys2Proof.Machine.execNsDestroy fn ring s
  | .commitBegin fn ring list => Sys2Proof.Machine.execCommitBegin fn ring list s
  | .commitRepairBegin fn ring => Sys2Proof.Machine.execCommitRepairBegin fn ring s
  | .commitData fn ring data => Sys2Proof.Machine.execCommitData fn ring data s
  | .commitDataDone f depth fail => Sys2Proof.Machine.execCommitDataDone f depth fail s
  | .commitSeal fn ring => Sys2Proof.Machine.execCommitSeal fn ring s
  | .commitAbort fn ring => Sys2Proof.Machine.execCommitAbort fn ring s
  | .commitResume fn ring => Sys2Proof.Machine.execCommitResume fn ring s
  | .modelFree fn ring => Sys2Proof.Machine.execModelFree fn ring s
  | .modelQuery fn ring ok => Sys2Proof.Machine.execModelQuery fn ring ok s
  | .modelLoad fn ring list => Sys2Proof.Machine.execModelLoad fn ring list s
  | .journalReplay => Sys2Proof.Machine.execJournalReplay s
  | .commitExpiry id => Sys2Proof.Machine.execCommitExpiry id s
  | .loadDescStart f ecc => Sys2Proof.Machine.execLoadDescStart f ecc s
  | .loaderCreditRetry f => Sys2Proof.Machine.execLoaderCreditRetry f s
  | .loadDescEnd f => Sys2Proof.Machine.execLoadDescEnd f s
  | .granaryScrubRead f ecc most => Sys2Proof.Machine.execGranaryScrubRead f ecc most s
  | .blockRefresh f depth fail => Sys2Proof.Machine.execBlockRefresh f depth fail s
  | .blockErase f fail => Sys2Proof.Machine.execBlockErase f fail s
  | .programHoldTimeout f => Sys2Proof.Machine.execProgramHoldTimeout f s
  | .programResume f => Sys2Proof.Machine.execProgramResume f s
  | .binInitDone b => Sys2Proof.Machine.execBinInitDone b s
  | .binInterfaceFault b => Sys2Proof.Machine.execBinInterfaceFault b s
  | .binPatrolRead b e1 e2 => Sys2Proof.Machine.execBinPatrolRead b e1 e2 s
  | .binPatrolWriteback b => Sys2Proof.Machine.execBinPatrolWriteback b s
  | .binWinWrite ini b value => Sys2Proof.Machine.execBinWinWrite ini b value s
  | .crbAllocWrite ini value => Sys2Proof.Machine.execCrbAllocWrite ini value s
  | .cribSlotForget ini value => Sys2Proof.Machine.execCribSlotForget ini value s
  | .cribTimeout tag => Sys2Proof.Machine.execCribTimeout tag s
  | .streamStart sh ecc => Sys2Proof.Machine.execStreamStart sh ecc s
  | .streamPlace sh => Sys2Proof.Machine.execStreamPlace sh s
  | .streamEnd sh => Sys2Proof.Machine.execStreamEnd sh s
  | .imageLoad fn ring bytes sig => Sys2Proof.Machine.execImageLoad fn ring bytes sig s
  | .imageLoadsDone => Sys2Proof.Machine.execImageLoadsDone s
  | .imageUnload fn ring => Sys2Proof.Machine.execImageUnload fn ring s
  | .patchStage fn ring bytes sig => Sys2Proof.Machine.execPatchStage fn ring bytes sig s
  | .patchApply fn ring => Sys2Proof.Machine.execPatchApply fn ring s
  | .patchDrop fn ring => Sys2Proof.Machine.execPatchDrop fn ring s
  | .relocateMove fn ring => Sys2Proof.Machine.execRelocateMove fn ring s
  | .relocateRescue fn ring => Sys2Proof.Machine.execRelocateRescue fn ring s
  | .relocateCopyDone => Sys2Proof.Machine.execRelocateCopyDone s
  | .quiesceTimeout => Sys2Proof.Machine.execQuiesceTimeout s
  | .keyEnroll fn ring key => Sys2Proof.Machine.execKeyEnroll fn ring key s
  | .keyRevoke fn ring => Sys2Proof.Machine.execKeyRevoke fn ring s
  | .keyLock fn ring => Sys2Proof.Machine.execKeyLock fn ring s
  | .keyUnlock fn ring sig => Sys2Proof.Machine.execKeyUnlock fn ring sig s
  | .doorbell fn ring tail => Sys2Proof.Machine.execDoorbell fn ring tail s
  | .commandFetch fn ring cmd => Sys2Proof.Machine.execCommandFetch fn ring cmd s
  | .hostNop fn ring => Sys2Proof.Machine.execHostNop fn ring s
  | .dmaToDevice fn ring rows => Sys2Proof.Machine.execDmaToDevice fn ring rows s
  | .dmaToHost fn ring bad => Sys2Proof.Machine.execDmaToHost fn ring bad s
  | .completionWrite fn ring ok => Sys2Proof.Machine.execCompletionWrite fn ring ok s
  | .eventRecordWrite fn ok => Sys2Proof.Machine.execEventRecordWrite fn ok s
  | .msixGapExpiry fn vec => Sys2Proof.Machine.execMsixGapExpiry fn vec s
  | .functionLevelReset fn => Sys2Proof.Machine.execFunctionLevelReset fn s
  | .vfEnableClear port => Sys2Proof.Machine.execVfEnableClear port s
  | .hostPortDown port perst => Sys2Proof.Machine.execHostPortDown port perst s
  | .linkRole fn ring => Sys2Proof.Machine.execLinkRole fn ring s
  | .rickSweep fn ring => Sys2Proof.Machine.execRickSweep fn ring s
  | .rickTopology fn ring ok => Sys2Proof.Machine.execRickTopology fn ring ok s
  | .linkRetrain fn ring => Sys2Proof.Machine.execLinkRetrain fn ring s
  | .laneSignal port link lane => Sys2Proof.Machine.execLaneSignal port link lane s
  | .laneDrop port link lane => Sys2Proof.Machine.execLaneDrop port link lane s
  | .trainFrame port link lanes => Sys2Proof.Machine.execTrainFrame port link lanes s
  | .ident port link id => Sys2Proof.Machine.execIdent port link id s
  | .linkTrainTimeout port link => Sys2Proof.Machine.execLinkTrainTimeout port link s
  | .linkFailedRetry port link => Sys2Proof.Machine.execLinkFailedRetry port link s
  | .dataFrame port link head txns => Sys2Proof.Machine.execDataFrame port link head txns s
  | .idleFrame port link head => Sys2Proof.Machine.execIdleFrame port link head s
  | .ackTimer port link => Sys2Proof.Machine.execAckTimer port link s
  | .idleTimer port link => Sys2Proof.Machine.execIdleTimer port link s
  | .linkSilenceTimeout port link => Sys2Proof.Machine.execLinkSilenceTimeout port link s
  | .rekey port link => Sys2Proof.Machine.execRekey port link s
  | .draughtRead port link txn => Sys2Proof.Machine.execDraughtRead port link txn s
  | .draughtWrite port link txn => Sys2Proof.Machine.execDraughtWrite port link txn s
  | .draughtReadData port link txn => Sys2Proof.Machine.execDraughtReadData port link txn s
  | .draughtWriteAck port link txn => Sys2Proof.Machine.execDraughtWriteAck port link txn s
  | .draughtNotice port link txn => Sys2Proof.Machine.execDraughtNotice port link txn s
  | .sendTxn port link txn rick => Sys2Proof.Machine.execSendTxn port link txn rick s
  | .sendAck port link txn => Sys2Proof.Machine.execSendAck port link txn s
  | .sendDescStart port ring ecc => Sys2Proof.Machine.execSendDescStart port ring ecc s
  | .roleReq port link round cadence want => Sys2Proof.Machine.execRoleReq port link round cadence want s
  | .roleAck port link round => Sys2Proof.Machine.execRoleAck port link round s
  | .roleNak port link round => Sys2Proof.Machine.execRoleNak port link round s
  | .roleRoundTimeout port link => Sys2Proof.Machine.execRoleRoundTimeout port link s
  | .linkStateRecord port link r => Sys2Proof.Machine.execLinkStateRecord port link r s
  | .topologyRecord port link t => Sys2Proof.Machine.execTopologyRecord port link t s
  | .sweepTimer => Sys2Proof.Machine.execSweepTimer s
  | .sweepToken port link tok => Sys2Proof.Machine.execSweepToken port link tok s
  | .sweepTokenTimeout => Sys2Proof.Machine.execSweepTokenTimeout s
  | .calReq port link lane => Sys2Proof.Machine.execCalReq port link lane s
  | .cadenceWord port link w => Sys2Proof.Machine.execCadenceWord port link w s
  | .cadenceWordTimer port link => Sys2Proof.Machine.execCadenceWordTimer port link s
  | .cadenceDelayReply port link trip => Sys2Proof.Machine.execCadenceDelayReply port link trip s
  | .ppsEdge interval => Sys2Proof.Machine.execPpsEdge interval s
  | .ref10mLock => Sys2Proof.Machine.execRef10mLock s
  | .ref10mUnlock err => Sys2Proof.Machine.execRef10mUnlock err s
  | .ptpMessage msg => Sys2Proof.Machine.execPtpMessage msg s
  | .sourceTimeout src => Sys2Proof.Machine.execSourceTimeout src s
  | .cadenceLockTimer enter => Sys2Proof.Machine.execCadenceLockTimer enter s
  | .holdoverExpiry => Sys2Proof.Machine.execHoldoverExpiry s
  | .cadenceRevert => Sys2Proof.Machine.execCadenceRevert s
  | .cadStep fn ring => Sys2Proof.Machine.execCadStep fn ring s
  | .cadBeat fn ring => Sys2Proof.Machine.execCadBeat fn ring s
  | .gapStart => Sys2Proof.Machine.execGapStart s
  | .calRun fn ring refv => Sys2Proof.Machine.execCalRun fn ring refv s
  | .calUnitMeasure target unit check again a b trim refv => Sys2Proof.Machine.execCalUnitMeasure target unit check again a b trim refv s
  | .calTimeout => Sys2Proof.Machine.execCalTimeout s
  | .calAbort fn ring => Sys2Proof.Machine.execCalAbort fn ring s
  | .calResults fn ring ok => Sys2Proof.Machine.execCalResults fn ring ok s
  | .powerOn feed m => Sys2Proof.Machine.execPowerOn feed m s
  | .feedBandExit feed volts => Sys2Proof.Machine.execFeedBandExit feed volts s
  | .feedResume feed => Sys2Proof.Machine.execFeedResume feed s
  | .feedOutOfRange feed volts => Sys2Proof.Machine.execFeedOutOfRange feed volts s
  | .converterFault conv cause => Sys2Proof.Machine.execConverterFault conv cause s
  | .powerSenseSample f x => Sys2Proof.Machine.execPowerSenseSample f x s
  | .stokePreposition f => Sys2Proof.Machine.execStokePreposition f s
  | .avsUpdate f mv => Sys2Proof.Machine.execAvsUpdate f mv s
  | .capUnreachable => Sys2Proof.Machine.execCapUnreachable s
  | .busLoss m => Sys2Proof.Machine.execBusLoss m s
  | .safetyBleedStart => Sys2Proof.Machine.execSafetyBleedStart s
  | .safetyBleedEnd feed m => Sys2Proof.Machine.execSafetyBleedEnd feed m s
  | .emberTestStart => Sys2Proof.Machine.execEmberTestStart s
  | .emberTestMeasured out gauge => Sys2Proof.Machine.execEmberTestMeasured out gauge s
  | .emberTestDone gauge => Sys2Proof.Machine.execEmberTestDone gauge s
  | .phaseRetest fn ring pass => Sys2Proof.Machine.execPhaseRetest fn ring pass s
  | .crackClear fn ring rpath => Sys2Proof.Machine.execCrackClear fn ring rpath s
  | .emberTest fn ring => Sys2Proof.Machine.execEmberTest fn ring s
  | .thermalSample ch r => Sys2Proof.Machine.execThermalSample ch r s
  | .thresholdDwell d => Sys2Proof.Machine.execThresholdDwell d s
  | .tripComparatorSample hot => Sys2Proof.Machine.execTripComparatorSample hot s
  | .tripRelease => Sys2Proof.Machine.execTripRelease s
  | .thermalRelease fn ring => Sys2Proof.Machine.execThermalRelease fn ring s
  | .flowPulse rate => Sys2Proof.Machine.execFlowPulse rate s
  | .flowTimeout => Sys2Proof.Machine.execFlowTimeout s
  | .demandUpdate measured => Sys2Proof.Machine.execDemandUpdate measured s
  | .demandCompliance enter => Sys2Proof.Machine.execDemandCompliance enter s
  | .kindlingStart h => Sys2Proof.Machine.execKindlingStart h s
  | .kindlingWave h a b => Sys2Proof.Machine.execKindlingWave h a b s
  | .kindlingDone h => Sys2Proof.Machine.execKindlingDone h s
  | .sheafCheckError sh ue => Sys2Proof.Machine.execSheafCheckError sh ue s
  | .resetGrain fn ring => Sys2Proof.Machine.execResetGrain fn ring s
  | .resetSheaf fn ring => Sys2Proof.Machine.execResetSheaf fn ring s
  | .resetField fn ring => Sys2Proof.Machine.execResetField fn ring s
  | .resetPartition fn ring => Sys2Proof.Machine.execResetPartition fn ring s
  | .resetHalf fn ring => Sys2Proof.Machine.execResetHalf fn ring s
  | .resetModule fn ring => Sys2Proof.Machine.execResetModule fn ring s
  | .moduleResetBegin => Sys2Proof.Machine.execModuleResetBegin s
  | .resetDrainDone id => Sys2Proof.Machine.execResetDrainDone id s
  | .resetRelease id => Sys2Proof.Machine.execResetRelease id s
  | .unitFence fn ring => Sys2Proof.Machine.execUnitFence fn ring s
  | .fieldRetire fn ring => Sys2Proof.Machine.execFieldRetire fn ring s
  | .sheafRetest fn ring pass => Sys2Proof.Machine.execSheafRetest fn ring pass s
  | .defectMapRead fn ring ok => Sys2Proof.Machine.execDefectMapRead fn ring ok s
  | .faultLogRead fn ring ok => Sys2Proof.Machine.execFaultLogRead fn ring ok s
  | .damperSwitch fn ring => Sys2Proof.Machine.execDamperSwitch fn ring s
  | .damperHeartbeat came => Sys2Proof.Machine.execDamperHeartbeat came s
  | .damperTakeover fault => Sys2Proof.Machine.execDamperTakeover fault s
  | .bothDampersLost => Sys2Proof.Machine.execBothDampersLost s
  | .sidebandInputChange input level changes held => Sys2Proof.Machine.execSidebandInputChange input level changes held s
  | .chatterEnd input => Sys2Proof.Machine.execChatterEnd input s
  | .stuck input => Sys2Proof.Machine.execStuck input s
  | .binderScrubRead sh lo hi => Sys2Proof.Machine.execBinderScrubRead sh lo hi s
  | .hostLinkUp port speed width flit numVfs => Sys2Proof.Machine.execHostLinkUp port speed width flit numVfs s
  | .keyAgreementConfirm port link => Sys2Proof.Machine.execKeyAgreementConfirm port link s
  | .sweepHandshakeAck port link seq => Sys2Proof.Machine.execSweepHandshakeAck port link seq s

end Sys2Proof.Machine
end

