-- ==== Sys2Proof/Machine/Tick.lean ====
section
/-!
DEFINITION. What a cycle of FCLK does when no command waits (R31): time, the counters of waits and gated clocks, and one row of each
write buffer.
-/
namespace Sys2Proof.Machine

/-- A grain that a WAIT, LOCK, FENCE or ear operation holds (R118, R124). -/
def waiting (c : Core) : Bool :=
  match c.state with
  | .waitTally | .waitEar | .waitLock | .waitFence => true
  | _ => false

/-- Cadence time after one more cycle of FCLK: 10 ns in each 11 cycles (R31), and not past a boundary that no BEAT_BOUNDARY has
taken yet (R634, log 51). -/
def tickTime (s : State) : Nat := if s.cycle % 11 = 10 ∨ s.cad.next ≤ s.time then s.time else s.time + 1

/-- A stalled cycle of a grain that waits, or whose next instruction is held back (R70, R72, R124). -/
def stallTick (s : State) (g : Nat) : State :=
  if waiting (grain s g).core || issueBlocked s (ug g) then incReg s (rGrain g 1 0x030) else s

/-- A cycle in which the packet at the head of a grain's delivery queue has no entry: it counts for the write buffer and for the
router's local output (R234, R322). -/
def fullTick (s : State) (g : Nat) : State :=
  match (grain s g).arriving with
  | f :: _ => if wbRoom (grain s g) (isCredited s g f) then s else incReg (incReg s (rGrain g 2 0xB0)) (rGrain g 3 0x050)
  | [] => s

/-- A cycle in which heads of landing buffers wait for credit, by bridge and direction (R307, R329). -/
def flueTick (s : State) : State :=
  ((s.flueWait.map (fun f => f.at_.val)).foldl setAdd []).foldl (fun s r =>
    incReg s (rFlue (grainY r / 96) (if halfOfGrain r = 1 then 0x1C else 0x20))) s

/-- A cycle in which a job of a Winnow waits for far or crib rows (R373). -/
def farTick (s : State) (sh : Nat) : State :=
  if (wnw s sh).jobs.any (fun j => j.asked != 0 || j.cow.isSome) then incReg s (rWnw sh 0xD0) else s

/-- A cycle of a grain's MXU: an ear in which one computes has its spine clocked (R210). -/
def mxuTick (s : State) (g : Nat) : State :=
  let (b, x) := mxuCycle (grain s g)
  let s1 := setGrain s g x
  let e := earOfGrain g
  if b then setGated s1 e (gatedCount s e) (s.cycle + 1) else s1

/-- One cycle of FCLK: the cycle counters and cadence time run, what waits counts, each write buffer drains a row, each MXU runs (R31,
R58, R124, R210, R232, R234, R307, R373, R622). -/
def tick (s : State) : State :=
  let gs := s.grains.map Prod.fst
  let s1 := (s.sheaves.map Prod.fst).foldl farTick (flueTick (gs.foldl fullTick (gs.foldl stallTick s)))
  let s2 := (gs.filter (fun g => (grain s1 g).mxuQ.any (fun o => o.begun))).foldl mxuTick (gs.foldl wbDrain s1)
  { s2 with cycle := s.cycle + 1, time := tickTime s }

end Sys2Proof.Machine
end

