-- ==== Sys2Proof/Safety.lean ====
section
/-!
DEFINITION. The terms the claims use: safe runs, when an instruction issues, when a verb starts, when a register command and a
packet act.
-/
namespace Sys2Proof

/-- A step that neither faults nor is refused. -/
def steps (s t : Machine.State) : Prop := Machine.step s = .next t

/-- The states a run reaches from a state. -/
inductive Reaches : Machine.State → Machine.State → Prop where
  | refl (s : Machine.State) : Reaches s s
  | step {s t u : Machine.State} : Reaches s t → steps t u → Reaches s u

namespace Machine

/-- A unit issues the instruction i of an operation (R63, R67 to R72): it is RUNNING, its program counter is inside its code, the
word there is sound and decodes to i, nothing i needs is busy, and i's guard is true. -/
def issues (op : Op) (u : Issuer) (s : State) (i : Ins) : Bool :=
  let c := core s u
  let n0 := fetchWord s u c.pc
  c.state == .running && decide (c.pc < codeWords u) && !fetchPoisoned s u c.pc && !(isLong n0 && decide (codeWords u ≤ c.pc + 1)) &&
    decodeIns (isBinder u) n0 (fetchWord s u (c.pc + 1)) == some i && i.op == op && !stalls s u i && guardOk c i

/-- The state in which an instruction that issues takes its effect: the issue of a grain is counted (R124), and the address of
the instruction is kept. -/
def issued (u : Issuer) (s : State) : State :=
  let s1 := match u with
    | .grain g => incReg s (rGrain g 1 0x02C)
    | .binder _ => s
  setCore s1 u { core s1 u with lastPc := (core s u).pc }

/-- An instruction of n words that writes s[rd] and moves on. -/
def wroteS (u : Issuer) (s : State) (rd : Nat) (v : Word) (n : Nat := 1) : State :=
  let t := issued u s
  setCore t u (advance (sSet (core t u) rd v) n)

/-- An instruction that writes p[rd] and moves on. -/
def wroteP (u : Issuer) (s : State) (rd : Nat) (b : Bool) : State :=
  let t := issued u s
  setCore t u (advance (pSet (core t u) rd b) 1)

/-- An instruction of a grain that replaces the grain's own record and moves on. -/
def wroteG (g : GrainId) (s : State) (x : Grain) (n : Nat := 1) : State := next1 (setGrain (issued (.grain g) s) g x) (.grain g) n

/-- Whenever the instruction issues, s[rd] takes a value computed from the unit and the instruction, and the unit moves on. -/
def givesS (op : Op) (mk : Issuer → Sys2Proof.Instr) (f : Core → Ins → Word) : Prop :=
  ∀ (u : Issuer) (s : State) (i : Ins), issues op u s i = true → exec (mk u) s = .next (wroteS u s i.rd (f (core s u) i))

/-- Whenever the instruction issues, p[d] takes a value computed from the unit and the instruction, and the unit moves on. -/
def givesP (op : Op) (mk : Issuer → Sys2Proof.Instr) (d : Ins → Nat) (f : Core → Ins → Bool) : Prop :=
  ∀ (u : Issuer) (s : State) (i : Ins), issues op u s i = true → exec (mk u) s = .next (wroteP u s (d i) (f (core s u) i))

/-- Whenever the instruction issues in a grain, the grain's own record takes a new value, and the grain moves on. -/
def givesG (op : Op) (mk : Issuer → Sys2Proof.Instr) (f : Ins → Grain → Grain) : Prop :=
  ∀ (g : GrainId) (s : State) (i : Ins), issues op (.grain g) s i = true →
    exec (mk (.grain g)) s = .next (wroteG g s (f i (grain (issued (.grain g) s) g)))

/-- Whenever the instruction issues, the state becomes what an effect on the issued state gives. -/
def acts (op : Op) (mk : Issuer → Sys2Proof.Instr) (f : Issuer → Ins → State → State) : Prop :=
  ∀ (u : Issuer) (s : State) (i : Ins), issues op u s i = true → exec (mk u) s = .next (f u i (issued u s))

/-- As acts, for an instruction that only grains have. -/
def actsG (op : Op) (mk : Issuer → Sys2Proof.Instr) (f : GrainId → Ins → State → State) : Prop :=
  ∀ (g : GrainId) (s : State) (i : Ins), issues op (.grain g) s i = true → exec (mk (.grain g)) s = .next (f g i (issued (.grain g) s))

/-- As acts, for an instruction that only binders have. -/
def actsB (op : Op) (mk : Issuer → Sys2Proof.Instr) (f : SheafId → Ins → State → State) : Prop :=
  ∀ (h : SheafId) (s : State) (i : Ins), issues op (.binder h) s i = true → exec (mk (.binder h)) s = .next (f h i (issued (.binder h) s))

/-- Lane by lane, by element type: one vector, two vectors, two vectors and the old destination (R77, R786). -/
def lane1 (ff : Fmt → Nat → Nat) (fi : Nat → Nat → Nat) (i : Ins) (x : Grain) : Grain :=
  let w := etWidth i.imm
  vSet x i.rd (vecOf w ((lanesOf w (vGet x i.ra)).map (if etFloat i.imm then ff (fmtOf i.imm) else fi w)))
def lane2 (ff : Fmt → Nat → Nat → Nat) (fi : Nat → Nat → Nat → Nat) (i : Ins) (x : Grain) : Grain :=
  let w := etWidth i.imm
  vSet x i.rd (vecOf w (List.zipWith (if etFloat i.imm then ff (fmtOf i.imm) else fi w) (lanesOf w (vGet x i.ra)) (lanesOf w (vGet x i.rb))))

/-- A ring's next command is a verb of a code, and may start (R577, R578). -/
def verbReady (s : State) (fn : FnId) (ring : Fin 8) (code : Nat) (v : Verb) : Bool := verbNext s fn ring code == some v

/-- A started verb, and the state in which it takes its effect. -/
def begun (v : Verb) : Verb := { v with started := true }
def started (s : State) (v : Verb) : State := modVerb s v.id (fun w => { w with started := true })

/-- A verb of the owner is ready. -/
def ownerReady (s : State) (fn : FnId) (ring : Fin 8) (code : Nat) (v : Verb) : Bool := verbReady s fn ring code v && v.fn == 0

/-- A register write by an initiator reaches the register (R51 to R53, R56). -/
def mayWrite (s : State) (i : Initiator) (l : RegLoc) : Bool := i != .damper true && regAllowed s i l && !unitGone s i l

/-- A packet of a type is at its destination, in its turn, and not at a gateway of the Flue (R278, R283, R303). -/
def arrived (ty : PktType) (f : Flight) (s : State) : Bool := f.pkt.type == ty && atDest f && !atGateway f && firstOfFlow s f

/-! ### Frames -/

/-- Every byte of every scratchpad and of every binder's memory reads as before. -/
def bytesKept (s t : State) : Prop :=
  (∀ g a : Nat, memRead (grain t g).mem a = memRead (grain s g).mem a) ∧
  (∀ h a : Nat, memRead (sheaf t h).bmem a = memRead (sheaf s h).bmem a)

/-- Every register reads as before, but for the issue counter of the grain that issued (R124). -/
def regsKept (u : Issuer) (s t : State) : Prop :=
  ∀ l : RegLoc, (∀ g, u = .grain g → regKey l ≠ regKey (rGrain g 1 0x02C)) → reg t l = reg s l

/-- Everything outside the units and the registers is as before: packets, queues, logs, clocks, the attached memories. -/
def restKept (s t : State) : Prop := ∃ gs hs rs, t = { s with grains := gs, sheaves := hs, regs := rs }

/-- The memories of grains and binders are in canonical form. -/
def memsWf (s : State) : Prop := (∀ g : Nat, memWf (grain s g).mem = true) ∧ (∀ h : Nat, memWf (sheaf s h).bmem = true)

end Machine
end Sys2Proof
end

