-- ==== Sys2Proof/Certificates/Slice0/Obligations.lean ====
section
/-!
DEFINITION. The statements for the provers.
-/
open Sys2Proof Sys2Proof.Machine

/-! ### The step -/

/-- A step runs the command at the front of the queue on the state with the queue's rest (95_what_each_step_holds.md). With a command c at
the front of the queue, one step is exec of c on the state whose queue is the rest. That commands wait in a queue is the model's form
(log 1). -/
def Obligations.StepRunsFront : Prop :=
  ∀ (c : Instr) (s : State) (rest : List Instr), s.pending = c :: rest → step s = exec c { s with pending := rest }

/-! ### Instructions of grains and binders -/

/-- Scalar arithmetic, logic, comparison and immediates: s[rd] takes the result (R77, R783). Whenever the instruction issues, in a grain or
a binder: ADD, SUB, AND, OR, XOR, SLT, SLTU, MUL and MULH compute from s[ra] and s[rb]; ADDI adds the sign-extended imm12; ANDI, ORI and
XORI take it zero-extended; LI takes its sign-extended imm17; LIH writes the upper half and keeps the lower; SHI shifts by imm[4:0] in
the way imm[11:10] names. s[rd] takes the result and the unit moves on; nothing else changes but the issue counter. -/
def Obligations.ScalarArithmetic : Prop :=
  (givesS .add .add (fun c i => sGet c i.ra + sGet c i.rb) ∧
   givesS .sub .sub (fun c i => sGet c i.ra - sGet c i.rb) ∧
   givesS .andd .andd (fun c i => sGet c i.ra &&& sGet c i.rb) ∧
   givesS .orr .orr (fun c i => sGet c i.ra ||| sGet c i.rb) ∧
   givesS .xor .xor (fun c i => sGet c i.ra ^^^ sGet c i.rb) ∧
   givesS .slt .slt (fun c i => if (sGet c i.ra).slt (sGet c i.rb) then 1 else 0) ∧
   givesS .sltu .sltu (fun c i => if (sGet c i.ra).ult (sGet c i.rb) then 1 else 0) ∧
   givesS .mul .mul (fun c i => sGet c i.ra * sGet c i.rb) ∧
   givesS .mulh .mulh (fun c i => BitVec.ofInt 32 ((sGet c i.ra).toInt * (sGet c i.rb).toInt / 2 ^ 32))) ∧
  (givesS .addi .addi (fun c i => sGet c i.ra + (BitVec.ofNat 12 i.imm).signExtend 32) ∧
   givesS .andi .andi (fun c i => sGet c i.ra &&& BitVec.ofNat 32 i.imm) ∧
   givesS .ori .ori (fun c i => sGet c i.ra ||| BitVec.ofNat 32 i.imm) ∧
   givesS .xori .xori (fun c i => sGet c i.ra ^^^ BitVec.ofNat 32 i.imm) ∧
   givesS .li .li (fun _ i => (BitVec.ofNat 17 i.imm).signExtend 32) ∧
   (∀ (u : Issuer) (s : State) (i : Ins), issues .lih u s i = true →
     exec (.lih u) s = .next (wroteS u s i.rd (BitVec.ofNat 32 ((sGet (core s u) i.rd).toNat % 2 ^ 16 + i.imm % 2 ^ 16 * 2 ^ 16)))) ∧
   givesS .shi .shi (fun c i =>
     let n := i.imm % 32
     if i.imm / 2 ^ 10 % 4 = 0 then sGet c i.ra <<< n
     else if i.imm / 2 ^ 10 % 4 = 1 then sGet c i.ra >>> n else (sGet c i.ra).sshiftRight n))

/-- R785: MIN, MAX, shifts, CLZ, POPC, RDCYC, RDID (R785). Whenever the instruction issues: MIN and MAX compare as signed integers; SLL, SRL
and SRA shift by s[rb][4:0]; CLZ of 0 is 32, else the leading zeros; POPC counts the set bits; RDCYC writes the low 32 bits of the cycle
counter; RDID writes the image coordinate R540 names. -/
def Obligations.R785ScalarFunctions : Prop :=
  givesS .minS .minS (fun c i => if (sGet c i.rb).slt (sGet c i.ra) then sGet c i.rb else sGet c i.ra) ∧
  givesS .maxS .maxS (fun c i => if (sGet c i.ra).slt (sGet c i.rb) then sGet c i.rb else sGet c i.ra) ∧
  givesS .sll .sll (fun c i => sGet c i.ra <<< ((sGet c i.rb).extractLsb' 0 5).toNat) ∧
  givesS .srl .srl (fun c i => sGet c i.ra >>> ((sGet c i.rb).extractLsb' 0 5).toNat) ∧
  givesS .sra .sra (fun c i => (sGet c i.ra).sshiftRight ((sGet c i.rb).extractLsb' 0 5).toNat) ∧
  givesS .clz .clz (fun c i => if sGet c i.ra = 0 then 32 else BitVec.ofNat 32 (31 - Nat.log2 (sGet c i.ra).toNat)) ∧
  givesS .popc .popc (fun c i => BitVec.ofNat 32 ((List.range 32).filter (fun k => (sGet c i.ra).toNat.testBit k)).length) ∧
  (∀ (u : Issuer) (s : State) (i : Ins), issues .rdcyc u s i = true →
    exec (.rdcyc u) s = .next (wroteS u s i.rd (BitVec.ofNat 32 (s.cycle - (core s u).cycle0)))) ∧
  (∀ (u : Issuer) (s : State) (i : Ins), issues .rdid u s i = true →
    exec (.rdid u) s = .next (wroteS u s i.rd (word (imageCoord s (routerOf u)))))

/-- Predicate instructions: p[rd] takes the result (R79, R80). Whenever the instruction issues: PCMP and PCMPI by the condition their field
names; PAND, POR, PXOR, PANDN of two predicates; S2P is s[ra] other than 0; P2S gathers the predicates, p0 as one. -/
def Obligations.PredicateResults : Prop :=
  let cond := fun (k : Nat) (a b : Word) =>
    if k = 0 then a == b else if k = 1 then a != b else if k = 2 then a.slt b else if k = 3 then b.sle a
    else if k = 4 then a.ult b else b.ule a
  givesP .pcmp .pcmp (fun i => i.rd) (fun c i => cond i.fn (sGet c i.ra) (sGet c i.rb)) ∧
  givesP .pcmpi .pcmpi (fun i => i.rd % 8) (fun c i => cond (i.rd / 8) (sGet c i.ra) ((BitVec.ofNat 12 i.imm).signExtend 32)) ∧
  givesP .pand .pand (fun i => i.rd) (fun c i => pGet c i.ra && pGet c i.rb) ∧
  givesP .por .por (fun i => i.rd) (fun c i => pGet c i.ra || pGet c i.rb) ∧
  givesP .pxor .pxor (fun i => i.rd) (fun c i => xor (pGet c i.ra) (pGet c i.rb)) ∧
  givesP .pandn .pandn (fun i => i.rd) (fun c i => pGet c i.ra && !pGet c i.rb) ∧
  givesP .s2p .s2p (fun i => i.rd) (fun c i => decide (sGet c i.ra ≠ 0)) ∧
  (∀ (u : Issuer) (s : State) (i : Ins), issues .p2s u s i = true →
    exec (.p2s u) s = .next (wroteS u s i.rd
      (BitVec.ofNat 32 (((List.range 8).filter (fun k => pGet (core s u) k)).foldl (fun a k => a + 2 ^ k) 0))))

/-- BR and JR: the target and the link (R74, R784). A BR that issues with its target inside the code, and a JR that issues with its target
inside the code (in a binder the target is taken modulo 2^16), write s[rd] with the word index of the following instruction, s0 taking
nothing, and go to the target; loops whose body is left end. -/
def Obligations.BranchesAndLinks : Prop :=
  (∀ (u : Issuer) (s : State) (i : Ins) (t : Nat), issues .br u s i = true →
    ((core s u).pc : Int) + sgn 12 i.imm = t → t < codeWords u →
    exec (.br u) s = .next (setCore (issued u s) u
      (jumpTo (sSet (core (issued u s) u) i.rd (BitVec.ofNat 32 ((core s u).pc + 1))) t))) ∧
  (∀ (g : GrainId) (s : State) (i : Ins) (t : Nat), issues .jr (.grain g) s i = true →
    ((sGet (core s (.grain g)) i.ra).toNat % 2 ^ 10 : Int) + sgn 12 i.imm = t → t < 1024 →
    exec (.jr (.grain g)) s = .next (setCore (issued (.grain g) s) (.grain g)
      (jumpTo (sSet (core (issued (.grain g) s) (.grain g)) i.rd (BitVec.ofNat 32 ((core s (.grain g)).pc + 1))) t))) ∧
  (∀ (h : SheafId) (s : State) (i : Ins), issues .jr (.binder h) s i = true →
    exec (.jr (.binder h)) s = .next (setCore (issued (.binder h) s) (.binder h)
      (jumpTo (sSet (core (issued (.binder h) s) (.binder h)) i.rd (BitVec.ofNat 32 ((core s (.binder h)).pc + 1)))
        ((((sGet (core s (.binder h)) i.ra).toNat % 2 ^ 16 : Int) + sgn 12 i.imm) % 2 ^ 16).toNat)))

/-- HALT, BREAK and NOP (R66, R77). HALT halts its unit; BREAK does the same when GRN_CTRL.BREAK_EN is 1 and only moves on otherwise; NOP
only moves on. A halted binder's state is HALTED and its RUN bit reads 0. -/
def Obligations.HaltBreakNop : Prop :=
  (∀ (u : Issuer) (s : State) (i : Ins), issues .nop u s i = true → exec (.nop u) s = .next (next1 (issued u s) u)) ∧
  (∀ (u : Issuer) (s : State) (i : Ins), issues .halt u s i = true → exec (.halt u) s = .next (haltCore (issued u s) u)) ∧
  (∀ (u : Issuer) (s : State) (i : Ins), issues .brk u s i = true → regBit s (rCtrl u) 1 = true →
    exec (.brk u) s = .next (haltCore (issued u s) u)) ∧
  (∀ (u : Issuer) (s : State) (i : Ins), issues .brk u s i = true → regBit s (rCtrl u) 1 = false →
    exec (.brk u) s = .next (next1 (issued u s) u)) ∧
  (∀ (h : SheafId) (s : State), (core (haltCore s (.binder h)) (.binder h)).state = .halted ∧
    regBit (haltCore s (.binder h)) (rCtrl (.binder h)) 0 = false)

/-- LOOP: a count of 0 skips the body, another count starts it (R74, R112). A LOOP that issues, its end not before its body: with a count
other than 0 its level holds the count, the start and the end and the body starts at the next word; with 0 the body is skipped. In a
binder bits [15:10] of the end are those of the LOOP's own word. -/
def Obligations.HardwareLoops : Prop :=
  let stop := fun (u : Issuer) (s : State) (i : Ins) =>
    if isBinder u then (core s u).pc / 2 ^ 10 * 2 ^ 10 + i.imm else i.imm
  (∀ (u : Issuer) (s : State) (i : Ins), issues .loop u s i = true → (core s u).pc + 1 ≤ stop u s i → sGet (core s u) i.ra ≠ 0 →
    exec (.loop u) s = .next (setCore (issued u s) u
      (advance { core (issued u s) u with
        loops := (core s u).loops.set! i.rd
          ⟨true, sGet (core s u) i.ra, BitVec.ofNat 16 ((core s u).pc + 1), BitVec.ofNat 16 (stop u s i)⟩ } 1))) ∧
  (∀ (u : Issuer) (s : State) (i : Ins), issues .loop u s i = true → (core s u).pc + 1 ≤ stop u s i → sGet (core s u) i.ra = 0 →
    exec (.loop u) s = .next (setCore (issued u s) u
      (pcAfter { core (issued u s) u with loops := (core s u).loops.set! i.rd {} } (stop u s i))))

/-- LW, LHU, LBU, LH, LB: s[rd] takes the bytes read (R78). A scalar load that issues reads n bytes at its address, after the code check
with its findings, and writes them to s[rd], zero-extended (LW, LHU, LBU) or sign-extended (LH, LB). -/
def Obligations.ScalarLoads : Prop :=
  let load := fun (op : Op) (mk : Issuer → EccFinds → Instr) (n : Nat) (ext : Nat → Word) =>
    ∀ (u : Issuer) (ecc : EccFinds) (s : State) (i : Ins), issues op u s i = true →
      let r := scalarRead u ecc (issued u s) (scalarAddr u (core (issued u s) u) i n) n
      exec (mk u ecc) s = .next (setCore r.2 u (advance (sSet (core r.2 u) i.rd (ext r.1)) 1))
  load .lw .lw 4 (BitVec.ofNat 32) ∧ load .lhu .lhu 2 (BitVec.ofNat 32) ∧ load .lbu .lbu 1 (BitVec.ofNat 32) ∧
  load .lh .lh 2 (fun v => (BitVec.ofNat 16 v).signExtend 32) ∧ load .lb .lb 1 (fun v => (BitVec.ofNat 8 v).signExtend 32)

/-- SW, SH, SB: the low bytes of s[rd] are stored (R78, R783). A scalar store that issues writes the low 4, 2 or 1 bytes of s[rd] at its
address: in a grain where the address lies in the scratchpad, in a binder in its memory. -/
def Obligations.ScalarStores : Prop :=
  let store := fun (op : Op) (mk : Issuer → Instr) (n : Nat) =>
    (∀ (g : GrainId) (s : State) (i : Ins), issues op (.grain g) s i = true → scalarAddr (.grain g) (core s (.grain g)) i n < spdSize →
      exec (mk (.grain g)) s = .next (wroteG g s (spdPut (grain (issued (.grain g) s) g) (scalarAddr (.grain g) (core s (.grain g)) i n) n
        ((sGet (core s (.grain g)) i.rd).toNat % 256 ^ n)))) ∧
    (∀ (h : SheafId) (s : State) (i : Ins), issues op (.binder h) s i = true →
      exec (mk (.binder h)) s = .next (next1 (bmemWrite (issued (.binder h) s) h (scalarAddr (.binder h) (core s (.binder h)) i n) n
        ((sGet (core s (.binder h)) i.rd).toNat % 256 ^ n)) (.binder h)))
  store .sw .sw 4 ∧ store .sh .sh 2 ∧ store .sb .sb 1

/-- VLD, VST, VLDT, VLDS, VSTS within the scratchpad (R77, R78, R226, R227, R228, R783). A vector access that issues with every row or
segment in the scratchpad: VLD reads four rows; VST writes them; VLDT reads 128 bytes and writes them transposed to v[rd] and the next
register; VLDS and VSTS move four segments where none of them is lost to a bank conflict. -/
def Obligations.VectorMemory : Prop :=
  (∀ (g : GrainId) (ecc : EccFinds) (s : State) (i : Ins), issues .vld (.grain g) s i = true →
    let offs := fourRows (vecAddr (core s (.grain g)) i)
    firstBad offs = none →
    let t := checkPieces ecc g 16 offs (issued (.grain g) s)
    exec (.vld (.grain g) ecc) s = .next (next1 (setGrain t g { grain t g with
      v := (grain t g).v.set! i.rd (BitVec.ofNat 512 (packAll 128 (offs.map (fun a => spdBytes (grain t g) a 16)))) }) (.grain g))) ∧
  (∀ (g : GrainId) (s : State) (i : Ins), issues .vst (.grain g) s i = true →
    let offs := fourRows (vecAddr (core s (.grain g)) i)
    firstBad offs = none →
    let x := grain (issued (.grain g) s) g
    exec (.vst (.grain g)) s = .next (wroteG g s (spdPuts x 16 (offs.zipIdx.map (fun e =>
      (e.1, (x.v.getD i.rd 0).toNat / 2 ^ (128 * e.2) % 2 ^ 128)))))) ∧
  (∀ (g : GrainId) (ecc : EccFinds) (s : State) (i : Ins), issues .vldt (.grain g) s i = true →
    let a := (sGet (core s (.grain g)) i.ra).toNat % 65536 / 128 * 128
    a < spdSize →
    let offs := (List.range 8).map (fun k => a + 16 * k)
    let t := starve g (checkPieces ecc g 16 offs (issued (.grain g) s))
    let r := packAll 128 (offs.map (fun b => spdBytes (grain t g) b 16))
    let q := if i.fn = 0 then transpose 8 16 r else transpose 16 4 r
    exec (.vldt (.grain g) ecc) s = .next (next1 (setGrain t g { grain t g with
      v := ((grain t g).v.set! i.rd (BitVec.ofNat 512 q)).set! (i.rd + 1) (BitVec.ofNat 512 (q / 2 ^ 512)) }) (.grain g))) ∧
  (∀ (g : GrainId) (ecc : EccFinds) (s : State) (i : Ins), issues .vlds (.grain g) s i = true →
    let offs := segOffs (core s (.grain g)) i
    firstBad offs = none → (∀ k, k < 4 → segLost offs k = false) →
    let t := checkPieces ecc g (segSize i.fn) offs (issued (.grain g) s)
    exec (.vlds (.grain g) ecc) s = .next (next1 (setGrain t g { grain t g with
      v := (grain t g).v.set! i.rd (BitVec.ofNat 512 (packAll (8 * segSize i.fn) (offs.map (fun a => spdBytes (grain t g) a (segSize i.fn))))) })
        (.grain g))) ∧
  (∀ (g : GrainId) (s : State) (i : Ins), issues .vsts (.grain g) s i = true →
    let offs := segOffs (core s (.grain g)) i
    firstBad offs = none → (∀ k, k < 4 → segLost offs k = false) →
    let n := segSize i.fn
    let x := grain (issued (.grain g) s) g
    exec (.vsts (.grain g)) s = .next (wroteG g s (spdPuts x n (offs.zipIdx.map (fun e =>
      (e.1, (x.v.getD i.rd 0).toNat / 2 ^ (8 * n * e.2) % 2 ^ (8 * n)))))))

/-- Lane-wise arithmetic: v[rd] takes the lanes' results (R77, R133, R786). VADD, VSUB, VMUL, VMIN, VMAX, VABS, VNEG and VFMA by lane: the
floating formats' arithmetic, or integers modulo 2^w. VFMA's reading is log 12, the precision of operations is log 13. -/
def Obligations.VectorArithmetic : Prop :=
  givesG .vadd .vadd (lane2 fadd (fun w a b => (a + b) % 2 ^ w)) ∧
  givesG .vsub .vsub (lane2 (fun f a b => toBits f (addV (ofBits f a) (negV (ofBits f b)))) (fun w a b => ((a - b : Int) % 2 ^ w).toNat)) ∧
  givesG .vmul .vmul (lane2 fmul (fun w a b => a * b % 2 ^ w)) ∧
  givesG .vmin .vmin (lane2 (fun f a b => toBits f (minV (ofBits f a) (ofBits f b))) (fun w a b => if sgn w b < sgn w a then b else a)) ∧
  givesG .vmax .vmax (lane2 (fun f a b => toBits f (maxV (ofBits f a) (ofBits f b))) (fun w a b => if sgn w a < sgn w b then b else a)) ∧
  givesG .vabs .vabs (lane1 (fun f a => toBits f (absV (ofBits f a))) (fun w a => ((sgn w a).natAbs : Int) % 2 ^ w |>.toNat)) ∧
  givesG .vneg .vneg (lane1 (fun f a => toBits f (negV (ofBits f a))) (fun w a => ((-a : Int) % 2 ^ w).toNat)) ∧
  givesG .vfma .vfma (fun i x =>
    let w := etWidth i.imm
    let f := if etFloat i.imm then ffma (fmtOf i.imm) else fun a b c => (a * b + c) % 2 ^ w
    vSet x i.rd (vecOf w (List.zipWith (fun a bc => f a bc.1 bc.2) (lanesOf w (vGet x i.ra))
      (List.zip (lanesOf w (vGet x i.rb)) (lanesOf w (vGet x i.rd)))))) ∧
  givesG .vshl .vshl (lane2 (fun f a b => a * 2 ^ (b % fmtW f) % 2 ^ fmtW f) (fun w a b => a * 2 ^ (b % w) % 2 ^ w)) ∧
  givesG .vshr .vshr (lane2 (fun f a b => a / 2 ^ (b % fmtW f)) (fun w a b => a / 2 ^ (b % w))) ∧
  givesG .vsar .vsar (lane2 (fun f a b => (sgn (fmtW f) a / 2 ^ (b % fmtW f) % 2 ^ fmtW f).toNat)
    (fun w a b => (sgn w a / 2 ^ (b % w) % 2 ^ w).toNat))

/-- Bitwise lanes, comparisons and VEXP2, VLOG2, VRCP, VRSQRT (R77, R164). Bitwise operations and shifts by lane, the comparisons into a
lane's bits, and the four functions by lane within the tables of R164. -/
def Obligations.VectorLogicAndFunctions : Prop :=
  givesG .vand .vand (fun i x => vSet x i.rd (vGet x i.ra &&& vGet x i.rb)) ∧
  givesG .vor .vor (fun i x => vSet x i.rd (vGet x i.ra ||| vGet x i.rb)) ∧
  givesG .vxor .vxor (fun i x => vSet x i.rd (vGet x i.ra ^^^ vGet x i.rb)) ∧
  (let mask := fun (w : Nat) (b : Bool) => if b then 2 ^ w - 1 else 0
   givesG .vcmpeq .vcmpeq (lane2 (fun f a b => mask (fmtW f) (eqV (ofBits f a) (ofBits f b))) (fun w a b => mask w (a == b))) ∧
   givesG .vcmplt .vcmplt (lane2 (fun f a b => mask (fmtW f) (ltV (ofBits f a) (ofBits f b))) (fun w a b => mask w (decide (sgn w a < sgn w b)))) ∧
   givesG .vcmple .vcmple (lane2 (fun f a b => mask (fmtW f) (ltV (ofBits f a) (ofBits f b) || eqV (ofBits f a) (ofBits f b)))
     (fun w a b => mask w (decide (sgn w a ≤ sgn w b))))) ∧
  givesG .vexp2 .vexp2 (lane1 (fun f a => fnBits f exp2V a) (fun _ a => a)) ∧
  givesG .vlog2 .vlog2 (lane1 (fun f a => fnBits f log2V a) (fun _ a => a)) ∧
  givesG .vrcp .vrcp (lane1 (fun f a => fnBits f rcpV a) (fun _ a => a)) ∧
  givesG .vrsqrt .vrsqrt (lane1 (fun f a => fnBits f rsqrtV a) (fun _ a => a))

/-- VSEL, VBCST, VEXT, VPERM and the reductions (R77, R786, R787, R788). VSEL takes bits by the pattern in each lane, VBCST puts s[ra]'s low
bits in every lane, VEXT takes the lane s[rb] names modulo the lane count, VPERM permutes lanes (its index is the model's reading, log
14); VRSUM, VRMAX and VRMIN put the result in lane 0 and zero in the others. -/
def Obligations.VectorSelectionsAndReductions : Prop :=
  (givesG .vsel .vsel (fun i x =>
     let w := etWidth i.imm
     vSet x i.rd (vecOf w (List.zipWith (fun a bc => if bc.2 ≠ 0 then a else bc.1) (lanesOf w (vGet x i.ra))
       (List.zip (lanesOf w (vGet x i.rb)) (lanesOf w (vGet x i.rd)))))) ∧
   givesG .vbcst .vbcst (fun i x =>
     let w := etWidth i.imm
     vSet x i.rd (vecOf w (List.replicate (512 / w) ((sGet x.core i.ra).toNat % 2 ^ w)))) ∧
   givesG .vext .vext (fun i x =>
     let w := etWidth i.imm
     let a := (lanesOf w (vGet x i.ra)).getD ((sGet x.core i.rb).toNat % (512 / w)) 0
     { x with core := sSet x.core i.rd (if i.imm = 3 then (BitVec.ofNat 16 a).signExtend 32 else if i.imm = 4 then (BitVec.ofNat 8 a).signExtend 32
       else BitVec.ofNat 32 a) }) ∧
   givesG .vperm .vperm (fun i x =>
     let w := etWidth i.imm
     vSet x i.rd (vecOf w ((lanesOf w (vGet x i.rb)).map (fun k => (lanesOf w (vGet x i.ra)).getD (k % (512 / w)) 0))))) ∧
  (let red := fun (i : Ins) (x : Grain) (v : Nat) => vSet x i.rd (BitVec.ofNat 512 v)
   givesG .vrsum .vrsum (fun i x =>
     let l := lanesOf (etWidth i.imm) (vGet x i.ra)
     red i x (if i.imm = 0 then treeSum (fadd fp32) 4 l
       else if i.imm = 1 then toBits bf16 (ofBits fp32 (treeSum (fadd fp32) 5 (l.map (fun a => toBits fp32 (ofBits bf16 a)))))
       else l.sum % 2 ^ etWidth i.imm)) ∧
   givesG .vrmax .vrmax (fun i x => red i x (redBy maxF maxI i.imm (lanesOf (etWidth i.imm) (vGet x i.ra)))) ∧
   givesG .vrmin .vrmin (fun i x => red i x (redBy minF minI i.imm (lanesOf (etWidth i.imm) (vGet x i.ra)))) ∧
   givesG .vrdl .vrdl (fun i x =>
     setRegs 16 x i.rd (riddle i.fn (sGet x.core i.ra) ((List.range (2 ^ i.fn)).flatMap (fun k => lanesOf 16 (vGet x (i.rd + k))))) (2 ^ i.fn)))

/-- VQNT, VDQ, VCVT, VRDL, VACC, VACCZ (R139, R143, R145, R199). Each conversion that issues has the effect the shared conversion operations
compute on its grain, its registers and its counts; VACC and VACCZ read a tile, and VACCZ clears it. -/
def Obligations.ConversionResults : Prop :=
  let conv := fun (op : Op) (mk : Issuer → Instr) (f : Ins → Word → Nat → Grain → Conv × Grain) =>
    actsG op mk (fun g i s =>
      let fc := sGet (core s (.grain g)) i.rb
      let t := ergTag s g (bits fc 21 10)
      let r := f i fc g (grain t g)
      next1 (ergCounts (setGrain t g r.2) g r.1.sat r.1.clamp r.1.nan r.1.poison) (.grain g))
  conv .vqnt .vqnt (fun i fc g x =>
    let c := quantBlock i.fn fc (if bit fc 9 then some ((List.range 32).map (srGen x g 32)) else none) (quantSrc x i)
    (c, vSet (if bit fc 9 then srStep x g 32 else x) i.rd
      (BitVec.ofNat 512 (packAll (elemWidth (elemOf i.fn)) (c.out.take 32) + 2 ^ 504 * c.out.getD 32 0)))) ∧
  conv .vdq .vdq (fun i _ _ x =>
    let c := dequantBlock (fmtOf i.imm) i.fn (vGet x i.ra)
    (c, if i.imm = 0 then setRegs 32 x i.rd c.out 2 else setRegs 16 x i.rd c.out 1)) ∧
  conv .vcvt .vcvt (fun i fc g x =>
    let a := i.imm
    let b := i.fn
    let src := lanesOf (etWidth a) (vGet x i.ra) ++ (if etWidth b < etWidth a then lanesOf (etWidth a) (vGet x (i.ra + 1)) else [])
    let sr := cvtSr fc a b
    let es := src.zipIdx.map (fun e => cvtElem a b (if sr then some (srGen x g (cvtCount a b) e.2) else none) e.1)
    ({ sat := (es.map (fun e => e.2.1)).sum, nan := (es.map (fun e => e.2.2)).sum },
      setRegs (etWidth b) (if sr then srStep x g (cvtCount a b) else x) i.rd (es.map Prod.fst) (if etWidth a < etWidth b then 2 else 1))) ∧
  (let read := fun (clear : Bool) (g : GrainId) (i : Ins) (s : State) =>
    let x := grain s g
    let t := tile x i.ra
    let r := t.elems.toList.map (accElem t i.imm)
    let y := set4 x i.rd (r.map Prod.fst)
    let z := if clear then { y with acc := y.acc.set! i.ra { t with elems := Vector.replicate 64 0 } } else y
    next1 (ergCount (setGrain s g z) g .sat (r.filter Prod.snd).length) (.grain g)
   actsG .vacc .vacc (read false) ∧ actsG .vaccz .vaccz (read true))

/-- ERGRES: a residual figure is posted (R174). ERGRES takes lane 0 of va as a residual figure and posts it under the tag in its format
control word. A figure the spec does not state is a free value (log 2). -/
def Obligations.ErgotResidual : Prop :=
  (∀ (g : GrainId) (s : State) (i : Ins) (k : Nat), issues .ergres (.grain g) s i = true →
    residFig (ofBits fp32 ((vGet (grain s g) i.ra).toNat % 2 ^ 32)) = some k → isNan (ofBits fp32 ((vGet (grain s g) i.ra).toNat % 2 ^ 32)) = false →
    let t := issued (.grain g) s
    exec (.ergres (.grain g)) s = .next (next1 { t with
      posts := t.posts ++ [⟨g, grainPart t g, bits (sGet (core s (.grain g)) i.rb) 21 10, {}, some k⟩] } (.grain g))) ∧
  (∀ (g : GrainId) (s : State) (i : Ins), issues .ergres (.grain g) s i = true →
    residFig (ofBits fp32 ((vGet (grain s g) i.ra).toNat % 2 ^ 32)) = none →
    let t := issued (.grain g) s
    exec (.ergres (.grain g)) s = .next (next1 { t with fresh := s.fresh + 1
                                                        posts := t.posts ++ [⟨g, grainPart t g, bits (sGet (core s (.grain g)) i.rb) 21 10, {},
                                                          some (bits (Config.freeWord s.fresh) 15 0)⟩] } (.grain g)))

/-- The matrix unit takes, begins and completes an operation (R192, R197, R202, R203). An MXU that issues joins the queue with the scalar
registers it names; the first operation that has not begun begins, and prepares its tile when no operation begun before it works on that
tile; the operation that began first completes, its tile takes the new elements, and the next begun on that tile finds it prepared from
there. What an operation reads of rows written meanwhile is a free choice (R217). -/
def Obligations.MatrixUnit : Prop :=
  actsG .mxu .mxu (fun g i s =>
    let x := grain s g
    next1 (setGrain s g { x with mxuQ := x.mxuQ ++ [
      { imm := i.imm, w1 := i.w1, sa := sGet x.core i.ra, sw := sGet x.core (nbits i.w1 31 27)
        sx := sGet x.core (nbits i.w1 26 22), sm := sGet x.core (nbits i.w1 21 17), issued := s.cycle, pc := x.core.pc }] }) (.grain g) 2) ∧
  (∀ (g : GrainId) (s : State) (o : MxuOp) (a b : List MxuOp), (grain s g).mxuQ = a ++ o :: b → (∀ q ∈ a, q.begun = true) → o.begun = false →
    (∀ q ∈ a, mxuTile q.imm ≠ mxuTile o.imm) → (∀ q ∈ b, q.begun = false) → o.ready = false →
    let t := tile (grain s g) (mxuTile o.imm)
    mismatch o t.ttype t.texp = false →
    exec (.mxuOpStart g []) s = .next (incReg (setGrain s g { grain s g with
      acc := (grain s g).acc.set! (mxuTile o.imm) (startTile o t)
      mxuQ := a ++ { o with begun := true, ready := true } :: b }) (rMxu g 0x40))) ∧
  (∀ (g : GrainId) (s : State) (o q : MxuOp) (a c b : List MxuOp), (grain s g).mxuQ = a ++ q :: c ++ o :: b →
    (∀ p ∈ a ++ q :: c, p.begun = true) → o.begun = false → (∀ p ∈ a, mxuTile p.imm ≠ mxuTile o.imm) → mxuTile q.imm = mxuTile o.imm →
    q.ready = true → mismatch o (tileNow (grain s g) (mxuTile o.imm)).1 (tileNow (grain s g) (mxuTile o.imm)).2 = false →
    exec (.mxuOpStart g []) s = .next (incReg (setGrain s g { grain s g with
      mxuQ := a ++ q :: c ++ { o with begun := true } :: b }) (rMxu g 0x40))) ∧
  (let result := fun (g : GrainId) (s : State) (o : MxuOp) =>
     { tile (grain s g) (mxuTile o.imm) with
       elems := Vector.ofFn (fun (k : Fin 64) => BitVec.ofNat 32 ((mxuRun (opView (grain s g) o s.fresh) o
         ((tile (grain s g) (mxuTile o.imm)).elems.toList.map BitVec.toNat)).elems.getD k.val 0)) }
   (∀ (g : GrainId) (s : State) (o : MxuOp) (rest : List MxuOp), (grain s g).mxuQ = o :: rest → o.begun = true →
     (∀ q ∈ rest, q.begun = true → mxuTile q.imm ≠ mxuTile o.imm) →
     ∃ t, exec (.mxuOpComplete g) s = .next t ∧ (grain t g).mxuQ = rest ∧
       (grain t g).acc = (grain s g).acc.set! (mxuTile o.imm) (result g s o)) ∧
   (∀ (g : GrainId) (s : State) (o q : MxuOp) (a b : List MxuOp), (grain s g).mxuQ = o :: (a ++ q :: b) → o.begun = true →
     (∀ p ∈ a, p.begun = true → mxuTile p.imm ≠ mxuTile o.imm) → q.begun = true → mxuTile q.imm = mxuTile o.imm → q.ready = false →
     mxuTile o.imm < 4 →
     ∃ t, exec (.mxuOpComplete g) s = .next t ∧ (grain t g).mxuQ = a ++ { q with ready := true } :: b ∧
       (grain t g).acc = (grain s g).acc.set! (mxuTile o.imm) (startTile q (result g s o))))

/-! ### Synchronisation -/

/-- WAIT ends or waits; a waiting unit is released or times out (R82, R83, R85). A WAIT whose counter has reached its threshold, or carries
an error, ends at once with its predicate saying which; else its unit waits. A waiting unit is released by its condition and ends with 0
at its time. -/
def Obligations.WaitOutcomes : Prop :=
  acts .wait .wait (fun u i s =>
    let c := core s u
    let thr := (sGet c i.ra).toNat % 2 ^ 16
    let t := (sGet c i.rb).toNat
    if thr ≤ (waitView s u i.rd).1 ∨ (waitView s u i.rd).2 = true then
      setCore s u { advance (pSet c i.imm (!(waitView s u i.rd).2)) 1 with state := .running, wait := .none }
    else setCore s u { c with state := if isBinder u then .waitNotify else .waitTally
                              wait := .tally i.rd thr (if t = 0 then none else some (s.cycle + t)) i.imm }) ∧
  (∀ (u : Issuer) (s : State) (k thr p : Nat) (dl : Option Nat), (core s u).wait = .tally k thr dl p →
    (thr ≤ (waitView s u k).1 ∨ (waitView s u k).2 = true) →
    exec (.waitRelease u) s = .next (setCore s u
      { advance (pSet (core s u) p (!(waitView s u k).2)) 1 with state := .running, wait := .none })) ∧
  (∀ (u : Issuer) (s : State) (k thr p dl : Nat), (core s u).wait = .tally k thr (some dl) p → dl ≤ s.cycle →
    exec (.waitTimeout u) s = .next (setCore s u
      { advance (pSet (core s u) p (decide (thr ≤ (waitView s u k).1) && !(waitView s u k).2)) 1 with state := .running, wait := .none }))

/-- RD, SET, SUB, ADD, CLRERR on a tally or notify counter (R239, R240). Whenever the instruction issues: s[rd] takes the counter as it was;
RD changes nothing, SET loads the value, SUB subtracts, ADD adds, CLRERR clears the error. -/
def Obligations.TallyOperations : Prop :=
  let op := fun (o : Op) (mk : Issuer → Instr) (f : Issuer → State → Nat → BitVec 16 → State) =>
    acts o mk (fun u i s =>
      let t := f u s i.rb (BitVec.ofNat 16 ((sGet (core s u) i.ra).toNat % 2 ^ 16))
      setCore t u (advance (sSet (core t u) i.rd (tcWord s u i.rb)) 1))
  op .tcRd .tcRd (fun _ s _ _ => s) ∧
  op .tcSet .tcSet (fun u s k v =>
    match u with
    | .grain g => setGrain s g { grain s g with tc := (grain s g).tc.set! k { value := v } }
    | .binder h => setSheaf s h { sheaf s h with nc := (sheaf s h).nc.set! k v }) ∧
  op .tcSub .tcSub tcSubOp ∧
  op .tcAdd .tcAdd (fun u s k v =>
    match u with
    | .grain g => tallyInc s g k v.toNat
    | .binder h => ncInc s h k v.toNat) ∧
  op .tcClrerr .tcClrerr (fun u s k _ =>
    match u with
    | .grain g => setGrain s g { grain s g with tc := (grain s g).tc.set! k { (grain s g).tc.getD k {} with error := false } }
    | .binder _ => s)

/-- SET, RET, RD, CLOSE on a credit window (R249, R250). Whenever the instruction issues in a grain: SET opens a window that may be opened;
RET returns credits; RD reads the window; CLOSE closes it. -/
def Obligations.CreditOperations : Prop :=
  let op := fun (o : Op) (mk : Issuer → Instr) (f : GrainId → State → Nat → Nat → State × Word) =>
    actsG o mk (fun g i s =>
      let r := f g s i.rb ((sGet (core s (.grain g)) i.ra).toNat % 2 ^ 12)
      setCore r.1 (.grain g) (advance (sSet (core r.1 (.grain g)) i.rd r.2) 1))
  op .cwSet .cwSet (fun g s w n => if cwSetOk (window s g w) then (setWindow s g w (cwSet n), 0) else (s, 1)) ∧
  op .cwRet .cwRet (fun g s w n => (cwReturn s g w n, BitVec.ofNat 32 (window (cwReturn s g w n) g w).avail)) ∧
  op .cwRd .cwRd (fun g s w _ => (s, BitVec.ofNat 32 (2 ^ 31 * bnat (window s g w).isOpen + 2 ^ 28 * (window s g w).queue.length +
    2 ^ 16 * (window s g w).inFlight + (window s g w).avail))) ∧
  op .cwClose .cwClose (fun g s w _ => (cwClose s g w, 0))

/-- TRY, ACQ, REL, and what happens while ACQ waits (R98, R100, R101). With a handle that faults nothing TRY and ACQ send a request and
their unit waits, ACQ with its time; a back-off that ends before the deadline sends again; the deadline ends ACQ with BUSY; REL fences first. With a
handle that faults the instruction ends with its fault status. -/
def Obligations.LockOperations : Prop :=
  let good := fun (u : Issuer) (s : State) (i : Ins) => lockFault s u (xlatLock s (partOf s u) (sGet (core s u) i.ra)) = none
  let req := fun (fn : Nat) (u : Issuer) (i : Ins) (s : State) =>
    let h := xlatLock s (partOf s u) (sGet (core s u) i.ra)
    let t := (sGet (core s u) i.rb).toNat
    lockSend (setCore s u { core s u with state := .waitLock
                                          wait := .lock fn h i.rd (if fn = 1 ∧ t ≠ 0 then some (s.cycle + t) else none) none }) u fn h
  (∀ (u : Issuer) (s : State) (i : Ins), issues .lockTry u s i = true → good u (issued u s) i →
    exec (.lockTry u) s = .next (req 0 u i (issued u s))) ∧
  (∀ (u : Issuer) (s : State) (i : Ins), issues .lockAcq u s i = true → good u (issued u s) i →
    exec (.lockAcq u) s = .next (req 1 u i (issued u s))) ∧
  (∀ (u : Issuer) (s : State) (h : Word) (rd t : Nat) (dl : Option Nat), (core s u).wait = .lock 1 h rd dl (some t) → t ≤ s.cycle →
    (∀ d, dl = some d → s.cycle < d) →
    exec (.lockAcqRetry u) s = .next (lockSend (setCore s u { core s u with wait := .lock 1 h rd dl none }) u 1 h)) ∧
  (∀ (u : Issuer) (s : State) (h : Word) (rd dl t : Nat), (core s u).wait = .lock 1 h rd (some dl) (some t) → dl ≤ s.cycle →
    exec (.lockAcqTimeout u) s = .next (lockEnd s u rd 2)) ∧
  (∀ (u : Issuer) (s : State) (i : Ins), issues .lockRel u s i = true → good u (issued u s) i →
    let t := issued u s
    let h := xlatLock t (partOf t u) (sGet (core t u) i.ra)
    exec (.lockRel u) s = .next (fenceCheck (setCore t u { core t u with
      state := .waitLock, wait := .relFence (if lockSheaf h = sheafOf u then .sheaf else .global) h i.rd }) u)) ∧
  (∀ (op : Op) (mk : Issuer → Instr), (op, mk) ∈ [(Op.lockTry, Instr.lockTry), (.lockAcq, .lockAcq), (.lockRel, .lockRel)] →
    ∀ (u : Issuer) (s : State) (i : Ins) (r : Nat), issues op u s i = true →
    let t := issued u s
    lockFault t u (xlatLock t (partOf t u) (sGet (core t u) i.ra)) = some r →
    exec (mk u) s = .next (lockEnd (addrFault t u (lockWordAddr (sGet (core t u) i.ra)) r) u i.rd 5))

/-- FENCE waits for its scope (R95). A fence that issues goes on at once when nothing of its scope is outstanding, and else waits. -/
def Obligations.FenceOperations : Prop :=
  let fence := fun (op : Op) (mk : Issuer → Instr) (k : FenceKind) =>
    acts op mk (fun u _ s => fenceCheck (setCore s u { core s u with state := .waitFence, wait := .fence k }) u)
  fence .fenceL .fenceL .local_ ∧ fence .fenceS .fenceS .sheaf ∧ fence .fenceG .fenceG .global

/-- PUT and NOTIFY send a packet (R87, R89). A PUT with a handle that faults nothing sends rows of v[rd] as one write; NOTIFY sends its
notice to the binder of the own sheaf. -/
def Obligations.PutAndNotify : Prop :=
  let rows := fun (i : Ins) => if i.fn = 0 then 1 else if i.fn = 1 then 2 else 4
  (∀ (g : GrainId) (s t : State) (i : Ins) (h : Word) (off dst : Nat), issues .put (.grain g) s i = true → t = issued (.grain g) s →
    h = xlatPut t (grainPart t g) (sGet (core t (.grain g)) i.ra) → off = bits (sGet (core t (.grain g)) i.rb) 15 4 * 16 →
    putFault t g h off (16 * rows i) = none → bit h 27 = false → dst = atCoord (BitVec.ofNat 21 (bits h 20 0)) →
    exec (.put (.grain g)) s = .next (next1 (request t (.put g (decide (sheafOfGrain dst = sheafOfGrain g))) (.grain g) .write g dst
      (grainPart t g) (rows i) (putAddr h off) (putRows ((grain t g).v.getD i.rd 0) (rows i)) (bits h 31 28)) (.grain g))) ∧
  (∀ (g : GrainId) (s t : State) (i : Ins) (h : Word) (off : Nat), issues .put (.grain g) s i = true → t = issued (.grain g) s →
    h = xlatPut t (grainPart t g) (sGet (core t (.grain g)) i.ra) → off = bits (sGet (core t (.grain g)) i.rb) 15 4 * 16 →
    putFault t g h off (16 * rows i) = none → bit h 27 = true →
    exec (.put (.grain g)) s = .next (next1 (putMulti t g h off (putRows ((grain t g).v.getD i.rd 0) (rows i))) (.grain g))) ∧
  actsG .notify .notify (fun g i s => next1 (sendPkt s
    { type := .notify, mc := false, tag := 0, dst := coordV (sheafPort (sheafOfGrain g)), src := coordV g
      epoch := BitVec.ofNat 9 (epochOf s (.grain g)), part := BitVec.ofNat 6 (grainPart s g)
      len := 0, tally := 0, cw := 0, status := 0, addr := BitVec.ofNat 48 i.rd, body := [] }) (.grain g))

/-- BEATW, GSIG, REGWR, REGRD (R114). In a binder: BEATW waits for the boundary; GSIG starts or halts the grains its mask selects; REGWR and
REGRD send a register request where the address faults nothing. -/
def Obligations.BinderInstructions : Prop :=
  actsB .beatw .beatw (fun h i s => setCore s (.binder h) { core s (.binder h) with state := .waitBeat, wait := .beat i.rd }) ∧
  actsB .gsigStart .gsigStart (fun h i s => next1 ((gsigGrains s h (sGet (core s (.binder h)) i.ra) (sGet (core s (.binder h)) i.rb)).map
    ug |>.foldl sigStart s) (.binder h)) ∧
  actsB .gsigHalt .gsigHalt (fun h i s => next1 (runHaltAll s
    ((gsigGrains s h (sGet (core s (.binder h)) i.ra) (sGet (core s (.binder h)) i.rb)).map ug)) (.binder h)) ∧
  actsB .stoke .stoke (fun h i s => next1 (stokeNotice s h (sGet (core s (.binder h)) i.ra).toNat (sGet (core s (.binder h)) i.rb).toInt)
    (.binder h)) ∧
  (∀ (h : SheafId) (s t : State) (i : Ins) (a : Nat), issues .regwr (.binder h) s i = true → t = issued (.binder h) s →
    a = xlatAddr t (partOf t (.binder h)) (regPair (core t (.binder h)) i) → regAddrFault t (.binder h) a = none →
    exec (.regwr (.binder h)) s = .next (next1 (request t (.reg h none) (.sheaf h) .regReq (sheafPort h) (regRouter (locOf a))
      (partOf t (.binder h)) 1 a [(BitVec.ofNat 128 (sGet (core t (.binder h)) i.rd).toNat, false)]) (.binder h))) ∧
  (∀ (h : SheafId) (s t t1 : State) (i : Ins) (a : Nat), issues .regrd (.binder h) s i = true → t = issued (.binder h) s →
    a = xlatAddr t (partOf t (.binder h)) (regPair (core t (.binder h)) i) → regAddrFault t (.binder h) a = none → i.rd ≠ 0 →
    t1 = request t (.reg h (some i.rd)) (.sheaf h) .regReq (sheafPort h) (regRouter (locOf a)) (partOf t (.binder h)) 0 a [] →
    exec (.regrd (.binder h)) s = .next (setCore t1 (.binder h)
      (advance { core t1 (.binder h) with regReads := i.rd :: (core t1 (.binder h)).regReads } 1)))

/-- Ear operations and ear power (R104, R105, R106, R107, R108, R110). A participant that issues an ear instruction waits with its vector,
and another goes on with its misuse recorded; when all the participants wait with one function each takes the tree's result, and a
barrier changes no vector. A write of GRN_EAR_POWER keeps the codes but 0b11; a transition that ends leaves the ear in the state asked
for. -/
def Obligations.EarOperationsAndPower : Prop :=
  (let ear := fun (op : Op) (mk : Issuer → Instr) (fn : EarFn) =>
     actsG op mk (fun g i s =>
       if (participants s (earOfGrain g)).contains g.val then
         setGrain s g { grain s g with core := { (grain s g).core with state := .waitEar, wait := .ear fn (earVec fn i (grain s g)) i.rd } }
       else next1 (setFault s (.grain g) (2 ^ 7) (grain s g).core.pc) (.grain g))
   ear .earsum .earsum .sum ∧ ear .earmax .earmax .max ∧ ear .earmin .earmin .min ∧ ear .earisum .earisum .isum ∧ ear .earbar .earbar .bar ∧
   (∀ (e : EarId) (s : State) (w : Nat × EarFn × BitVec 512 × Nat) (ws : List (Nat × EarFn × BitVec 512 × Nat)),
     earAll s (participants s e) = some (w :: ws) → (∀ q ∈ ws, q.2.1 = w.2.1) →
     let vec := fun k => ((w :: ws).find? (fun q => q.1 == 16 * e.val + k)).map (fun q => q.2.2.1)
     exec (.earOpComplete e) s = .next (((w :: ws).map Prod.fst).foldl (earFinish (match w.2.1 with | .bar => none | _ => earTree w.2.1 vec)) s))) ∧
  ((∀ (ini : Initiator) (sh : SheafId) (v : Word) (s : State), mayWrite s ini (rSheaf sh 1 0x18) = true →
     exec (.earPowerWrite ini sh v) s = .next ((List.range 16).foldl (fun s n =>
       if bits v (2 * n + 1) (2 * n) = 3 then s else setRegF s (rSheaf sh 1 0x18) (2 * n + 1) (2 * n) (bits v (2 * n + 1) (2 * n))) s)) ∧
   (∀ (e : EarId) (s : State), (ear s e).goal = some .on → exec (.earPowerSettled e) s = .next (earUp s e)) ∧
   (∀ (e : EarId) (s : State) (p : EarPower), (ear s e).goal = some p → p ≠ .on →
     exec (.earPowerSettled e) s = .next (setEar s e { ear s e with now := p, goal := none })))

/-! ### DMA -/

/-- DMA descriptors and streams (R90, R91, R94, R246, R514, R515). A DMA instruction that issues queues its descriptor; the first with rows
left requests them; the first that ended leaves with its tally counted or its fault recorded; the request at the head of a window is
granted credits that are there. A stream descriptor is taken while fewer than 4 run; the next stream in turn places one grain's
descriptor; a stream whose grains are done without a failure ends. -/
def Obligations.DmaAndStreams : Prop :=
  (let dma := fun (op : Op) (mk : Issuer → Instr) (read : Bool) =>
     acts op mk (fun u i s =>
       let c := core s u
       setCore s u (advance (dmaPut c (dmaDesc c i read)) 2))
   dma .dmaRead .dmaRead true ∧ dma .dmaWrite .dmaWrite false ∧
   (∀ (c : Core) (d : Desc), (d.read = false ∨ ∀ e ∈ c.dmaQ, e.read = false) → d.laps = [] →
     dmaPut c d = { c with dmaQ := c.dmaQ ++ [d], nextDesc := c.nextDesc + 1 })) ∧
  ((∀ (u : Issuer) (ecc : EccFinds) (s : State) (d : Desc), (core s u).dmaQ.find? (fun d => d.reason.isNone && d.nextRow < d.rows) = some d →
     exec (.dmaDescStart u ecc) s = .next (dmaRun u d.id ecc 4096 s)) ∧
   (∀ (u : Issuer) (s : State) (d : Desc), (core s u).dmaQ.find? dmaEnded = some d → d.reason = none → d.stream = none →
     exec (.dmaComplete u) s = .next (fenceCheck (countDone (setCore s u { core s u with dmaQ := (core s u).dmaQ.erase d }) u d.ctally) u)) ∧
   (∀ (u : Issuer) (s : State) (d : Desc) (why : Nat), (core s u).dmaQ.find? dmaEnded = some d → d.reason = some why → d.stream = none →
     exec (.dmaComplete u) s = .next (fenceCheck (dmaEndBad (setCore s u { core s u with dmaQ := (core s u).dmaQ.erase d }) u d why) u)) ∧
   (∀ (g : GrainId) (w : Fin 4) (s : State) (n : Nat) (p : Packet) (rest : List (Nat × CreditWho)),
     (window s g w).queue = (n, .remote p) :: rest → n ≤ (window s g w).avail →
     exec (.windowGrant g w) s = .next (reply (setWindow s g w { cwGrant (window s g w) n with queue := rest }) g p .creditGrant 0 n []))) ∧
  ((∀ (sh : SheafId) (ecc : EccFinds) (s : State),
     let x := sheaf s sh
     let n := stSize s sh
     let head := stWord s sh 1 % 2 ^ 16 % n
     (stWord s sh 3).testBit 31 = true → (x.streams.filter (fun q => !q.ended)).length < 4 →
     x.streams.length < (stWord s sh 2 % 2 ^ 16 % n + n - head) % n →
     ∃ t q, exec (.streamStart sh ecc) s = .next t ∧ (sheaf t sh).streams = x.streams ++ [q] ∧ q.index = (head + x.streams.length) % n ∧
       q.ended = false ∧ q.next = 0) ∧
   (∀ (sh : SheafId) (s : State) (q : StreamRun),
     let x := sheaf s sh
     let ready := x.streams.filter (stReady s sh)
     (ready.find? (fun q => q.id > x.streamTurn)).or ready.head? = some q →
     let g := 256 * sh.val + (stFirst q + q.next)
     (earOn s (g / 16) && !fenced s g) = true →
     let s2 := modStream (setSheaf s sh { x with streamTurn := q.id }) sh q.id (fun q => { q with next := q.next + 1 })
     exec (.streamPlace sh) s = .next (setCore s2 (ug g) (dmaPut (core s2 (ug g)) (stDesc q q.next (core s2 (ug g)))))) ∧
   (∀ (sh : SheafId) (s : State) (q : StreamRun), (sheaf s sh).streams.find? (fun q => !q.ended && q.left == 0) = some q →
     q.bad = false → q.failed = 0 →
     let s1 := bmemWrite (modStream s sh q.id (fun q => { q with ended := true })) sh (stSlot s sh q.index + 16) 16
       (bits q.row1 127 96 * 2 ^ 96 + 2 ^ 64)
     exec (.streamEnd sh) s = .next (stPass sh (ncInc s1 sh (bits q.row0 22 20) 1))))

/-! ### Starting, loading, fences -/

/-- RUN, code loads, RTR_CTRL and route tags (R61, R63, R64, R65, R312, R324). A permitted write of RUN starts or halts a unit, BREAK_EN
taking its bit; a code load that may begin makes its grain LOADING, and at its end the words are copied and the state before returns. A
permitted write of RTR_CTRL sets FENCE and PART; one of a tag stores its fields and drops its merge count. -/
def Obligations.UnitAndRouterControl : Prop :=
  ((∀ (ini : Initiator) (u : Issuer) (v : Word) (s : State), mayWrite s ini (rCtrl u) = true → bit v 0 = true →
     exec (.grnRunStart ini u v) s = .next (runStart (setRegF s (rCtrl u) 1 1 (bits v 1 1)) u)) ∧
   (∀ (ini : Initiator) (u : Issuer) (v : Word) (s : State), mayWrite s ini (rCtrl u) = true → bit v 0 = false →
     exec (.grnRunHalt ini u v) s = .next (markHalt (runHalt (setRegF s (rCtrl u) 1 1 (bits v 1 1)) u) u)) ∧
   (∀ (ini : Initiator) (g : GrainId) (v : Word) (s : State), mayWrite s ini (rGrain g 1 0x1C) = true →
     loadBad (grain s g) (bits v 31 20) (bits v 19 10) (bits v 9 0 + 1) = false →
     exec (.codeLoad ini g v) s = .next (setGrain s g { grain s g with
       copy := some ⟨bits v 31 20, bits v 19 10, bits v 9 0 + 1, (grain s g).core.state, false⟩
       core := { (grain s g).core with state := .loading } })) ∧
   (∀ (g : GrainId) (s : State) (k : CodeCopy), (grain s g).copy = some k → k.held = false →
     exec (.codeLoadDone g) s = .next (setGrain s g { grain s g with
       code := copyWords (grain s g) k, copy := none, core := { (grain s g).core with state := k.prior } }))) ∧
  ((∀ (ini : Initiator) (g : GrainId) (v : Word) (s : State), mayWrite s ini (rGrain g 3 0) = true → ownsPorts ini = true →
     exec (.rtrFenceWrite ini g v) s = .next (setRegF (setFence s g (bit v 31)) (rGrain g 3 0) 5 0 (bits v 5 0))) ∧
   (∀ (ini : Initiator) (g : GrainId) (tag : Fin 64) (v : Word) (s : State), mayWrite s ini (rTag g tag) = true → ownsPorts ini = true →
     exec (.rtrTagWrite ini g tag v) s = .next (let t := setReg s (rTag g tag) (v &&& word 0x8fc0071f)
       { t with merges := mapErase s.merges (64 * g.val + tag.val) })))

/-! ### Packets -/

/-- Requests at their destination (R89, R98, R247, R248, R254, R278, R280). A packet at its destination: a write is taken or follows its
tree, a credited write is taken, a read is answered with its rows, a lock request is decided and answered, a credit request joins its
window, a credit release returns credits, a notice counts, a register request of a unit with power is answered with the register. -/
def Obligations.RequestsArrive : Prop :=
  (∀ (f : Flight) (s : State), arrived .write f s = true →
    exec (.write f) s = .next (if f.pkt.mc then treeTake (unlist s f) f else writeTake (unlist s f) f)) ∧
  (∀ (f : Flight) (s : State), arrived .writeCredited f s = true →
    exec (.writeCredited f) s = .next (if f.pkt.mc then treeTake (unlist s f) f else grainTake (unlist s f) f.at_ f)) ∧
  (∀ (f : Flight) (ecc : EccFinds) (s t : State) (rows : List (BitVec 128 × Bool)), arrived .readReq f s = true → granaryWaits s f.at_ f.pkt = false →
    targetDrains (unlist s f) f.at_ f.pkt = false → readRows (unlist s f) f.at_ f.pkt ecc = some (t, rows) →
    exec (.readReq f ecc) s = .next (reply t f.at_ f.pkt .readData 0 (readOff (unlist s f) f.pkt) rows)) ∧
  (∀ (f : Flight) (s t : State), arrived .lockReq f s = true → t = unlist s f → drains t (.sheaf (sheafOfGrain f.at_)) = false →
    lockAbsent t f.pkt = false → exec (.lockReq f) s = .next (
      let sh := sheafOfGrain f.at_
      let k := bits f.pkt.addr 5 0
      let r := lockDecide (mapGet {} (sheaf t sh).locks k) (bits f.pkt.addr 25 24) f.pkt.src f.pkt.epoch
      reply (setSheaf t sh { sheaf t sh with locks := mapSet {} (sheaf t sh).locks k r.1 }) f.at_ f.pkt .lockResp 0 r.2 [])) ∧
  (∀ (f : Flight) (s : State), arrived .creditReq f s = true → closedTo (unlist s f) f.at_ f.pkt = false →
    exec (.creditReq f) s = .next (cwRequest (unlist s f) f.at_ f.pkt.cw.toNat (bits f.pkt.addr 11 0) f.pkt)) ∧
  (∀ (f : Flight) (s : State), arrived .creditRelease f s = true → fenced (unlist s f) f.at_ = false →
    exec (.creditRelease f) s = .next (cwReturn (cwArrivals (unlist s f) f.at_ f.pkt.cw.toNat f.pkt.src (bits f.pkt.addr 11 0)).1
      f.at_ f.pkt.cw.toNat (bits f.pkt.addr 11 0))) ∧
  (∀ (f : Flight) (s : State), arrived .notify f s = true → drains (unlist s f) (.sheaf (sheafOfGrain f.at_)) = false →
    exec (.notifyPacket f) s = .next (ncInc (unlist s f) (sheafOfGrain f.at_) (bits f.pkt.addr 2 0) 1)) ∧
  (∀ (f : Flight) (s t : State) (l m : RegLoc) (r : Word × State), arrived .regReq f s = true → t = unlist s f → l = locOf f.pkt.addr.toNat →
    drains t (if l.scope = 4 then .grain (grainOfUnit l.unit) else .sheaf (sheafOfUnit l.unit)) = false →
    unitGone t (.binder (Fin.ofNat 5760 (sheafOfGrain (atCoord f.pkt.src)))) l = false →
    m = locOf (f.pkt.addr.toNat / 4 * 4) → f.pkt.len = 0 →
    r = readReg t (.binder (Fin.ofNat 5760 (sheafOfGrain (atCoord f.pkt.src)))) m →
    exec (.regReq f) s = .next (reply r.2 f.at_ f.pkt .regResp 0 0 [(BitVec.ofNat 128 r.1.toNat, false)]))

/-- Responses at the port that waits for them (R98, R278, R279, R313). A response that answers a request: ACK and GONE settle it, read data
goes to its grain, a lock response ends the lock instruction, a grant goes to its Flue entry, a register value to the binder's register;
an ACK of a merge on a mesh port is merged. -/
def Obligations.ResponsesArrive : Prop :=
  (∀ (f : Flight) (s : State) (q : Req), arrived .ack f s = true → (f.pkt.mc = false ∨ 4 ≤ f.port.val) →
    answers (unlist s f) f.at_ f.pkt = some q → orphaned (unlist s f) (reqPort q.who) f.pkt = false →
    exec (.ack f) s = .next (settled (dropReq (unlist s f) q) q f.pkt.part f.pkt.status.toNat false)) ∧
  (∀ (f : Flight) (s : State) (q : Req), arrived .gone f s = true → (f.pkt.mc = false ∨ 4 ≤ f.port.val) →
    answers (unlist s f) f.at_ f.pkt = some q → orphaned (unlist s f) (reqPort q.who) f.pkt = false →
    exec (.gone f) s = .next (settled (dropReq (unlist s f) q) q f.pkt.part 0 true)) ∧
  (∀ (f : Flight) (s : State) (q : Req) (g : GrainId) (id row loff : Nat) (own : Bool), arrived .readData f s = true →
    answers (unlist s f) f.at_ f.pkt = some q → orphaned (unlist s f) (reqPort q.who) f.pkt = false →
    q.who = .dma (.grain g) id row loff own →
    exec (.readData f) s = .next (grainTake (unlist s f) g f)) ∧
  (∀ (f : Flight) (s : State) (q : Req) (u : Issuer) (h : Bool), arrived .lockResp f s = true →
    answers (unlist s f) f.at_ f.pkt = some q → orphaned (unlist s f) (reqPort q.who) f.pkt = false → q.who = .lock u h true →
    exec (.lockResp f) s = .next (fenceCheck (lockAnswer (dropReq (unlist s f) q) u (bits f.pkt.addr 2 0)) u)) ∧
  (∀ (f : Flight) (s : State) (q : Req) (u : Issuer) (h : Bool), arrived .lockResp f s = true →
    answers (unlist s f) f.at_ f.pkt = some q → orphaned (unlist s f) (reqPort q.who) f.pkt = false → q.who = .lock u h false →
    exec (.lockResp f) s = .next (fenceCheck (dropReq (unlist s f) q) u)) ∧
  (∀ (f : Flight) (s : State) (q : Req) (b d i cw : Nat) (dst : BitVec 21), arrived .creditGrant f s = true →
    answers (unlist s f) f.at_ f.pkt = some q → orphaned (unlist s f) (reqPort q.who) f.pkt = false → q.who = .flue b d i cw dst →
    exec (.creditGrant f) s = .next (flueGrant (dropReq (unlist s f) q) b d i cw dst f.pkt.part f.pkt.status.toNat (bits f.pkt.addr 11 0))) ∧
  (∀ (f : Flight) (s t : State) (q : Req) (sh rd : Nat), arrived .regResp f s = true → t = unlist s f →
    answers t f.at_ f.pkt = some q → orphaned t (reqPort q.who) f.pkt = false → q.who = .reg sh (some rd) →
    exec (.regResp f) s = .next (setCore (dropReq t q) (ub sh)
      (sSet { core t (ub sh) with regReads := (core t (ub sh)).regReads.erase rd } rd
        (word (((f.pkt.body.headD (0, false)).1).toNat % 2 ^ 32))))) ∧
  (∀ (f : Flight) (s : State), arrived .ack f s = true → f.pkt.mc = true → f.port.val < 4 →
    exec (.ack f) s = .next (mergeAdd (unlist s f) f.at_ f.pkt.tag.toNat f.port ⟨f.pkt.status.toNat, f.pkt.src, f.pkt.epoch, f.pkt.part⟩))

/-- The remote write buffer (R231, R233, R248). The first waiting packet, credited or not, enters the buffer while it has room; the oldest
entry completes with its rows written. -/
def Obligations.WriteBuffer : Prop :=
  let entry := fun (s : State) (g : GrainId) (f : Flight) => match f.pkt.type, whoAwaits s g f.pkt with
    | .readData, some (.dma _ id _ _ _) => some id
    | _, _ => none
  (∀ (g : GrainId) (s : State) (f : Flight), (grain s g).arriving.find? (fun f => isCredited s g f == false) = some f →
    (grain s g).wb.length < 8 → ((grain s g).wb.filter (fun e => !e.credited)).length < 6 →
    exec (.writeBufferAccept g false) s = .next (setGrain (draw s).2 g { grain s g with
      arriving := (grain s g).arriving.erase f
      wb := (grain s g).wb ++ [⟨f, false, List.replicate f.pkt.body.length false, List.replicate f.pkt.body.length false, s.cycle,
        entry s g f, s.fresh⟩] })) ∧
  (∀ (g : GrainId) (s : State) (f : Flight), (grain s g).arriving.find? (fun f => isCredited s g f == true) = some f →
    (grain s g).wb.length < 8 →
    exec (.writeBufferAccept g true) s = .next (
      let r := cwArrivals s g f.pkt.cw.toNat f.pkt.src f.pkt.body.length
      let t := (draw r.1).2
      setGrain t g { grain t g with
        arriving := (grain t g).arriving.erase f
        wb := (grain t g).wb ++ [⟨f, true, r.2, List.replicate f.pkt.body.length false, s.cycle, entry s g f, r.1.fresh⟩] })) ∧
  (∀ (g : GrainId) (slot : Fin 8) (s : State) (e : WbEntry), (grain s g).wb[slot.val]? = some e → slot.val = 0 →
    exec (.packetComplete g slot) s = .next (
      let x := (List.range e.flight.pkt.body.length).foldl (fun x k => wbWrite x e k) (grain s g)
      wbDone (setGrain s g { x with wb := x.wb.eraseIdx 0 }) g e))

/-- Faults of mesh links, and the Flue (R275, R286, R305, R306, R310). A corrected flit counts, a lost body flit is marked, a lost head
loses its packet and is told, a push into a full FIFO is dropped, recorded and told once, and one into a FIFO with room is no violation. A write at a gateway is taken; an entry that wants credit
asks, after its back-off where it has one; a write of a Flue route is taken. -/
def Obligations.MeshFaultsAndFlue : Prop :=
  ((∀ (f : Flight) (s : State), exec (.meshLinkUe f .corrected) s = .next (incReg s (rGrain f.at_ 3 0x10))) ∧
   (∀ (f : Flight) (s : State) (i : Fin 4), exec (.meshLinkUe f (.body i)) s = .next (markRow s f i false)) ∧
   (∀ (f : Flight) (s : State), fluePort f.at_ f.port = false → (inFlight s f).isSome = true →
     exec (.meshLinkUe f .head) s = .next (raise (orReg (losePkt s f) (rGrain f.at_ 3 4) (2 ^ 4)) .meshLinkUe none 4 (grainUnit f.at_)
       [(22, coordOf f.at_), (3, f.port.val)])) ∧
   (∀ (f : Flight) (s t : State) (vc : Nat), vc = bnat (isResponse f.pkt.type) → t = orReg (losePkt s f) (rGrain f.at_ 3 4) 2 →
     regBit t (rGrain f.at_ 3 4) 0 = false →
     exec (.creditViolation f 4 none) s = .next (raiseOnce
       (orReg (setRegF (setRegF t (rGrain f.at_ 3 4) 11 11 vc) (rGrain f.at_ 3 4) 10 8 f.port.val) (rGrain f.at_ 3 4) 1)
       .creditViolation none 4 (grainUnit f.at_) [(21, coordOf f.at_), (3, f.port.val), (1, vc), (1, 1)])) ∧
   (∀ (f : Flight) (i : Fin 4) (s t : State), t = markRow s f i true → regBit t (rGrain f.at_ 3 4) 0 = true →
     exec (.creditViolation f 4 (some i)) s = .next (raiseOnce (orReg t (rGrain f.at_ 3 4) 1)
       .creditViolation none 4 (grainUnit f.at_) [(21, coordOf f.at_), (3, f.port.val), (1, bnat (isResponse f.pkt.type)), (1, 0)])) ∧
   (∀ (f : Flight) (n : Fin 5) (flit : Option (Fin 4)) (s : State), n.val < 4 → exec (.creditViolation f n flit) s = .next s)) ∧
  ((∀ (f : Flight) (s : State), atGateway f = true → exec (.flueGatewayWrite f) s = .next (flueAdmit (flueTake (unlist s f) f) f.at_)) ∧
   (∀ (b : BridgeId) (dir : Bool) (idx : Fin 512) (s : State), flueWants (flueEntry s b (bnat dir) idx) = true →
     (flueEntry s b (bnat dir) idx).backoff = false → exec (.flueCreditRequest b dir idx) s = .next (flueAsk s b (bnat dir) idx)) ∧
   (∀ (b : BridgeId) (dir : Bool) (idx : Fin 512) (s : State), flueWants (flueEntry s b (bnat dir) idx) = true →
     (flueEntry s b (bnat dir) idx).backoff = true → exec (.flueCreditRetry b dir idx) s = .next (flueAsk s b (bnat dir) idx)) ∧
   (∀ (ini : Initiator) (b : BridgeId) (second : Bool) (v : Word) (s : State), mayWrite s ini (rFlue b (if second then 0x10 else 0xC)) = true →
     exec (.fluRouteWrite ini b second v) s = .next (flueWriteRoute s b second v)))

/-! ### A grain's upkeep -/

/-- Tally and window commands, scrub, abandon notices, Ergot (R168, R178, R242, R262, R263, R270, R271). A permitted TLY_CMD write sets a
counter or clears its error; a permitted CW_CMD write sets, returns to or closes a window; a scrub read of a sound row moves on, and its
write-back ends; an abandon notice, of sheaves one was sent for or that are the partition's, reaches the counters, locks and Flue
entries that watch; an Ergot post is applied; a reseed is asked
for. -/
def Obligations.GrainUpkeep : Prop :=
  (∀ (ini : Initiator) (g : GrainId) (v : Word) (s : State), mayWrite s ini (rGrain g 2 0xB8) = true → bits v 21 20 = 0 →
    exec (.tlyCmdSet ini g v) s = .next (setGrain s g { grain s g with
      tc := (grain s g).tc.set! (bits v 19 16) { value := BitVec.ofNat 16 (bits v 15 0) } })) ∧
  (∀ (ini : Initiator) (g : GrainId) (v : Word) (s : State), mayWrite s ini (rGrain g 2 0xB8) = true → bits v 21 20 = 1 →
    exec (.tlyCmdClrerr ini g v) s = .next (setGrain s g { grain s g with
      tc := (grain s g).tc.set! (bits v 19 16) { (grain s g).tc.getD (bits v 19 16) {} with error := false } })) ∧
  (∀ (ini : Initiator) (g : GrainId) (v : Word) (s : State), mayWrite s ini (rGrain g 2 0xBC) = true → bits v 29 28 = 0 →
    cwSetOk (window s g (bits v 31 30)) = true →
    exec (.cwCmdSet ini g v) s = .next (setWindow s g (bits v 31 30) (cwSet (bits v 11 0)))) ∧
  (∀ (ini : Initiator) (g : GrainId) (v : Word) (s : State), mayWrite s ini (rGrain g 2 0xBC) = true → bits v 29 28 = 1 →
    exec (.cwCmdRet ini g v) s = .next (cwReturn s g (bits v 31 30) (bits v 11 0))) ∧
  (∀ (ini : Initiator) (g : GrainId) (v : Word) (s : State), mayWrite s ini (rGrain g 2 0xBC) = true → bits v 29 28 = 2 →
    exec (.cwCmdClose ini g v) s = .next (cwClose s g (bits v 31 30))) ∧
  (∀ (g : GrainId) (s : State), regF s (rGrain g 2 0xAC) 15 0 ≠ 0 → earOn s (earOfGrain g) = true → (grain s g).poison = [] →
    exec (.scrubRead g .ok .ok) s = .next (setGrain s g { grain s g with scrubRow := ((grain s g).scrubRow + 1) % 3072 })) ∧
  (∀ (g : GrainId) (s : State), exec (.scrubWriteback g) s = .next (setGrain s g { grain s g with scrubFix := none })) ∧
  (∀ (p : PartId) (shs : List SheafId) (s t : State) (l : List Nat), t = { s with notices := s.notices.erase (p.val, shs.map (fun h => h.val)) } →
    l = noticed s p (shs.map (fun h => h.val)) → l ≠ [] →
    exec (.abandonNotice p shs) s = .next (flueAbandon (abandonLocks
      ((watchers t p l).foldl (fun s e => tallyErr s e.1 e.2) t) p l) l)) ∧
  (∀ (p : PartId) (s : State) (q : ErgotPost), s.posts.find? (fun q => q.part == p.val) = some q →
    exec (.ergotPostApply p) s = .next (ergApply { s with posts := s.posts.erase q } q)) ∧
  (∀ (ini : Initiator) (p : PartId) (v : Word) (s : State), mayWrite s ini (rErg p 8) = true → bit v 0 = true →
    exec (.ergSrReseed ini p v) s = .next { s with reseeds := setAdd s.reseeds p })

/-! ### Attention -/

/-- The Winnow and Gleaner's jobs and chaff (R348, R350, R354, R361, R362). A Winnow with room takes the next job of its ring, and a sound
job of either mode goes on to its vectors; a job that waits for a frame goes on when one is free, and fails
after two beats with none; the job in hand completes; COMMIT and ROLLBACK join the chaff list in a Gleaner's mode; the list applies
while no job has begun; LAB_INV drops the lines it names. -/
def Obligations.AttentionJobs : Prop :=
  let newJob := fun (sh : SheafId) (ecc : EccFinds) (s s1 : State) (d : Nat) (j : WJob) (s2 : State) =>
    let r := reg s (rWnw sh 8)
    let n := 2 ^ bits r 31 28
    let jobs := (wnw s sh).jobs
    jobs.find? (fun j => j.wait.isSome) = none ∧ winTakes s sh = true ∧ jobs.length < 2 ∧
    jobs.length < (regF s (rWnw sh 0x10) 15 0 + n - regF s (rWnw sh 0xC) 15 0 % n) % n ∧ jobs.all (jobPast s sh) = true ∧
    winMem s sh (bits r 17 0 / 32 * 32 + 32 * ((regF s (rWnw sh 0xC) 15 0 + jobs.length) % n)) 32 ecc = (s1, some d) ∧
    j = { id := s1.nextTag, row0 := BitVec.ofNat 128 d, row1 := BitVec.ofNat 128 (d / 2 ^ 128) } ∧
    s2 = setWnw { s1 with nextTag := s1.nextTag + 1 } sh { wnw s1 sh with jobs := (wnw s1 sh).jobs ++ [j] }
  (∀ (sh : SheafId) (ecc : EccFinds) (s : State) (j : WJob), (wnw s sh).jobs.find? (fun j => j.wait.isSome) = some j → (framePop s sh).isSome = true →
    (glnMode s sh = false ∨ regBit s (rGln sh 0) 0 = true) →
    exec (.jobStart sh ecc) s = .next (jobTail ecc sh j.id s (fun p s => kvWrite ecc sh j.id (jPos j / 16) p s))) ∧
  (∀ (sh : SheafId) (ecc : EccFinds) (s s1 s2 : State) (d : Nat) (j : WJob), newJob sh ecc s s1 d j s2 →
    exec (.jobStart sh ecc) s = .next (jobIntake ecc sh j.id s2)) ∧
  (∀ (sh : SheafId) (ecc : EccFinds) (s s1 s2 : State) (d : Nat) (j : WJob), newJob sh ecc s s1 d j s2 → jobOf s2 sh j.id = some j →
    layerBad s2 sh (layer s2 sh (jLayer j)) j = false → jExited j = false → glnMode s2 sh = false →
    exec (.jobStart sh ecc) s = .next (jobVectors ecc sh j.id s2)) ∧
  (∀ (sh : SheafId) (ecc : EccFinds) (s s1 s2 s3 : State) (d e : Nat) (j : WJob), newJob sh ecc s s1 d j s2 → jobOf s2 sh j.id = some j →
    layerBad s2 sh (layer s2 sh (jLayer j)) j = false → jExited j = false → glnMode s2 sh = true → jSlot j < 2 ^ regF s2 (rGln sh 4) 31 28 →
    winMem s2 sh (dirAddr s2 sh (jLayer j) (jSlot j)) 16 ecc = (s3, some e) → bit (BitVec.ofNat 128 e) 127 = true → bit (BitVec.ofNat 128 e) 126 = false →
    exec (.jobStart sh ecc) s = .next (jobVectors ecc sh j.id (modJob s3 sh j.id (fun j => { j with dir := BitVec.ofNat 128 e })))) ∧
  (∀ (sh : SheafId) (s : State) (j : WJob) (n : Nat), (wnw s sh).jobs.find? (fun j => j.wait.isSome) = some j → j.wait = some n → 2 ≤ n →
    framePop s sh = none → exec (.framePoolTimeout sh) s = .next (jobFail s sh j.id 4)) ∧
  (∀ (sh : SheafId) (ecc : EccFinds) (s : State) (j j1 : WJob) (rest : List WJob), (wnw s sh).jobs = j :: rest → j.wait = none → j.begun = true →
    jobOf (pagesRun ecc sh j.id 65537 s) sh j.id = some j1 → j1.fail = none → j1.done = true → j1.left = 0 →
    exec (.jobComplete sh ecc) s = .next (jobEnd (pagesRun ecc sh j.id 65537 s) sh j1)) ∧
  (∀ (ini : Initiator) (sh : SheafId) (v : Word) (s : State), mayWrite s ini (rWnw sh 0xE4) = true → bits v 31 30 = 1 → glnMode s sh = true →
    exec (.chaffCommit ini sh v) s = .next (setWnw s sh { wnw s sh with chaff := (wnw s sh).chaff ++ [(regF s (rWnw sh 0xE0) 15 0, v)] })) ∧
  (∀ (ini : Initiator) (sh : SheafId) (v : Word) (s : State), mayWrite s ini (rWnw sh 0xE4) = true → bits v 31 30 = 2 → glnMode s sh = true →
    exec (.chaffRollback ini sh v) s = .next (setWnw s sh { wnw s sh with chaff := (wnw s sh).chaff ++ [(regF s (rWnw sh 0xE0) 15 0, v)] })) ∧
  (∀ (sh : SheafId) (s : State), (wnw s sh).jobs.any (fun j => j.begun) = false → exec (.chaffApply sh) s = .next (chaffAll s sh)) ∧
  (∀ (ini : Initiator) (sh : SheafId) (v : Word) (s : State), mayWrite s ini (rGln sh 8) = true →
    exec (.glnLabInv ini sh v) s = .next (setWnw s sh { wnw s sh with
      lab := if bit v 31 then [] else (wnw s sh).lab.filter (fun e => e.2.1 / 2 ^ 16 % 2 ^ 16 != bits v 15 0) }))

/-! ### Bins and crib allocations -/

/-- Bins, windows and crib allocations (R491, R492, R497, R500, R505, R508). Initialisation ends; an interface fault fails its bin; a patrol
read keeps a corrected line for its write-back and moves on; a window or allocation write that fits is stored pending, and one that does
not sets its error bit; FORGET empties a LOST slot. -/
def Obligations.BinsAndAllocations : Prop :=
  (∀ (b : BinId) (s : State), regBit s (rBin b 4) 5 = false → regBit s (rBin b 4) 7 = false →
    exec (.binInitDone b) s = .next (orReg (setBin s b { binSt s b with mem := {}, poison := [], fix := none }) (rBin b 4) (2 ^ 5))) ∧
  (∀ (b : BinId) (s : State), regBit s (rBin b 4) 7 = false → exec (.binInterfaceFault b) s = .next (binFail s b 2)) ∧
  (∀ (b : BinId) (s : State), regBit s (rBin b 0) 0 = true → (binSt s b).poison.contains (binSt s b).cursor = false →
    ∃ t, exec (.binPatrolRead b .corrected .ok) s = .next t ∧ (binSt t b).fix = some (binSt s b).cursor ∧
      (binSt t b).cursor = ((binSt s b).cursor + 1) % 2 ^ 30) ∧
  (∀ (b : BinId) (s : State) (n : Nat), (binSt s b).fix = some n → exec (.binPatrolWriteback b) s = .next (setBin s b { binSt s b with fix := none })) ∧
  (∀ (ini : Initiator) (b : BinId) (v w : Word) (k : Nat) (s : State), mayWrite s ini (rBin b 0x44) = true → k = regF s (rBin b 0x40) 3 0 →
    w = v &&& word 0xff80ffff →
    exec (.binWinWrite ini b v) s = .next (
      if winValid w = true ∧ (256 < binEnd w ∨ (List.range 16).any (fun j => j != k && winClash binBase binEnd w (reg s (rBin b 0x44 j))) = true) then
        orReg s (rBin b 4) 4 else setReg s (rBin b 0x44 k) (w ||| word (2 ^ 22)))) ∧
  (∀ (ini : Initiator) (v w : Word) (k slot : Nat) (s : State), mayWrite s ini (rCrb 0x20) = true → slot = regF s (rCrb 8) 2 0 →
    k = regF s (rCrb 0x1C) 3 0 → w = v &&& word 0xff83ffff →
    exec (.crbAllocWrite ini v) s = .next (
      if winValid w = true ∧ (512 < crbEnd w ∨ (List.range 16).any (fun j => j != k && winClash crbBase crbEnd w (reg s (rAlloc slot j))) = true) then
        orReg s (rCrb 4) (2 ^ 16) else setReg s (rAlloc slot k) (w ||| word (2 ^ 22)))) ∧
  (∀ (ini : Initiator) (v : Word) (slot : Nat) (s : State), mayWrite s ini (rCrb 0x18) = true → slot = regF s (rCrb 8) 2 0 → bit v 0 = true →
    cribState s slot = 2 → ∃ t, exec (.cribSlotForget ini v) s = .next t ∧ cribState t slot = 0 ∧ mapFind t.cribs slot = none)

/-! ### Registers -/

/-- Register reads and writes (R12, R17, R18, R19). An access that names a register, faults nothing and reaches its unit: a read answers the
value's bytes it addresses and has the read's effect; a full write, a low-word write and a high-word write are made. -/
def Obligations.RegisterAccesses : Prop :=
  let reaches := fun (s : State) (ini : Initiator) (addr : BitVec 48) (l : RegLoc) =>
    ∃ a, accessTo s ini addr.toNat = .reg a ∧ regAddrFault s ini (accessAddr s ini a) = none ∧ unitGone s ini (locOf (accessAddr s ini a)) = false ∧
      l = locOf (accessAddr s ini a / 4 * 4)
  let bytes := fun (be : BitVec 4) => packFields ((List.range 4).map (fun k => (8, if be.getLsbD k then 0xFF else 0)))
  (∀ (ini : Initiator) (addr : BitVec 48) (be : BitVec 4) (hw : Word) (s : State) (l : RegLoc), reaches s ini addr l →
    exec (.rcFieldRead ini ⟨addr, be⟩ hw) s = .next (answerRead (readReg s ini l hw).2 ini ((readReg s ini l hw).1 &&& word (bytes be)))) ∧
  (∀ (ini : Initiator) (addr : BitVec 48) (be : BitVec 4) (s : State) (l : RegLoc), reaches s ini addr l →
    exec (.lowWordRead ini ⟨addr, be⟩) s = .next (answerRead (readReg s ini l 0).2 ini ((readReg s ini l 0).1 &&& word (bytes be)))) ∧
  (∀ (ini : Initiator) (addr : BitVec 48) (v hw : Word) (s : State) (l : RegLoc), reaches s ini addr l → ini ≠ .damper true →
    exec (.registerWrite ini addr 15 v hw) s = .next (writeReg s ini l v hw)) ∧
  (∀ (ini : Initiator) (addr : BitVec 48) (v : Word) (s : State) (l : RegLoc), reaches s ini addr l → ini ≠ .damper true →
    exec (.lowWordWrite ini addr v) s = .next (writeReg s ini l v 0)) ∧
  (∀ (ini : Initiator) (addr : BitVec 48) (v : Word) (s : State) (l : RegLoc), reaches s ini addr l → ini ≠ .damper true →
    exec (.highWordWrite ini addr v) s = .next (writeReg s ini l v 0))

/-! ### The host -/

/-- Doorbells, fetches, completions, records, ports (R576, R578, R579, R581, R582, R583, R586, R587, R588, R589). A doorbell inside its ring
is kept; a well-formed command of an enabled ring is fetched and waits as a verb; HOST_NOP completes; a DMA verb with good operands
runs; a completion of an enabled ring that asks for no interrupt is written to its slot; a held event is written; the gap of a vector
ends; a function-level reset and a clear of the VF enables reset their functions; a port goes down and up. -/
def Obligations.HostCommands : Prop :=
  (∀ (fn : FnId) (ring : Fin 8) (tail : BitVec 16) (s : State), tail.toNat < ringSize s fn ring →
    exec (.doorbell fn ring tail) s = .next (setHost s { s.host with tails := mapSet 0 s.host.tails (8 * fn.val + ring.val) tail.toNat })) ∧
  (∀ (fn : FnId) (ring : Fin 8) (c : BitVec 512) (s : State) (head : Nat) (v : Verb),
    regBit s (rHst fn 0xC ring) 31 = true → portUp s (ringPort s fn ring) = true → head = regF s (rHst fn 0x20 ring) 15 0 →
    head ≠ mapGet 0 s.host.tails (8 * fn.val + ring.val) → (s.host.verbs.filter (fun v => v.fn == fn.val && v.ring == ring.val)).length < 64 →
    v = mkVerb s.host.nextId fn ring c → verbBad v c = none →
    ∃ t, exec (.commandFetch fn ring (some c)) s = .next t ∧ t.host.verbs = s.host.verbs ++ [v] ∧ t.host.nextId = s.host.nextId + 1) ∧
  (∀ (fn : FnId) (ring : Fin 8) (s : State) (v : Verb), verbReady s fn ring 0 v = true →
    exec (.hostNop fn ring) s = .next (verbDone (started s v) (begun v) 0)) ∧
  (∀ (fn : FnId) (ring : Fin 8) (rows : List (BitVec 128)) (s t : State) (v w : Verb), verbReady s fn ring 1 v = true → t = started s v →
    w = begun v → dmaBad t w false = false →
    exec (.dmaToDevice fn ring rows) s = .next (dmaVerbCheck (dmaSend w (some rows) t (packetsOf (dmaAddr w) (dmaLen w / 16))) w.id)) ∧
  (∀ (fn : FnId) (ring : Fin 8) (s t : State) (v w : Verb), verbReady s fn ring 2 v = true → t = started s v → w = begun v →
    dmaWaits s fn ring = false → dmaBad t w true = false →
    exec (.dmaToHost fn ring none) s = .next (dmaVerbCheck (dmaSend w none (modVerb t w.id (fun v => { v with aux := dmaLen w }))
      (packetsOf (dmaAddr w) (dmaLen w / 16))) w.id)) ∧
  (∀ (fn : FnId) (ring : Fin 8) (s : State) (c : Cpl) (tail : Nat), s.host.cpls.find? (fun c => c.fn == fn.val && c.ring == ring.val) = some c →
    tail = regF s (rHst fn 0x24 ring) 15 0 → regBit s (rHst fn 0xC ring) 31 = true → portUp s (ringPort s fn ring) = true → c.irq = false → tail + 1 < ringSize s fn ring →
    tail + 1 ≠ regF s (rHst fn 0x28 ring) 15 0 % ringSize s fn ring →
    exec (.completionWrite fn ring true) s = .next (setRegF
      (hostSend (setHost s { s.host with cpls := s.host.cpls.erase c }) (.write (ringPort s fn ring)
        (hostBase s (rHst fn 0x18 ring) (rHst fn 0x1C ring) 32 + 32 * tail)
        (cplRows c (!mapGet false s.host.passes (8 * fn.val + ring.val)) (regF s (rHst fn 0x20 ring) 15 0))))
      (rHst fn 0x24 ring) 15 0 (tail + 1))) ∧
  (∀ (fn : FnId) (ok : Bool) (s : State) (q : EvQueue) (e : EventRec) (rest : List EventRec), evtReady s fn = true → q = mapGet {} s.evq fn →
    q.lost.toList.any (· != 0) = false → q.held = e :: rest →
    exec (.eventRecordWrite fn ok) s = .next (evtPut { s with evq := mapSet {} s.evq fn { q with held := rest } } fn e ok)) ∧
  (∀ (fn : FnId) (vec : Fin 16) (s t : State) (q : IrqSt), q = mapGet {} s.host.irqs (16 * fn.val + vec.val) → q.gap = true →
    t = setHost s { s.host with irqs := mapErase s.host.irqs (16 * fn.val + vec.val) } →
    exec (.msixGapExpiry fn vec) s = .next (if q.pend then signal t q.port fn vec false else t)) ∧
  (∀ (fn : FnId) (s : State), exec (.functionLevelReset fn) s = .next (flr s fn)) ∧
  (∀ (port : HostPort) (s : State),
    exec (.vfEnableClear port) s = .next (setRegF ((List.range 63).foldl (fun s k => flr s (k + 1)) s) (rPortSt port) 5 0 0)) ∧
  (∀ (port : HostPort) (s : State), portUp s port = true →
    exec (.hostPortDown port false) s = .next (hostDown (setRegF s (rPortSt port) 31 31 0) port 1)) ∧
  (∀ (port : HostPort) (speed width flit : Nat) (n : Fin 64) (s : State), exec (.hostLinkUp port speed width flit n) s = .next
    (setReg s (rPortSt port) (word (packFields [(6, n.val), (14, 0), (1, flit), (5, width), (4, speed), (1, 0), (1, 1)]))))

/-! ### Sends, roles and loads -/

/-- Sends between modules and link roles (R606, R607, R609, R610). A ring's next descriptor without a fault is read and its rows are
requested; a SEND for this module is received and one for another module is forwarded; an acknowledgement for this module settles its
tag; LINK_ROLE asks over an UP link; a request with none outstanding is decided; an answer to the round outstanding is taken; a round
without an answer fails. -/
def Obligations.SendsAndRoles : Prop :=
  (∀ (port : DieId) (ring : Fin 8) (ecc : EccFinds) (s s1 s2 : State) (sh i d : Nat) (q : SendRun),
    sheafCodeOk (regF s (rDrt port 0x88 ring) 13 0) = true → regBit s (rDrt port 0x88 ring) 31 = true →
    i = regF s (rDrt port 0x8C ring) 15 0 % sendSize s port ring → i ≠ regF s (rDrt port 0x90 ring) 15 0 % sendSize s port ring →
    s.sends.any (fun q => q.die == port.val && q.ring == ring.val) = false → sh = sheafOfCode (regF s (rDrt port 0x88 ring) 13 0) →
    bmemRead s sh (sendSlot s port ring i) 32 ecc 5 = (d, s1) →
    q = { id := s.nextTag, die := port, ring := ring, index := i, sh := sh, row0 := BitVec.ofNat 128 d, row1 := BitVec.ofNat 128 (d / 2 ^ 128) } →
    s2 = { s1 with nextTag := s1.nextTag + 1, sends := s1.sends ++ [q] } → bmemPoisoned s1 sh (sendSlot s port ring i) 32 = false →
    nbits (sdSrc q) 47 44 ≤ 2 → sdSrc q % 16 = 0 →
    exec (.sendDescStart port ring ecc) s = .next ((packetsOf (sdSrc q) (sdRows q)).foldl (sendReads q.id) s2)) ∧
  (∀ (port : DieId) (link : Fin 4) (x : Txn) (rick : Option (BitVec 128 × BitVec 128)) (s : State), linkUp s port link = true →
    posOwn s x.dest.toNat = true → exec (.sendTxn port link x rick) s = .next (sendArrive (txnTake s port link x) port link x rick)) ∧
  (∀ (port : DieId) (link : Fin 4) (x : Txn) (rick : Option (BitVec 128 × BitVec 128)) (s s1 : State) (p l : Nat), linkUp s port link = true →
    posOwn s x.dest.toNat = false → posHeld s x.dest.toNat = true → nextHop s x.dest.toNat = some (p, l) → s1 = txnTake s port link x →
    exec (.sendTxn port link x rick) s = .next (txnSend { s1 with relays := s1.relays ++ [(4 * p + l, x)] } p l x)) ∧
  (∀ (port : DieId) (link : Fin 4) (x : Txn) (s : State), linkUp s port link = true → posOwn s x.dest.toNat = true →
    exec (.sendAck port link x) s = .next (tagAnswer (txnTake s port link x) x.tag.toNat x.status.toNat)) ∧
  (∀ (fn : FnId) (ring : Fin 8) (s t : State) (v w : Verb) (p l : Nat) (cadence : Bool), ownerReady s fn ring 0x30 v = true → t = started s v → w = begun v →
    p = bits v.op0 2 0 → l = bits v.op0 4 3 → p ≤ 5 → (lk s p l).ask = none → linkUp t p l = true → linkCrib t p l = false →
    cadence = !bit v.op0 5 → (if cadence then cadUp t p l else isCoord t) = !bit v.op0 6 →
    exec (.linkRole fn ring) s = .next (roleSend (setAsk t p l (some ⟨w.id, cadence, bit v.op0 6, 0, 0, false, false, false⟩)) p l)) ∧
  (∀ (port : DieId) (link : Fin 4) (round : Nat) (cadence want : Bool) (s : State), linkUp s port link = true → (lk s port link).ask = none →
    exec (.roleReq port link round cadence want) s = .next (roleGive s port link round cadence want)) ∧
  (∀ (port : DieId) (link : Fin 4) (s : State) (a : RoleAsk), (lk s port link).ask = some a → linkUp s port link = true → a.withdrawn = false →
    exec (.roleAck port link a.round) s = .next (setAsk s port link (some { a with accepted := true }))) ∧
  (∀ (port : DieId) (link : Fin 4) (s : State) (a : RoleAsk), (lk s port link).ask = some a → linkUp s port link = true → a.withdrawn = false →
    a.accepted = false → exec (.roleNak port link a.round) s = .next (verbEnd (setAsk s port link none) a.verb 0x33)) ∧
  (∀ (port : DieId) (link : Fin 4) (s : State) (a : RoleAsk), (lk s port link).ask = some a → a.accepted = false →
    exec (.roleRoundTimeout port link) s = .next (roleRoundFail s port link a))

/-- Granary loads (R464, R467, R471, R473). The queue's first load begins in its turn; a load of no ring and no verb that ended well leaves;
a credit retry asks for every piece that backs off; a MODEL_LOAD of a committed model whose list can be read queues its descriptors. -/
def Obligations.GranaryLoads : Prop :=
  (∀ (f : FieldId) (ecc : EccFinds) (s : State) (q : LoadRun) (rest : List LoadRun), gryReady s = true → (region s f).runs.length < 4 →
    (region s f).queue = q :: rest → (region s f).turn = 8 →
    exec (.loadDescStart f ecc) s = .next (ldBegin (setRegion s f { region s f with queue := rest, turn := 0 }) f ecc q)) ∧
  (∀ (f : FieldId) (s s1 : State) (q : LoadRun), (region s f).runs.find? ldEnded = some q → q.fault = none → q.ring = none → q.verb = none →
    s1 = modRegion s f (fun r => { r with runs := r.runs.filter (fun x => x.id != q.id) }) →
    exec (.loadDescEnd f) s = .next (s1.granary.regions.foldl (fun s e => reapBlks s e.1) s1)) ∧
  (∀ (f : FieldId) (s s1 : State),
    s1 = (region s f).runs.foldl (fun s q => ((q.tgts.zipIdx.filter (fun e => e.1.back)).map Prod.snd).foldl (ldAsk f q.id) s) s →
    exec (.loaderCreditRetry f) s = .next ((s1.recvs.filter (fun q => dieField q.die == f.val)).foldl (fun s q =>
      ((q.pieces.zipIdx.filter (fun e => e.1.back)).map Prod.snd).foldl (recvAsk q.id) s) s1)) ∧
  (∀ (fn : FnId) (ring : Fin 8) (list : Option (List (BitVec 256))) (s t : State) (v w : Verb) (m : Model) (mem : Mem), verbReady s fn ring 0x59 v = true →
    t = started s v → w = begun v → gryReady t = true → nsPermits t w.fn (bits w.op0 7 0) = true →
    (mapFind t.granary.spaces (bits w.op0 7 0)).isSome = true → bits w.op0 23 8 ≠ 0xFFFF →
    byHandle t (bits w.op0 7 0) (bits w.op0 23 8) = some m → pendingSt m = false →
    srcBytes t w.fn (bit w.op0 24) (bits w.op1 63 0) (32 * bits w.op0 47 32) (list.map (fun l => l.flatMap (fun d => toBytes d.toNat 32))) = some mem →
    exec (.modelLoad fn ring list) s = .next (modelLoadRun w (bits w.op0 7 0) (bits w.op0 47 32) m mem t))

/-! ### The Hopper -/

/-- The Hopper's verbs and records (R385, R387, R388, R389, R390, R393, R400). SUBMIT makes a free entry QUEUED, or REFUSED with its reason;
EXTEND changes a queued stream's input; CANCEL ends a queued entry; RELEASE frees a terminal one; QUERY answers the record; a pass cut
already told is counted; a dispatch record is written where its ring has space. -/
def Obligations.HopperCommands : Prop :=
  (∀ (fn : FnId) (ring : Fin 8) (s t : State) (v w : Verb) (i : Nat), verbReady s fn ring 0x40 v = true → t = started s v → w = begun v →
    hopEnabled t w.fn = true → submitBad t w = false → (List.range (hopSize t w.fn)).find? (fun i => (entAt t w.fn i).st == .free) = some i →
    submitWhy (submitPut t w i) w.fn (newEntry t w (entAt t w.fn i).gen) (activeCount t w.fn) = none →
    exec (.submit fn ring) s = .next (verbDone (submitPut t w i) w 0 (i * 256 + (entAt t w.fn i).gen.toNat))) ∧
  (∀ (fn : FnId) (ring : Fin 8) (s t : State) (v w : Verb) (i why : Nat), verbReady s fn ring 0x40 v = true → t = started s v → w = begun v →
    hopEnabled t w.fn = true → submitBad t w = false → (List.range (hopSize t w.fn)).find? (fun i => (entAt t w.fn i).st == .free) = some i →
    submitWhy (submitPut t w i) w.fn (newEntry t w (entAt t w.fn i).gen) (activeCount t w.fn) = some why →
    exec (.submit fn ring) s = .next (verbDone (entEnd (submitPut t w i) w.fn i .refused why) w 0 (i * 256 + (entAt t w.fn i).gen.toNat))) ∧
  (∀ (fn : FnId) (ring : Fin 8) (s t : State) (v w : Verb) (i m : Nat) (e : HEntry), verbReady s fn ring 0x41 v = true → t = started s v → w = begun v →
    hopEnabled t w.fn = true → named t w.fn w.op0 = some i → e = entAt t w.fn i → e.stream = true → e.st = .queued →
    modelRow t w.fn e.model = some m → e.inputLen ≤ bits w.op0 63 44 → bits w.op0 63 44 + e.maxLen ≤ rowContext t w.fn m →
    exec (.extend fn ring) s = .next (verbDone (setEnt t w.fn i
      { e with inputLen := bits w.op0 63 44, stream := bit w.op0 43, deadline := bits w.op0 127 64 }) w 0)) ∧
  (∀ (fn : FnId) (ring : Fin 8) (s t : State) (v w : Verb) (i : Nat), verbReady s fn ring 0x42 v = true → t = started s v → w = begun v →
    hopEnabled t w.fn = true → named t w.fn w.op0 = some i → (entAt t w.fn i).st = .queued →
    exec (.cancel fn ring) s = .next (verbDone (entEnd t w.fn i .cancelled 0) w 0)) ∧
  (∀ (fn : FnId) (ring : Fin 8) (s t : State) (v w : Verb) (i : Nat), verbReady s fn ring 0x43 v = true → t = started s v → w = begun v →
    hopSize t w.fn ≠ 0 → named t w.fn w.op0 = some i → terminal (entAt t w.fn i).st = true →
    exec (.release fn ring) s = .next (verbDone (setEnt (slotsLeave t w.fn i) w.fn i { gen := (entAt t w.fn i).gen + 1 }) w 0)) ∧
  (∀ (fn : FnId) (ring : Fin 8) (ok : Bool) (s t : State) (v w : Verb) (i : Nat), verbReady s fn ring 0x44 v = true → t = started s v → w = begun v →
    hopSize t w.fn ≠ 0 → named t w.fn w.op0 = some i →
    exec (.query fn ring ok) s = .next (verbResult t w ((List.range 4).map (fun k => BitVec.ofNat 128 (entBits (entAt t w.fn i) / 2 ^ (128 * k)))) ok)) ∧
  (∀ (part : PartId) (s : State) (x : HPart) (n : Nat), x = hpart s part → x.cut ≠ 0 → x.cutTold = true → n = segTable s part →
    exec (.hopperPassCut part) s = .next (incReg (orReg (setHpart s part { x with cut := 0, cutTold := true }) (rHop part 0x38) 2) (rTbl n 4))) ∧
  (∀ (part : PartId) (s : State) (x : HPart) (r0 r1 : BitVec 128) (rest : List (BitVec 128 × BitVec 128)) (loc : Word) (base n tail sh : Nat),
    x = hpart s part → x.disp = (r0, r1) :: rest → loc = reg s (rHop part 0x10) → base = regF s (rHop part 0x14) 17 0 / 32 * 32 →
    n = 2 ^ regF s (rHop part 0x14) 31 28 → hopFault s part loc = none → sh = (locSheaf s part loc).getD 0 → drains s (.sheaf sh) = false →
    tail = x.dispTail % n → (tail + 1) % n ≠ memGet (sheaf s sh).bmem base 4 % n →
    ∃ s1, s1 = bmemWrite (bmemWrite (setHpart s part { x with disp := rest }) sh (base + 32 + 32 * tail) 16 r0.toNat) sh
        (base + 32 + 32 * tail + 16) 16 r1.toNat ∧
      exec (.dispatchRecordWrite part) s = .next (sendPkt (setHpart s1 part { hpart s1 part with dispTail := (tail + 1) % n })
        { type := .notify, mc := false, tag := 0, dst := coordV (sheafPort sh), src := coordV (dieRouter (homePort s1 part) 0)
          epoch := BitVec.ofNat 9 (epochOf s1 (.die (homePort s1 part))), part := BitVec.ofNat 6 part.val
          len := 0, tally := 0, cw := 0, status := 0, addr := BitVec.ofNat 48 (bits loc 18 16), body := [] }))

/-- Reports and output records (R384, R402, R408, R413, R416, R424). A new sound report is taken in hand. A report that names a current
entry without quarantine acts on it: TOKEN, PREFILL_DONE, a VERIFY that accepts every draft of an eager entry, DONE, FAIL and
CANCEL_ACK; an expert report is counted; a token's output record is written to its slot and counted. -/
def Obligations.ReportsAndOutputs : Prop :=
  let taken := fun (s : State) (p : PartId) (ring : Fin 16) (kind i : Nat) (r0 r1 : BitVec 128) (t : State) =>
    (repRing s p ring).hand = some (r0, r1) ∧ rpKind r0 = kind ∧
    rpNamed (setRep s p ring { repRing s p ring with hand := none }) p r0 = some i ∧
    (entAt (setRep s p ring { repRing s p ring with hand := none }) p i).quar = false ∧
    t = modEnt (setRep s p ring { repRing s p ring with hand := none }) p i (fun e => { e with stall := 0 })
  (∀ (part : PartId) (ring : Fin 16) (ecc : EccFinds) (s s1 : State) (x : RepRing) (loc : Word) (base n sh d : Nat), x = repRing s part ring →
    loc = reg s (rHop part 0x1C ring) → bit loc 31 = true → x.hand = none → (hpart s part).out.length < 4096 → hopFault s part loc = none →
    sh = (locSheaf s part loc).getD 0 → drains s (.sheaf sh) = false → base = regF s (rHop part 0x20 ring) 17 0 / 32 * 32 →
    n = 2 ^ regF s (rHop part 0x20 ring) 31 28 → bmemRead s sh (base + 32 + 32 * (x.head % n)) 32 ecc 4 = (d, s1) →
    bmemPoisoned s1 sh (base + 32 + 32 * (x.head % n)) 32 = false → bit (BitVec.ofNat 128 d) 100 = !x.pass → x.head % n + 1 < n → x.since + 1 < 8 →
    rpBad (setRep s1 part ring { x with head := (x.head % n + 1) % n, since := x.since + 1 }) part (BitVec.ofNat 128 d) = false →
    exec (.reportPoll part ring ecc) s = .next (setRep (setRep s1 part ring { x with head := (x.head % n + 1) % n, since := x.since + 1 }) part ring
      { x with head := (x.head % n + 1) % n, since := x.since + 1, hand := some (BitVec.ofNat 128 d, BitVec.ofNat 128 (d / 2 ^ 128)) })) ∧
  (∀ (p : PartId) (ring : Fin 16) (i : Nat) (r0 r1 : BitVec 128) (s t : State), taken s p ring 1 i r0 r1 t → (entAt t p i).st = .decode →
    bit r0 79 = false → exec (.tokenReport p ring) s = .next (emitted (outAdd
      (modEnt t p i (fun e => { e with spills := min (e.spills + (rpTok r0 r1).spills) 0xFFFF })) p i (.token false (rpTok r0 r1))) p i 1)) ∧
  (∀ (p : PartId) (ring : Fin 16) (i : Nat) (r0 r1 : BitVec 128) (s t : State), taken s p ring 2 i r0 r1 t → (entAt t p i).st = .prefill →
    exec (.prefillDone p ring) s = .next (emitted (outAdd
      (modEnt t p i (fun e => { e with st := .decode, generated := 0, length := e.inputLen })) p i
      (.token false ⟨bits r0 99 80, bits r1 127 96, false, 0, 0⟩)) p i 1)) ∧
  (∀ (p : PartId) (ring : Fin 16) (i : Nat) (r0 r1 : BitVec 128) (s t t1 : State) (e : HEntry) (n : Nat), taken s p ring 3 i r0 r1 t → e = entAt t p i →
    e.st = .decode → e.eager = true → n = leadOnes (bits r0 75 68) 8 0 → n = e.specK → n < e.maxLen - e.generated →
    t1 = modEnt (outAdd (chargesEnd t p i n) p i (.token false ⟨bits r0 99 80 + n, bits r1 127 96, false, 0, 0⟩)) p i (fun e => { e with held := [] }) →
    exec (.verifyReport p ring) s = .next (emitted
      (dispAdd t1 p i 2 (packFields [(68, 0), (32, bits r1 127 96), (4, 0), (4, n), (20, bits r0 99 80)])) p i (n + 1))) ∧
  (∀ (p : PartId) (ring : Fin 16) (i : Nat) (r0 r1 : BitVec 128) (s t : State), taken s p ring 5 i r0 r1 t →
    exec (.doneReport p ring) s = .next (reportEnd p i (some (.done, 5)) t)) ∧
  (∀ (p : PartId) (ring : Fin 16) (i : Nat) (r0 r1 : BitVec 128) (s t : State), taken s p ring 6 i r0 r1 t →
    exec (.failReport p ring) s = .next (reportEnd p i (some (.failed, bits r0 99 96)) t)) ∧
  (∀ (p : PartId) (ring : Fin 16) (i : Nat) (r0 r1 : BitVec 128) (s t : State), taken s p ring 7 i r0 r1 t →
    exec (.cancelAck p ring) s = .next (reportEnd p i none t)) ∧
  (∀ (p : PartId) (ring : Fin 16) (r0 r1 : BitVec 128) (s s1 : State) (e : Nat), (repRing s p ring).hand = some (r0, r1) → rpKind r0 = 4 →
    s1 = setRep s p ring { repRing s p ring with hand := none } → e = bits r0 99 90 → regBit s1 (rMoe p 0) 31 = true → bits r1 127 96 = 0 →
    exec (.expertReport p ring) s = .next (spillAdd
      (incReg (incReg (incReg s1 (rMoe p 8 e) (bits r0 89 74)) (rMoe p 0x18 e) (bits r0 73 66)) (rMoe p 0x14 e) (bits r0 65 58)) p e
      (bits r0 65 58))) ∧
  (∀ (part : PartId) (s s1 : State) (x : HPart) (r : OutRec) (rest : List OutRec) (n tail : Nat) (tent late : Bool) (k : Tok), x = hpart s part →
    x.out = r :: rest → r.kind = .token tent k → n = 2 ^ min 20 (regF s (rHop part 0x2C) 4 0) → tail = regF s (rHop part 0x34) 19 0 →
    portUp s (homePort s part) = true → regBit s (rHst part 0) 31 = true → tail + 1 < n → tail + 1 ≠ regF s (rHop part 0x30) 19 0 % n →
    outLate (setHpart s part { x with out := rest, fullTold := false }) part r = (s1, late) →
    exec (.outputRecordWrite part true) s = .next (incReg (signal (setRegF (hostSend s1 (.write (homePort s part)
      (hostBase s (rHop part 0x24) (rHop part 0x28) 32 + 32 * tail) (outRows r (!x.outPass) late s.time)))
      (rHop part 0x34) 19 0 (tail + 1)) (homePort s part) part (regF s (rHst part 0) 3 0) false) (rHop part 0x58)))

/-! ### The Granary -/

/-- Namespaces, commits and models (R440, R444, R449, R451, R452, R453, R455, R456, R462). NS_CREATE and NS_DESTROY of the owner;
COMMIT_BEGIN, plain and repair, that passes every check; COMMIT_DATA queues its program job, and a page run within the limit makes its
block done; SEAL, ABORT, RESUME, FREE and QUERY. -/
def Obligations.GranaryCommits : Prop :=
  let free := fun (fn : FnId) (ring : Fin 8) (code : Nat) (s : State) (v w : Verb) (t : State) =>
    verbReady s fn ring code v = true ∧ t = started s v ∧ w = begun v ∧ gryReady t = true
  let commit := fun (fn : FnId) (ring : Fin 8) (code : Nat) (s : State) (v w : Verb) (t : State) (m : Model) =>
    free fn ring code s v w t ∧ modelOf t (bits w.op0 31 0) = some m ∧ nsPermits t w.fn m.nsid = true
  let named := fun (fn : FnId) (ring : Fin 8) (code : Nat) (s : State) (v w : Verb) (t : State) =>
    free fn ring code s v w t ∧ nsPermits t w.fn (bits w.op0 7 0) = true ∧ (mapFind t.granary.spaces (bits w.op0 7 0)).isSome = true ∧ bits w.op0 23 8 ≠ 0xFFFF
  (∀ (fn : FnId) (ring : Fin 8) (s t : State) (v w : Verb) (q : Nat), free fn ring 0x50 s v w t → w.fn = 0 → q = bits w.op0 27 8 →
    mapFind t.granary.spaces (bits w.op0 7 0) = none →
    (t.granary.spaces.map (fun e => nsQuota t e.1)).sum + (if q = 0 then 1048576 else q) ≤ 1048576 →
    exec (.nsCreate fn ring) s = .next (verbDone (mAdd (keysLoad (keysLoad (setGry (draw t).2
      { (draw t).2.granary with spaces := mapInsert (draw t).2.granary.spaces (bits w.op0 7 0) ⟨q, (Config.freeVec t.fresh).extractLsb' 0 256, (Config.freeVec t.fresh).extractLsb' 256 256⟩ }) 0) 1)
      { kind := 0xA, nsid := bits w.op0 7 0, data := [q] }) w 0)) ∧
  (∀ (fn : FnId) (ring : Fin 8) (s t : State) (v w : Verb), free fn ring 0x51 s v w t → w.fn = 0 →
    (mapFind t.granary.spaces (bits w.op0 7 0)).isSome = true → (t.granary.models.filter (fun m => m.nsid == bits w.op0 7 0)) = [] →
    exec (.nsDestroy fn ring) s = .next (verbDone (mAdd (keysLoad (keysLoad
      (setGry t { t.granary with spaces := mapErase t.granary.spaces (bits w.op0 7 0) }) 0) 1) { kind := 0xB, nsid := bits w.op0 7 0 }) w 0)) ∧
  (∀ (fn : FnId) (ring : Fin 8) (list : Option (List Byte)) (s t : State) (v w : Verb) (mem : Mem) (pl : List (Nat × Nat)) (base : Nat),
    named fn ring 0x52 s v w t → bit v.op0 24 = false →
    srcBytes t w.fn (bit w.op0 25) (bits w.op1 63 0) (4 * bits w.op0 39 32) list = some mem →
    (List.range (bits w.op0 39 32)).mapM (fun k => placeEntry (word (memGet mem (4 * k) 4))) = some pl →
    0 < bits w.op0 39 32 → bits w.op0 39 32 ≤ 160 → roHalf t (pl.map Prod.fst) = false → byHandle t (bits w.op0 7 0) (bits w.op0 23 8) = none →
    commitLimit t (bits w.op0 7 0) = false → nsAlloc t (bits w.op0 7 0) + (pl.map Prod.snd).sum ≤ nsQuota t (bits w.op0 7 0) →
    noRoom t pl = false → nsBase t (bits w.op0 7 0) (pl.map Prod.snd).sum = some base →
    exec (.commitBegin fn ring list) s = .next (verbDone (commitOpen t w pl base) w 0
      (packFields [(32, t.granary.nextId), (20, base), (20, (pl.map Prod.snd).sum)]))) ∧
  (∀ (fn : FnId) (ring : Fin 8) (s t : State) (v w : Verb) (m : Model) (bad : List (Nat × Nat)), named fn ring 0x52 s v w t → bit v.op0 24 = true →
    byHandle t (bits w.op0 7 0) (bits w.op0 23 8) = some m → m.st = .degraded → bad = badBlks t m →
    t.granary.models.any (fun r => r.repair && r.nsid == bits w.op0 7 0 && r.handle == bits w.op0 23 8 && pendingSt r) = false →
    roHalf t (bad.map Prod.snd) = false → commitLimit t (bits w.op0 7 0) = false →
    nsAlloc t (bits w.op0 7 0) + bad.length ≤ nsQuota t (bits w.op0 7 0) → noRoom t (bad.map (fun e => (e.2, 1))) = false →
    exec (.commitRepairBegin fn ring) s = .next (verbDone (mAdd (setGry t { t.granary with
        models := t.granary.models ++ [{ commit := t.granary.nextId, nsid := bits w.op0 7 0, handle := bits w.op0 23 8
                                         part := if w.fn = 0 then none else some w.fn, st := .open_, base := m.base
                                         blocks := m.blocks, place := bad, repair := true }]
        nextId := t.granary.nextId + 1 })
      { kind := 1, nsid := bits w.op0 7 0, handle := bits w.op0 23 8, commit := t.granary.nextId, data := [m.base, m.blocks, 1, 0] }) w 0
      (packFields [(32, t.granary.nextId), (20, m.base), (20, m.blocks)]))) ∧
  (∀ (fn : FnId) (ring : Fin 8) (data : Option (List Byte)) (s t : State) (v w : Verb) (m : Model) (f : Nat) (bytes : Mem), commit fn ring 0x53 s v w t m →
    0 < bits w.op0 77 53 → bits w.op0 77 53 ≤ 16777216 → bits w.op0 51 32 < m.blocks → m.st = .open_ →
    blkRegion m (bits w.op0 51 32) = some f → mapFind m.done (bits w.op0 51 32) = none →
    (region t f).jobs.any (fun j => j.commit == m.commit && j.mblock == bits w.op0 51 32) = false →
    srcBytes t w.fn (bit w.op0 52) (bits w.op1 63 0) (bits w.op0 77 53) data = some bytes →
    exec (.commitData fn ring data) s = .next (progBegin (modRegion t f (fun r => { r with jobs := r.jobs ++
      [{ verb := w.id, commit := m.commit, mblock := bits w.op0 51 32, bytes := bytes, len := bits w.op0 77 53 }] })) f)) ∧
  (∀ (f : FieldId) (depth b : Nat) (s s1 s2 : State) (j : ProgJob) (rest : List ProgJob) (m : Model), (region s f).jobs = j :: rest → j.phys = some b →
    j.held = false → s1 = incReg s (rGryF f 0x20) ((j.len + 16383) / 16384) → depth ≤ regF s1 (rGryF f 0xC) 7 0 → depth ≤ regF s (rGry 0x14) 7 0 →
    s2 = modBlk s1 f b (fun k => { k with len := j.len, data := j.bytes, reads := 0, poison := [] }) → modelOf s2 j.commit = some m →
    exec (.commitDataDone f depth false) s = .next (progBegin (verbEnd (modRegion
      (modModel (jAdd s2 f { kind := 4, nsid := m.nsid, handle := m.handle, commit := j.commit, mblock := j.mblock, phys := b, data := [j.len] })
        j.commit (fun m => { m with done := mapInsert m.done j.mblock (f.val, b, j.len) }))
      f (fun r => { r with jobs := rest })) j.verb 0) f)) ∧
  (∀ (fn : FnId) (ring : Fin 8) (s t : State) (v w : Verb) (m : Model), commit fn ring 0x54 s v w t m → m.st = .open_ → m.repair = false →
    m.blocks ≤ m.done.length →
    exec (.commitSeal fn ring) s = .next (verbDone (sealModel (mAdd t { kind := 5, nsid := m.nsid, handle := m.handle, commit := m.commit }) m) w 0)) ∧
  (∀ (fn : FnId) (ring : Fin 8) (s t : State) (v w : Verb) (m : Model), commit fn ring 0x55 s v w t m → pendingSt m = true →
    exec (.commitAbort fn ring) s = .next (verbDone (abortCommit 1 t m) w 0)) ∧
  (∀ (fn : FnId) (ring : Fin 8) (s t : State) (v w : Verb) (m : Model), commit fn ring 0x56 s v w t m → m.st = .suspended →
    exec (.commitResume fn ring) s = .next (verbDone (modModel t m.commit (fun m => { m with st := .open_, idle := 0 })) w 0
      ((if m.repair then m.place.length else m.blocks) - m.done.length))) ∧
  (∀ (fn : FnId) (ring : Fin 8) (s t s1 : State) (v w : Verb) (m : Model), named fn ring 0x57 s v w t →
    byHandle t (bits w.op0 7 0) (bits w.op0 23 8) = some m → pendingSt m = false →
    s1 = mAdd ((t.granary.models.filter (fun r => r.repair && r.nsid == bits w.op0 7 0 && r.handle == bits w.op0 23 8)).foldl (abortCommit 1) t)
      { kind := 7, nsid := bits w.op0 7 0, handle := bits w.op0 23 8, commit := m.commit } →
    exec (.modelFree fn ring) s = .next (verbDone ((modelBlks m).foldl freeBlk (rowsNext (dropModel s1 m.commit) m 0)) w 0)) ∧
  (∀ (fn : FnId) (ring : Fin 8) (ok : Bool) (s t : State) (v w : Verb), named fn ring 0x58 s v w t →
    exec (.modelQuery fn ring ok) s = .next (verbResult t w (modelRecord t (bits w.op0 7 0) (bits w.op0 23 8)) ok))

/-- Replay, expiry, scrub, refresh, erase, program hold (R456, R460, R462, R475, R477, R479). The replay takes what the journals say, makes
the Granary ready and leaves no committal OPEN; a commit suspended for RESUME_LIMIT seconds expires; the scrub reads a page, and
marks its block where a codeword took REFRESH_BITS corrections or more; a refresh moves a marked block, or retires the target that
failed; a freed block is erased; a held program job times out or goes on. -/
def Obligations.GranaryUpkeep : Prop :=
  (∀ (s s2 : State), gryReady s = false → s2 = keysLoad (keysLoad (orReg (replayed s) (rGry 4) 1) 0) 1 →
    exec .journalReplay s = .next ((s2.granary.models.filter (fun m => m.st == .suspended &&
      !(modelOf s m.commit).any (fun o => o.st == .suspended))).foldl saySuspended s2)) ∧
  (∀ (s : State) (m : Model), m ∈ (replayed s).granary.models → m.st ≠ .open_ ∧ m.idle = s.time) ∧
  (∀ (id : BitVec 32) (s : State) (m : Model), modelOf s id.toNat = some m → m.st = .suspended → gryReady s = true →
    m.idle + regF s (rGry 0) 15 0 * 1000000000 ≤ s.time →
    exec (.commitExpiry id) s = .next (raise (incReg (abortCommit 2 s m) (rGry 0x2C)) .commitExpired (nsPart s m.nsid) 0 0
      [(8, m.nsid), (16, m.handle), (32, m.commit)])) ∧
  (∀ (f : FieldId) (ecc : EccFinds) (most : Nat) (s s1 : State) (r : Region) (k : Nat), r = region s f →
    (((dataBlks r).filter (fun e => e.2.st == .used && e.2.len != 0)).flatMap
      (fun e => (List.range ((e.2.len + 16383) / 16384)).map (fun p => 1024 * e.1 + p))).find? (fun k => k ≥ r.scrub) = some k →
    s1 = gryCount ((List.range 4).foldl (fun s c => gryDecode ecc (4 * (k % 1024) + c) f (k / 1024)
      (4 * (k % 1024) + c) 2 s) (setRegion s f { r with scrub := k + 1 })) f (k / 1024) 1 →
    exec (.granaryScrubRead f ecc most) s = .next (if most ≥ regF s (rGry 0x10) 23 16
      then modBlk s1 f (k / 1024) (fun k => { k with marked := true }) else s1)) ∧
  (∀ (f : FieldId) (depth b n : Nat) (k : GBlock) (rest : List (Nat × GBlock)) (s s1 : State),
    (dataBlks (region s f)).filter (fun e => e.2.st == .used && e.2.marked) = (b, k) :: rest → pickBlk (region s f) = some n → gryHeld s f = false →
    s1 = (if (gblock (region s f) n).erased then setRegion s f { region s f with blocked := false }
      else eraseBlk (setRegion s f { region s f with blocked := false }) f n) →
    exec (.blockRefresh f depth true) s =
      .next (retireBlk (verifyDepth (incReg s1 (rGryF f 0x20) ((k.len + 16383) / 16384)) f depth) f n 2)) ∧
  (∀ (f : FieldId) (depth b n : Nat) (k : GBlock) (rest : List (Nat × GBlock)) (s s1 s2 : State),
    (dataBlks (region s f)).filter (fun e => e.2.st == .used && e.2.marked) = (b, k) :: rest → pickBlk (region s f) = some n → gryHeld s f = false →
    s1 = verifyDepth (incReg (if (gblock (region s f) n).erased then setRegion s f { region s f with blocked := false }
      else eraseBlk (setRegion s f { region s f with blocked := false }) f n) (rGryF f 0x20) ((k.len + 16383) / 16384)) f depth →
    depth ≤ regF s (rGry 0x14) 7 0 →
    s2 = modBlk s1 f n (fun x => { x with st := .used, erased := false, len := k.len, data := k.data, reads := 0, poison := k.poison }) →
    s2.granary.models.find? (fun m => m.done.any (fun e => e.2.1 == f.val && e.2.2.1 == b)) = none →
    exec (.blockRefresh f depth false) s = .next (incReg (freeBlk s2 (f.val, b)) (rGryF f 0x24))) ∧
  (∀ (f : FieldId) (s : State) (b : Nat) (x : GBlock), (dataBlks (region s f)).find? (fun e => e.2.st == .free && !e.2.erased) = some (b, x) →
    gryHeld s f = false → exec (.blockErase f false) s = .next (eraseBlk s f b)) ∧
  (∀ (f : FieldId) (s : State) (j : ProgJob) (rest : List ProgJob), (region s f).jobs = j :: rest → j.held = true → gryHeld s f = true → j.phys = none →
    exec (.programHoldTimeout f) s = .next (progBegin (verbEnd (modRegion s f (fun r => { r with jobs := rest })) j.verb
      (if regBit s (rGryF f 0) 2 then 0x14 else 0x15)) f)) ∧
  (∀ (f : FieldId) (s : State) (j : ProgJob) (rest : List ProgJob), (region s f).jobs = j :: rest → j.held = true → gryHeld s f = false →
    exec (.programResume f) s = .next (progBegin (modRegion s f (fun r => { r with jobs := { j with held := false } :: rest })) f))

/-! ### Links between modules -/

/-- A link's training and loss (R592, R594, R599, R600). The signal of one of the link's lanes is kept and starts the training of a link that is DOWN, and that of
a REFUSED link again; a lost lane narrows the link; TRAIN leaves the common lanes; an identity of a module that nothing refuses and
whose role agrees is kept; the confirmed key makes the link UP; a training step's timeout tries again while tries are left, and a crib's
slot that was being bound is dropped; a FAILED
link retries; silence takes the link down; LINK_RETRAIN. -/
def Obligations.LinkBringUp : Prop :=
  (∀ (port : DieId) (link : Fin 4) (lane : Fin 16) (s : State), regBit s (rDrt port 0) 31 = true → laneLink s port lane = link.val → linkSt s port link = 4 →
    exec (.laneSignal port link lane) s = .next (setLinkSt (setLk s port link { signal := 2 ^ lane.val }) port link 1)) ∧
  (∀ (port : DieId) (link : Fin 4) (lane : Fin 16) (s s1 : State), regBit s (rDrt port 0) 31 = true → laneLink s port lane = link.val →
    linkSt s port link ≠ 4 →
    s1 = setLk s port link { lk s port link with signal := (lk s port link).signal ||| 2 ^ lane.val } →
    exec (.laneSignal port link lane) s = .next (if linkSt s port link = 0 then setLinkSt s1 port link 1 else s1)) ∧
  (∀ (port : DieId) (link : Fin 4) (lane : Fin 16) (s : State) (m : Nat), m = regF s (rDrt port 0x18 link) 15 0 →
    m / 2 ^ lane.val % 2 = 1 → m ≠ 2 ^ lane.val → exec (.laneDrop port link lane) s = .next (setLanes s port link (m - 2 ^ lane.val))) ∧
  (∀ (port : DieId) (link : Fin 4) (lanes : BitVec 16) (s : State) (m : Nat), m = (lanes &&& BitVec.ofNat 16 (lk s port link).signal).toNat →
    linkSt s port link = 1 → m ≠ 0 → exec (.trainFrame port link lanes) s = .next (setLinkSt (setLanes s port link m) port link 2)) ∧
  (∀ (port : DieId) (link : Fin 4) (id : Ident) (s s1 : State), linkSt s port link = 2 → id.crib = false → identRefuse s id = none →
    regBit s (rDrt port 0x14 link) 0 = !id.cadUp →
    s1 = setReg (setReg s (rDrt port 0xC link) (word (id.serial.toNat % 2 ^ 32))) (rDrt port 0x10 link) (word (id.serial.toNat / 2 ^ 32)) →
    exec (.ident port link id) s = .next (setRegF (setLk
      (setRegF (setRegF (setRegF s1 (rDrt port 8 link) 28 28 0) (rDrt port 8 link) 15 13 id.port.toNat) (rDrt port 8 link) 12 11 id.link.toNat)
      port link { lk s port link with peer := some id, credReq := id.creditReq, credRsp := id.creditRsp })
      (rDrt port 8 link) 18 18 (bnat (!id.cadUp)))) ∧
  (∀ (port : DieId) (link : Fin 4) (id : Ident) (s s1 : State), (lk s port link).peer = some id → linkSt s port link = 2 → id.crib = false →
    s1 = (lk s port link).retrain.foldl (fun s v => verbEnd s v 0)
      (setLinkSt (setLk s port link { lk s port link with tries := 0, retrain := [] }) port link 3) →
    exec (.keyAgreementConfirm port link) s = .next (rickChanged (raise s1 .linkUp none 5 (0x18 + port)
      [(3, port), (2, link), (4, 1), (64, id.serial.toNat), (5, regF s1 (rDrt port 8 link) 27 23)]))) ∧
  (∀ (port : DieId) (link : Fin 4) (s : State), (linkSt s port link = 1 ∨ linkSt s port link = 2) → (lk s port link).tries < 2 →
    exec (.linkTrainTimeout port link) s = .next (setLinkSt (setLk
      (if cribMet (lk s port link) then cribGone s port (peerSerial s port link) else s) port link
      { lk s port link with tries := (lk s port link).tries + 1, signal := 0, peer := none }) port link 1)) ∧
  (∀ (port : DieId) (link : Fin 4) (s : State), linkSt s port link = 5 → exec (.linkFailedRetry port link) s = .next (setLinkSt s port link 1)) ∧
  (∀ (port : DieId) (link : Fin 4) (s : State), linkUp s port link = true →
    exec (.linkSilenceTimeout port link) s = .next (linkDown s port link 1)) ∧
  (∀ (fn : FnId) (ring : Fin 8) (s t s1 : State) (v w : Verb) (p l : Nat), ownerReady s fn ring 0x33 v = true → t = started s v → w = begun v →
    p = bits w.op0 2 0 → l = bits w.op0 4 3 → p ≤ 5 → s1 = linkDown t p l 3 →
    exec (.linkRetrain fn ring) s = .next (setLinkSt (setLk s1 p l { lk s1 p l with retrain := (lk s1 p l).retrain ++ [w.id], tries := 0 }) p l 1))

/-- Frames and crib transactions (R506, R509, R594, R596, R597). The data frame next in order is taken, one with a bad tag is counted and
rejected; an idle frame is counted; the timers send what is owed; a rekey after 2^40 frames; a module answers DRAUGHT_READ and
DRAUGHT_WRITE with ABSENT (log 27); a crib's answers and notices are taken; a crib timeout tries again, then moves or loses its slot. -/
def Obligations.LinkFrames : Prop :=
  (∀ (port : DieId) (link : Fin 4) (head : FrameHead) (txns : List Txn) (s s1 : State) (x : Link) (n : Nat), linkUp s port link = true → head.tagOk = true →
    s1 = headTake s port link head → x = lk s1 port link → n = (match x.rxSeq with | none => 0 | some n => (n + 1) % 2 ^ 24) →
    head.seq.toNat = n → x.unacked < 63 →
    exec (.dataFrame port link head txns) s = .next (incReg (setLk s1 port link
      { x with rxSeq := some n, rejects := 0, arrived := x.arrived ++ txns, unacked := x.unacked + 1 }) (rDrt port 0x28 link))) ∧
  (∀ (port : DieId) (link : Fin 4) (head : FrameHead) (txns : List Txn) (s : State), linkUp s port link = true → head.tagOk = false →
    exec (.dataFrame port link head txns) s = .next (frameReject (incReg s (rDrt port 0x2C link)) port link)) ∧
  (∀ (port : DieId) (link : Fin 4) (head : FrameHead) (s : State), linkUp s port link = true → head.tagOk = true →
    exec (.idleFrame port link head) s = .next (incReg (headTake s port link head) (rDrt port 0x28 link))) ∧
  (∀ (port : DieId) (link : Fin 4) (s : State), exec (.ackTimer port link) s = .next (ackNow s port link) ∧
    exec (.idleTimer port link) s = .next (ackNow s port link)) ∧
  (∀ (port : DieId) (link : Fin 4) (s : State), linkUp s port link = true → 2 ^ 40 ≤ (lk s port link).frames →
    exec (.rekey port link) s = .next (setLk s port link { lk s port link with phase := !(lk s port link).phase, frames := 0 })) ∧
  (∀ (port : DieId) (link : Fin 4) (x : Txn) (s : State), linkUp s port link = true →
    exec (.draughtRead port link x) s = .next (txnSend (txnTake s port link x) port link (txnReply x .readData 2 [])) ∧
    exec (.draughtWrite port link x) s = .next (txnSend (txnTake s port link x) port link (txnReply x .writeAck 2 []))) ∧
  (∀ (port : DieId) (link : Fin 4) (x : Txn) (s : State),
    exec (.draughtReadData port link x) s = .next (cribAnswer s port link x (fun q s =>
      if x.status ≠ 0 then sendGone s q.at_ (.die (0x18 + port)) q.pkt
      else sendPkt (x.body.zipIdx.foldl (fun s e => if e.1.2 then cribTell s q.slot (x.addr.toNat + 16 * e.2) 1 else s)
          (incReg s (rCrb 0x24 q.slot) x.body.length))
        { mkResp q.pkt .readData 0 0 x.body with src := coordV q.at_, tally := q.pkt.tally, cw := q.pkt.cw })) ∧
    exec (.draughtWriteAck port link x) s = .next (cribAnswer s port link x (fun q s =>
      if x.status ≠ 0 then sendGone s q.at_ (.die (0x18 + port)) q.pkt
      else reply (incReg s (rCrb 0x28 q.slot) q.pkt.len.toNat) q.at_ q.pkt .ack 0 0 []))) ∧
  (∀ (port : DieId) (link : Fin 4) (x : Txn) (s : State) (k : Nat), linkUp s port link = true → linkSlot s port link = some k →
    exec (.draughtNotice port link x) s = .next (cribTell (txnTake s port link x) k x.addr.toNat 2)) ∧
  (∀ (tag : BitVec 32) (s : State) (x y : CribTx), s.cribTx.find? (fun x => x.tag == tag.toNat) = some x →
    x.tries < regF s (rCrb 0) 15 12 → y = { x with tries := x.tries + 1 } →
    exec (.cribTimeout tag) s = .next (cribSend (incReg { s with cribTx := s.cribTx.map (fun z => if z = x then y else z) } (rCrb 0x2C x.slot)) y)) ∧
  (∀ (tag : BitVec 32) (s : State) (x : CribTx), s.cribTx.find? (fun x => x.tag == tag.toNat) = some x →
    regF s (rCrb 0) 15 12 ≤ x.tries → exec (.cribTimeout tag) s = .next
      (if regBit s (rCrb 0xC x.slot) 29 = true ∧ regBit s (rCrb 0xC x.slot) 22 = false then slotMove s x.slot true else slotLost s x.slot))

/-! ### The Rick -/

/-- The Rick's records and sweeps (R602, R603, R605, R611, R612). A newer record is kept and flooded, a newer topology adopted and flooded;
RICK_TOPOLOGY answers; the coordinator's sweep starts by verb or timer; a returning token is acknowledged and passed back; the kept
token is acknowledged; a sweep that times out in its reverse leg ends. The acknowledgements and that timeout are the model's choice (log
50). -/
def Obligations.RickRecordsAndSweeps : Prop :=
  (∀ (port : DieId) (link : Fin 4) (r : LsRecord) (s : State), linkUp s port link = true → r.serial ≠ Config.moduleSerial →
    (∀ q, recOf s r.serial = some q → q.version < r.version) →
    exec (.linkStateRecord port link r) s = .next (rickUpdate (flood (keepRec s r) (.linkState r) (some (port.val, link.val))))) ∧
  (∀ (port : DieId) (link : Fin 4) (r : TopoRecord) (s : State), linkUp s port link = true → (∀ o, s.rick.topo = some o → o.version < r.version) →
    exec (.topologyRecord port link r) s = .next (flood (adopt s r) (.topology r) (some (port.val, link.val)))) ∧
  (∀ (fn : FnId) (ring : Fin 8) (ok : Bool) (s t : State) (v : Verb), ownerReady s fn ring 0x32 v = true → t = started s v →
    exec (.rickTopology fn ring ok) s = .next (verbResult t (begun v) (topoRows t) ok)) ∧
  (∀ (fn : FnId) (ring : Fin 8) (s t : State) (v : Verb) (r : TopoRecord), ownerReady s fn ring 0x31 v = true → t = started s v →
    t.rick.topo = some r → isCoord t = true → t.rick.sweep.running = none →
    exec (.rickSweep fn ring) s = .next (sweepStart t r r.coord [v.id])) ∧
  (∀ (s : State) (r : TopoRecord), s.rick.topo = some r → isCoord s = true → regF s (rDrt 0 0x100) 15 0 ≠ 0 → s.rick.sweep.running = none →
    exec .sweepTimer s = .next (sweepStart s r r.coord [])) ∧
  (∀ (port : DieId) (link : Fin 4) (tok : SweepTok) (s s1 : State) (r : TopoRecord) (me : Nat), linkUp s port link = true →
    s1 = ctlSend s port link (.tokenAck tok.seq) → s1.rick.sweep.seen.contains (tok.seq, tok.rev, tok.back, tok.path.length) = false →
    s.rick.topo = some r → ownPos r = some me → isCoord s = false → tok.back = true →
    exec (.sweepToken port link tok) s = .next (tokBack (setSweep s1 { s1.rick.sweep with seen :=
      (s1.rick.sweep.seen.filter (fun k => k.1 == tok.seq)) ++ [(tok.seq, tok.rev, tok.back, tok.path.length)] }) r tok)) ∧
  (∀ (port : DieId) (link : Fin 4) (s : State) (k : SweepTok), linkUp s port link = true → s.rick.sweep.kept = some (k, port.val, link.val) →
    exec (.sweepHandshakeAck port link k.seq) s = .next (setSweep s { s.rick.sweep with kept := none })) ∧
  (∀ (s : State) (k : SweepTok) (r : TopoRecord), s.rick.sweep.running = some k → s.rick.topo = some r → k.rev = true →
    exec .sweepTokenTimeout s = .next (sweepEnd s (tokAdd s r.coord k)))

/-! ### Cadence time and calibration -/

/-- Cadence sources and time (R624, R625, R626, R627, R629, R630, R639, R640, R641, R653). A good pulse counts and is measured; the
reference locks and unlocks; PTP's messages; a source's timeout; LOCKED and TRACKING; HOLDOVER ends in FREERUN; the primary is taken
back; words, delays, CAD_STEP, CAD_BEAT and a gap. -/
def Obligations.CadenceTime : Prop :=
  (∀ (n : Nat) (s s1 : State), regBit s (rCad 4) 8 = true → 999999000 ≤ n → n ≤ 1000001000 → s.cad.ppsBad = 0 →
    s1 = setCad (setRegF s (rCad 4) 9 9 1) { s.cad with ppsGood := s.cad.ppsGood + 1, ppsBad := 0 } →
    exec (.ppsEdge n) s = .next (measured (if 2 ≤ s.cad.ppsGood + 1 then qualify s1 1 (ppsOffset s) else s1) 1 (ppsOffset s))) ∧
  (∀ (s : State), exec .ref10mLock s = .next (setRegF s (rCad 4) 8 8 1)) ∧
  (∀ (err : BitVec 16) (s s1 s2 : State), regBit s (rCad 4) 8 = true →
    s1 = raise (setRegF s (rCad 4) 8 8 0) .ref10mLost none 0 0 [(16, err.toNat)] →
    s2 = unqualify (setCad s1 { s1.cad with ppsGood := 0 }) 1 → s2.cal.run = none →
    exec (.ref10mUnlock err) s = .next s2) ∧
  (∀ (s : State), exec (.ptpMessage .delayResp) s = .next (setCad s { s.cad with ptpResp := true })) ∧
  (∀ (s : State), exec (.ptpMessage (.master true)) s = .next (setRegF s (rCad 4) 10 10 1)) ∧
  (∀ (s : State), exec (.sourceTimeout 2) s = .next (unqualify (setCad s { s.cad with ptpSince := none, ptpResp := false }) 2)) ∧
  (∀ (s : State) (t : Nat), cadState s = 1 → s.cad.nearAt = some t → t + 10000000000 ≤ s.time → exec (.cadenceLockTimer true) s = .next
    (raise (setCadState s 2) .cadenceLocked none 0 0 [(4, cadInUse s), (64, int64 (reg s (rCad 0x1C)).toInt)])) ∧
  (∀ (s : State) (t : Nat), cadState s = 2 → s.cad.farAt = some t → t + 1000000000 ≤ s.time → exec (.cadenceLockTimer false) s = .next (setCadState s 1)) ∧
  (∀ (s : State) (n : Nat), cadState s = 3 → n = regF s (rCad 0) 15 0 → s.cad.holdFrom + n * 1000000000 ≤ s.time → exec .holdoverExpiry s = .next
    (raise (setCadState (setReg s (rCad 0x24) (word n)) 4) .cadenceFreerun none 0 0 [(16, n)])) ∧
  (∀ (s : State) (p : Nat), p = cadPrimary s → (cadState s = 1 ∨ cadState s = 2) → cadInUse s ≠ p → cadNamed s p = true → qualified s p = true →
    s.cad.qualAt.getD p 0 + regF s (rCad 0x34) 15 0 * 1000000000 ≤ s.time → exec .cadenceRevert s = .next (switchSource s p)) ∧
  (∀ (port : DieId) (link : Fin 4) (s : State), cadUp s port link = true → linkCrib s port link = false → cadState s = 2 → s.cad.last = 3 →
    exec (.cadenceWordTimer port link) s = .next
      (ctlSend s port link (.cadence ⟨BitVec.ofNat 64 s.time, cadState s, s.cad.hops + 1, regF s (rCad 0x18) 13 0⟩))) ∧
  (∀ (port : DieId) (link : Fin 4) (w : CadWord) (s s1 : State), linkUp s port link = true → s1 = ctlSend s port link .delay →
    cadLink s1 ≠ (port.val, link.val) → exec (.cadenceWord port link w) s = .next s1) ∧
  (∀ (port : DieId) (link : Fin 4) (w : CadWord) (s s1 s2 s3 : State) (off : Int), linkUp s port link = true → s1 = ctlSend s port link .delay →
    cadLink s1 = (port.val, link.val) → w.state = 2 → w.hops ≤ 15 →
    off = (w.time.toNat + (lk s1 port link).delay : Nat) - (s1.time : Int) →
    s2 = setCad s1 { s1.cad with wordSince := some (s1.cad.wordSince.getD s1.time), hops := w.hops } →
    s3 = setRegF s2 (rCad 4) 11 11 0 → w.beta = regF s3 (rCad 0x18) 13 0 → cadUp s3 port link = true →
    exec (.cadenceWord port link w) s = .next (measured s3 3 off)) ∧
  (∀ (port : DieId) (link : Fin 4) (trip : Nat) (s : State), cadUp s port link = true →
    exec (.cadenceDelayReply port link trip) s = .next (setLk s port link { lk s port link with delay := trip / 2 })) ∧
  (∀ (fn : FnId) (ring : Fin 8) (s t : State) (v w : Verb), ownerReady s fn ring 0x70 v = true → t = started s v → w = begun v →
    t.cad.step = none → t.cad.first = none → bit w.op0 64 = true →
    exec (.cadStep fn ring) s = .next (setCad t { t.cad with step := some { delta := sgn 64 (bits w.op0 63 0), verb := w.id } })) ∧
  (∀ (fn : FnId) (ring : Fin 8) (s t : State) (v w : Verb), ownerReady s fn ring 0x71 v = true → t = started s v → w = begun v →
    t.cad.beta = none → 50 ≤ bits w.op0 13 0 → bits w.op0 13 0 ≤ 10000 → regF t (rImg 0) 3 0 = 0 →
    exec (.cadBeat fn ring) s = .next (setCad t { t.cad with beta := some (bits w.op0 13 0, w.id) })) ∧
  (∀ (s : State), regF s (rCad 0x2C) 31 24 ≠ 0 → s.beat % regF s (rCad 0x2C) 31 24 = 0 →
    exec .gapStart s = .next (setCad s { s.cad with gap := true }))

/-- Calibration runs (R646, R647, R651, R653). CAL_RUN with good inputs begins a run; a unit within its limits is recorded; a run past its
beats fails; CAL_ABORT ends it; CAL_RESULTS answers; CAL_REQ is kept. -/
def Obligations.Calibration : Prop :=
  (∀ (fn : FnId) (ring : Fin 8) (refv : Int) (s t s2 s3 : State) (v w : Verb) (op num : Nat) (r : CalRun), ownerReady s fn ring 0x72 v = true →
    t = started s v → w = begun v → op = bits w.op0 31 0 → nbits op 4 0 ≠ 0 → t.cal.run = none → calAbsent t op = false → nbits op 1 1 = 0 →
    num = (reg t (rCal 4)).toNat + 1 →
    r = { num := num % 2 ^ 32, verb := w.id, op := op, beat := t.beat, left := (List.range 5).flatMap (fun k => if nbits op k k = 1 then (calUnits t op k).map (fun u => (k, u)) else []) } →
    s2 = setRegF (setRegF (setReg (setReg t (rCal 4) (word num)) (rCal 0xC) (int32 refv)) (rCal 0) 31 24 0) (rCal 0) 3 0 1 →
    s3 = setCal s2 { run := some r, figs := [] } → calInputs s3 r refv = none →
    exec (.calRun fn ring refv) s = .next (setRegF s3 (rCal 0) 3 0 (if r.left.isEmpty then 3 else 2))) ∧
  (∀ (unit : Nat) (check : Bool) (a b : BitVec 16) (trim : Nat) (refv : Int) (s s1 s3 : State) (r : CalRun) (rest : List (Nat × Nat)), s.cal.run = some r →
    r.left = (2, unit) :: rest → chanInterval s unit < 2 → s1 = setRegF s (rCal 0) 6 4 2 → calInputs s1 r refv = none →
    s3 = setCal s1 { s1.cal with figs := mapInsert s1.cal.figs (1024 + unit) (a.toNat, b.toNat) } → calPoor s3 2 a.toNat b.toNat = false →
    exec (.calUnitMeasure 2 unit check false a b trim refv) s = .next (setRegF
      (setCal s3 { s3.cal with run := some { r with left := rest, shadow := mapInsert r.shadow (1024 + unit) trim } }) (rCal 0) 3 0
      (if rest.isEmpty then 3 else 2))) ∧
  (∀ (s : State) (r : CalRun), s.cal.run = some r → r.left ≠ [] → nbits r.op 31 20 = 0 → r.beat + 4000 ≤ s.beat →
    exec .calTimeout s = .next (calFail s r 0x47 0 0 0 0)) ∧
  (∀ (fn : FnId) (ring : Fin 8) (s t : State) (v : Verb) (r : CalRun), ownerReady s fn ring 0x73 v = true → t = started s v → t.cal.run = some r →
    exec (.calAbort fn ring) s = .next (verbDone (calFail t r 0x48 0 0 0 0) (begun v) 0 r.num)) ∧
  (∀ (fn : FnId) (ring : Fin 8) (ok : Bool) (s t : State) (v w : Verb) (k : Nat) (figs : SMap (Nat × Nat)), ownerReady s fn ring 0x74 v = true →
    t = started s v → w = begun v → k = bits w.op0 4 0 → k ≤ 4 → figs = (if bit w.op0 5 then t.cal.figs else t.store.figs) →
    exec (.calResults fn ring ok) s = .next (verbResult t w ((List.range ((calCount k + 3) / 4)).map (fun j =>
      BitVec.ofNat 128 (packFields ((List.range 4).map (fun i => (32, match mapFind figs (512 * k + (4 * j + i)) with
        | some (a, b) => if 4 * j + i < calCount k then b * 2 ^ 16 + a else 0
        | none => if 4 * j + i < calCount k then 0xFFFFFFFF else 0)))))) ok)) ∧
  (∀ (port : DieId) (link : Fin 4) (lane : Fin 16) (s : State), linkUp s port link = true →
    exec (.calReq port link lane) s = .next (setLk s port link { lk s port link with cal := some lane.val }))

/-! ### Power and heat -/

/-- Feeds, converters, rails and duty windows (R114, R204, R658, R660, R668, R669, R672, R676). A feed leaves, comes back into use, and stays; a feed
out of range, a cap that cannot be met and a converter's fault are told; a sample steps the field's protections; an AVS step within its limits
is taken; STOKE gives its notice; due notices are placed; a duty window ends; phases are retested; a crack is cleared. -/
def Obligations.PowerSupply : Prop :=
  (∀ (feed : Fin 2) (volts : BitVec 16) (s : State), s.pwr.use.getD feed.val false = true →
    exec (.feedBandExit feed volts) s = .next
      (raise (setPwr s { s.pwr with use := s.pwr.use.set! feed.val false }) .feedLost none 0 0 [(4, feed.val + 1), (16, volts.toNat)])) ∧
  (∀ (feed : Fin 2) (s : State), s.pwr.use.getD feed.val false = true →
    exec (.feedResume feed) s = .next (setPwr s { s.pwr with outTold := s.pwr.outTold.set! feed.val false })) ∧
  (∀ (feed : Fin 2) (s : State), s.pwr.use.getD feed.val false = false →
    exec (.feedResume feed) s = .next (raise
      (setPwr s { s.pwr with use := s.pwr.use.set! feed.val true, outTold := s.pwr.outTold.set! feed.val false })
      .feedRestored none 0 0 [(4, feed.val + 1)])) ∧
  (∀ (feed : Fin 2) (volts : BitVec 16) (s : State), s.pwr.outTold.getD feed.val false = false →
    exec (.feedOutOfRange feed volts) s = .next (raise (orReg (setPwr s { s.pwr with outTold := s.pwr.outTold.set! feed.val true }) (rPwr 4) 8)
      .feedOutOfRange none 0 0 [(4, feed.val + 1), (16, volts.toNat)])) ∧
  (∀ (c : Fin 4) (cause : Fin 3) (s : State), nbits s.pwr.conv (3 - c.val) (3 - c.val) = 1 →
    exec (.converterFault c cause) s = .next (raise (orReg (setPwr s { s.pwr with conv := s.pwr.conv - 2 ^ (3 - c.val) }) (rPwr 4) 4)
      .converterFault none 0 0 [(4, c.val + 1), (4, cause.val + 1)])) ∧
  (∀ (s : State), s.pwr.cap = 64 → effCap s < s.pwr.meter.watts → s.pwr.capTold = false →
    heldFor s s.pwr.capSince 10000000 = true → exec .capUnreachable s = .next (raise (orReg (setPwr s { s.pwr with capTold := true }) (rPwr 4) 2) .capUnreachable none 0 0
      [(16, s.pwr.meter.watts), (16, effCap s)])) ∧
  (∀ (f : FieldId) (x : SenseSample) (s : State) (total : Nat), railsUp s (f.val / 80) = true → x.held = false → total = (x.phases.take 9).foldl (· + ·) 0 →
    exec (.powerSenseSample f x) s = .next (railStep (phaseStep (crackStep
      (setFieldPw s f { fieldPw s f with sense := x.core, coreAmps := total / 100, sramAmps := x.sramA }) f x.drop total) f x total) f x)) ∧
  (∀ (f : FieldId) (mv : BitVec 16) (s : State) (x : FieldPw), x = fieldPw s f → regBit s (rPwr 0) 31 = true → s.cad.gap = false → prePlaced s f = false →
    x.crack = false → x.moved = none → 620 ≤ mv.toNat → mv.toNat ≤ 780 → mv.toNat ≤ x.setpoint + 5 → x.setpoint ≤ mv.toNat + 5 →
    exec (.avsUpdate f mv) s = .next (setFieldPw s f { x with setpoint := mv.toNat, moved := some s.time })) ∧
  (∀ (u : Issuer) (s : State) (i : Ins), issues .stoke u s i = true → exec (.stoke u) s = .next
    (next1 (stokeNotice (issued u s) (sheafOf u) (sGet (core (issued u s) u) i.ra).toNat (sGet (core (issued u s) u) i.rb).toInt) u)) ∧
  (∀ (f : FieldId) (s : State) (x : FieldPw) (due : Notice → Bool), x = fieldPw s f →
    due = (fun n => decide (s.cycle ≤ n.at_) && decide (n.at_ ≤ s.cycle + 2200)) → x.notices.any (fun n => due n && !n.placed) = true →
    exec (.stokePreposition f) s = .next (setFieldPw s f { x with parked := 0, posn := (x.notices.filter due).foldl (fun a n => a + n.step) (0 : Int), notices := x.notices.map (fun n => if due n then { n with placed := true } else n) })) ∧
  (∀ (m : PowerMeter) (want : List (GrainId × Nat)) (rise : List (FieldId × Nat)) (s s1 : State), s1 = capStep (takeMeter s m) →
    (List.range 160).filter (fun f => thermalDuty s f < 256) = [] →
    exec (.dutyWindowBoundary m want rise) s = .next ((List.range 160).foldl (fieldWindow thermalDuty want rise) s1)) ∧
  (∀ (fn : FnId) (ring : Fin 8) (pass : BitVec 9) (s t : State) (v w : Verb) (f shed : Nat), ownerReady s fn ring 0x80 v = true → t = started s v → w = begun v →
    f = 80 * bits w.op0 0 0 + bits w.op0 7 1 → bits w.op0 7 1 < 80 → (fieldPw t f).fenced = false → shed = (fieldPw t f).shed &&& (511 - pass.toNat) →
    exec (.phaseRetest fn ring pass) s = .next (verbDone (setFieldPw t f { fieldPw t f with shed := shed, low := [] }) w
      (if shed = 0 then 0 else 0x50) (511 - shed))) ∧
  (∀ (fn : FnId) (ring : Fin 8) (r : BitVec 16) (s t : State) (v w : Verb) (f : Nat), ownerReady s fn ring 0x81 v = true → t = started s v → w = begun v →
    f = 80 * bits w.op0 0 0 + bits w.op0 7 1 → bits w.op0 7 1 < 80 → bit w.op0 8 = true →
    exec (.crackClear fn ring (some r)) s = .next (verbDone (setFieldPw t f
      { fieldPw t f with rpath := r.toNat, crack := false, crackDuty := 256, armed := true, excess := 0 }) w 0 r.toNat))

/-- The Ember store (R681, R684, R685, R687). A due test starts; its measure and its end; a bus loss darkens the module and is recorded; the
bleed starts and ends; EMBER_TEST waits. -/
def Obligations.EmberStore : Prop :=
  (∀ (s : State), testDue s = true → flying s = 0 → s.pwr.test = none → s.pwr.bus = true →
    exec .emberTestStart s = .next (emberHold (setPwr s { s.pwr with test := some s.pwr.meter.store, due := false, weak := false }))) ∧
  (∀ (out gauge v1 uf ev : Nat) (s : State), s.pwr.test = some v1 → 40000 < v1 → uf = min 65535 (2000000000 * out / (v1 * v1 - 1600000000)) →
    ev = emberEv uf 40000 → permit s ≤ emberEv uf 48000 →
    exec (.emberTestMeasured out gauge) s = .next (setRegF (setPwr s { s.pwr with uf := uf, diff := (gauge : Int) - ev, weak := false, split := false, meter := { s.pwr.meter with store := 40000, gauge := ev } }) (rEmb 4) 1 1 0)) ∧
  (∀ (gauge : Nat) (s s2 : State), s.pwr.test.isSome = true →
    s2 = emberCheck (setReg (setPwr s { s.pwr with test := none, tested := s.time, meter := { s.pwr.meter with store := 48000, gauge := gauge } })
      (rEmb 0x14) (word (s.beat % 2 ^ 32))) →
    exec (.emberTestDone gauge) s = .next (emberVerbs (raise s2 .emberTestDone none 0 0 [(16, s.pwr.uf), (16, int16 s.pwr.diff)])
      (if s.pwr.weak then 0x52 else 0) (s.pwr.uf + 65536 * int16 s.pwr.diff))) ∧
  (∀ (m : PowerMeter) (s s3 : State) (e : EventRec), s.pwr.bus = true → s.pwr.test = none →
    s3 = emberHold (incReg (setPwr s { s.pwr with bus := false, holdup := true, meter := m }) (rEmb 0x1C)) →
    e = ⟨.inputLost, none, 0, 0, s.time, BitVec.ofNat 128 (packFields [(16, m.voltsA), (16, m.voltsB), (16, flying s)])⟩ →
    exec (.busLoss m) s = .next ([0, 1].foldl darken (logAdd (setPwr s3 { s3.pwr with lostRec := s3.pwr.lostRec ++ [e] }) e))) ∧
  (∀ (s : State), s.pwr.bus = false → s.pwr.use.toList.any id = false →
    exec .safetyBleedStart s = .next (setPwr s { s.pwr with bleed := true })) ∧
  (∀ (m : PowerMeter) (s : State), s.pwr.bleed = true →
    exec (.safetyBleedEnd false m) s = .next (setPwr s { s.pwr with bleed := false, meter := m })) ∧
  (∀ (fn : FnId) (ring : Fin 8) (s t : State) (v w : Verb), ownerReady s fn ring 0x82 v = true → t = started s v → w = begun v →
    exec (.emberTest fn ring) s = .next (setPwr t { t.pwr with verbs := t.pwr.verbs ++ [(w.id, t.time)] }))

/-- Sensors, trips, coolant and demand (R694, R695, R702, R704, R706, R713, R715). A faulty sensor; a reading of an inner channel; a calm
clamp ends; comparator samples below the trip count; THERMAL_RELEASE; a flow pulse and its absence; demand and its compliance. -/
def Obligations.ThermalControl : Prop :=
  (∀ (ch : Fin 194) (s : State), exec (.thermalSample ch .open_) s = .next (chanFault s ch 1) ∧
    exec (.thermalSample ch .short) s = .next (chanFault s ch 2)) ∧
  (∀ (ch : Fin 194) (t : Int) (s s1 : State), s1 = setChan s ch { chan s ch with reading := t } → t ≤ sgn 16 (bits (reg s1 (rThm 0x14 ch)) 15 0) →
    -640 ≤ t → t ≤ 2400 → (chan s ch).fault = false → 160 ≤ ch.val → ch.val < 192 →
    exec (.thermalSample ch (.reading t)) s = .next (stopStep (dutyStep (riseStep (levels s1 ch) ch) ch))) ∧
  (∀ (ch : Fin 194) (s : State), (chan s ch).calm = true →
    exec (.thresholdDwell (.rate ch)) s = .next (setChan s ch { chan s ch with clamp := false })) ∧
  (∀ (s s1 : State) (hot : List (Fin 194 × Int)), s.thm.latched = false →
    s1 = (List.range 176).foldl (fun s c => setChan s c { chan s c with hot :=
      if (hot.find? (fun e => e.1.val == c && decide (e.2 ≥ if c < 160 then deg 118 else deg 108))).isSome && !(chan s c).fault then (chan s c).hot + 1 else 0 }) s →
    (List.range 176).find? (fun c => (chan s1 c).hot ≥ 4) = none → exec (.tripComparatorSample hot) s = .next s1) ∧
  (∀ (fn : FnId) (ring : Fin 8) (s t : State) (v w : Verb) (c : Nat) (d : Int), ownerReady s fn ring 0x88 v = true → t = started s v → w = begun v →
    t.thm.trip = some (c, d) → t.thm.latched = false → t.thm.chans.any (fun e => e.2.reading ≥ deg 70) = false → t.thm.present = true →
    exec (.thermalRelease fn ring) s = .next (verbDone (setThm t { t.thm with trip := none, await := false }) w 0 (c + 65536 * int16 d))) ∧
  (∀ (rate k : Nat) (s : State), k = regF s (rThm 0x24) 31 16 → k ≠ 0 →
    exec (.flowPulse rate) s = .next (marginStep (setThm s { s.thm with flow := min 65535 (100 * rate / k), present := true }) 193)) ∧
  (∀ (s : State), s.thm.present = true → exec .flowTimeout s = .next (stopStep (marginStep
    (raise (setThm s { s.thm with present := false, flow := 0 }) .coolantFlowAbsent none 0 0 [(16, s.thm.flow)]) 193))) ∧
  (∀ (n : Nat) (s : State), exec (.demandUpdate n) s = .next
    (setThm s { s.thm with demand := if s.thm.latched then 21500 else demandNow s, loop := min 65535 n })) ∧
  (∀ (s : State), s.thm.loop + 200 < s.thm.demand → s.thm.comply = false →
    exec (.demandCompliance true) s = .next (raise (orReg (setThm s { s.thm with comply := true }) (rThm 0x3C) 4) .demandCompliance none 0 0
      [(16, s.thm.demand), (16, s.thm.loop)])) ∧
  (∀ (s : State), s.thm.demand ≤ s.thm.loop + 200 → exec (.demandCompliance false) s = .next (setThm s { s.thm with comply := false }))

/-! ### Images and keys -/

/-- Images, patches, relocation and keys (R531, R545, R546, R548, R552, R557, R559, R560, R563, R564, R565). An image that its checks pass
is taken, one is unloaded, its loads end; a patch is staged, applied, dropped; a relocation starts and its copy ends; units that do not
rest in time; the keys and their lock. -/
def Obligations.ImagesAndKeys : Prop :=
  let owner := fun (fn : FnId) (ring : Fin 8) (code : Nat) (s : State) (v w : Verb) (t : State) =>
    verbReady s fn ring code v = true ∧ v.fn = 0 ∧ t = started s v ∧ w = begun v
  (∀ (fn : FnId) (ring : Fin 8) (bytes : Option (List Byte)) (sig : Bool) (s t : State) (v w : Verb) (b : List Byte) (im : Image), owner fn ring 0x60 s v w t →
    imgReady s = true → imgBusy t = false → bits w.op0 63 32 ≤ 2 ^ 28 → imgBytes t w (bits w.op0 63 32) bytes = some b →
    checkImage t 0 false b sig (fullPerm t) = .ok im → exec (.imageLoad fn ring bytes sig) s = .next (imageTake t w im)) ∧
  (∀ (fn : FnId) (ring : Fin 8) (s t : State) (v w : Verb), owner fn ring 0x61 s v w t → imgReady s = true → imgBusy t = false →
    exec (.imageUnload fn ring) s = .next (imgDone (setReg (setReg (setImgState (dropImage t) 0) (rImg 4) 0) (rImg 8) 0) w 0)) ∧
  (∀ (s : State) (o : ImgOp), s.img.starts = [] → s.img.loading = none → s.img.op = some o → o.phase = .act → loadsLeft s o.part = false →
    exec .imageLoadsDone s = .next (opRun s o (if o.fail then 0x28 else 0))) ∧
  (∀ (fn : FnId) (ring : Fin 8) (s t : State) (v w : Verb) (k : Nat) (bytes : Option (List Byte)) (sig : Bool) (b : List Byte) (im : Image),
    verbReady s fn ring 0x62 v = true → t = started s v → w = begun v → imgReady s = true → imgBusy t = false →
    (List.range 8).find? (fun k => (mapFind t.img.slots k).isNone) = some k → bits w.op0 63 32 ≤ 2 ^ 24 →
    imgBytes t w (bits w.op0 63 32) bytes = some b →
    checkImage t w.fn true b sig (fun im => permFault (fun p sh => (rectSheaves t p).contains sh)
      (fun u x => (secApply true (fun a => some (xlatAddr u im.part a)) x u).1) im.secs 0 t) = .ok im →
    exec (.patchStage fn ring bytes sig) s = .next (imgDone (setImg t { t.img with slots := mapInsert t.img.slots k (w.fn, im) }) w 0 k)) ∧
  (∀ (fn : FnId) (ring : Fin 8) (s t : State) (v w : Verb) (im : Image), verbReady s fn ring 0x63 v = true → t = started s v → w = begun v →
    imgReady s = true → imgBusy t = false → mapFind t.img.slots (bits w.op0 2 0) = some (w.fn, im) → prtState t im.part = 2 →
    exec (.patchApply fn ring) s = .next (opStart t { verb := some w.id, part := im.part, beat := t.beat, slot := some (bits w.op0 2 0) })) ∧
  (∀ (fn : FnId) (ring : Fin 8) (s t : State) (v w : Verb) (im : Image), verbReady s fn ring 0x64 v = true → t = started s v → w = begun v →
    imgReady s = true → imgBusy t = false → mapFind t.img.slots (bits w.op0 2 0) = some (w.fn, im) →
    exec (.patchDrop fn ring) s = .next (imgDone (setImg t { t.img with slots := mapErase t.img.slots (bits w.op0 2 0) }) w 0)) ∧
  (∀ (rescue : Bool) (fn : FnId) (ring : Fin 8) (s t : State) (v w : Verb) (p im : Nat), owner fn ring 0x65 s v w t → bit v.op0 32 = rescue →
    imgReady s = true → imgBusy t = false → moveRefusal t w = none → p = bits w.op0 5 0 → im = sheafAt (bits w.op0 12 6) (bits w.op0 18 13) →
    exec (if rescue then .relocateRescue fn ring else .relocateMove fn ring) s = .next (moveStart t
      { verb := some w.id, part := p, beat := t.beat, slot := if bit w.op0 34 then some (bits w.op0 37 35) else none
        move := true, image := im, src := xlatSheaf t p im, dst := sheafAt (bits w.op0 25 19) (bits w.op0 31 26)
        rescue := rescue, retire := bit w.op0 33 })) ∧
  (∀ (s : State) (o : ImgOp), s.img.op = some o → o.phase = .copy → sheafFailed s o.dst = false → sheafFailed s o.src = false →
    exec .relocateCopyDone s = .next (opWrite (copySheaf (givePorts o.part s o.dst) o) o)) ∧
  (∀ (s : State) (o : ImgOp) (lim : Nat) (d : List (Nat × Nat)), s.img.op = some o → o.phase = .quiesce → lim = o.beat + 2 + quiesceBeats s o.part →
    lim ≤ s.beat → d = [(6, o.part), (4, if o.move then 5 else 4), (16, (unrested s o).length)] →
    exec .quiesceTimeout s = .next (endOp (setRegF (raise (raise (restWords s o.part 3 (lim + 1) (restSheaves s o)) .quiesceTimeout none 6 o.part d)
      .quiesceTimeout (some o.part) 6 o.part d) (rPrt o.part 8) 3 0 2) 0x2A)) ∧
  (∀ (fn : FnId) (ring : Fin 8) (key : Option (List Byte)) (s t : State) (v w : Verb) (k : Nat) (m : Mem), owner fn ring 0x66 s v w t →
    t.store.locked = false → k = bits w.op0 2 0 → k ≠ 0 → srcBytes t w.fn (bit w.op0 3) (bits w.op1 63 0) 96 key = some m →
    exec (.keyEnroll fn ring key) s = .next
      (imgDone (sayKey (setStore t { t.store with keys := mapInsert t.store.keys k (memGet m 0 96) }) k 1) w 0)) ∧
  (∀ (fn : FnId) (ring : Fin 8) (s t : State) (v w : Verb) (k : Nat), owner fn ring 0x67 s v w t →
    t.store.locked = false → k = bits w.op0 2 0 → k ≠ 0 → exec (.keyRevoke fn ring) s = .next
      (imgDone (sayKey (setStore t { t.store with keys := mapErase t.store.keys k }) k 2) w 0)) ∧
  (∀ (fn : FnId) (ring : Fin 8) (s t : State) (v w : Verb), owner fn ring 0x68 s v w t → bit v.op0 0 = true →
    exec (.keyLock fn ring) s = .next (imgDone (setLocked t true) w 0)) ∧
  (∀ (fn : FnId) (ring : Fin 8) (s t : State) (v w : Verb) (m : Mem), owner fn ring 0x68 s v w t → bit v.op0 0 = false →
    srcBytes t w.fn (bit w.op0 1) (bits w.op1 63 0) 96 (some []) = some m →
    exec (.keyUnlock fn ring (some true)) s = .next
      (imgDone (setLocked (setStore (draw t).2 { (draw t).2.store with nonce := (draw t).1 }) false) w 0))

/-! ### Resets, kindling and the Dampers -/

/-- Resets, fences and retirement (R317, R722, R725, R729, R732, R745, R746). The owner's RESET_UNIT of a grain, sheaf and field; the resets
of a partition and of a half that is not lost begin; a half's drain ends or times out; a reset drains, and a grain's is released; a
failed check fails its sheaf; UNIT_FENCE of a sheaf, FIELD_RETIRE, SHEAF_RETEST that passes; the defect map and the fault log are read. -/
def Obligations.ResetsAndFences : Prop :=
  (∀ (fn : FnId) (ring : Fin 8) (s t : State) (v w : Verb) (sh : Nat), verbReady s fn ring 0x90 v = true → v.fn = 0 → t = started s v → w = begun v →
    opSheaf w = some sh →
    (bits v.op0 23 22 = 1 → exec (.resetGrain fn ring) s = .next (unitReset t w (.grain (256 * sh + bits w.op0 21 14)) [.sheaf sh, .field (fieldOfSheaf sh)] [sh] (sheafFailed t sh))) ∧
    (bits v.op0 23 22 = 2 → exec (.resetSheaf fn ring) s = .next (unitReset t w (.sheaf sh) [.sheaf sh, .field (fieldOfSheaf sh)] [sh] (sheafFailed t sh)))) ∧
  (∀ (fn : FnId) (ring : Fin 8) (s t : State) (v w : Verb) (f : Nat), verbReady s fn ring 0x90 v = true → v.fn = 0 → t = started s v → w = begun v →
    opField w = some f → bits v.op0 23 22 = 3 → exec (.resetField fn ring) s = .next
      (unitReset t w (.field f) [] ((List.range 36).map (fun k => 36 * f + k)) (((List.range 36).map (fun k => 36 * f + k)).all (sheafFailed t)))) ∧
  (∀ (fn : FnId) (ring : Fin 8) (s t : State) (v w : Verb) (p : Nat), verbReady s fn ring 0x91 v = true → t = started s v → w = begun v → p = bits w.op0 5 0 →
    (w.fn = 0 ∨ w.fn = p) → prtState t p ≠ 0 → resetting t (.part p) = false → [0, 1].any (fun h => partInHalf t p h && halfDown t h) = false →
    exec (.resetPartition fn ring) s = .next (beginPart t p [w.id])) ∧
  (∀ (fn : FnId) (ring : Fin 8) (s t : State) (v w : Verb) (h : Nat), ownerReady s fn ring 0x92 v = true → t = started s v → w = begun v → h = bits w.op0 0 0 →
    (halfSt t h).lost = false → halfDown t h = false →
    exec (.resetHalf fn ring) s = .next (beginHalf (setFlt t { t.flt with halfHeld := t.flt.halfHeld.filter (fun p => !partInHalf t p h) }) h [w.id] (bit w.op0 1))) ∧
  (∀ (h : HalfId) (s : State), (halfSt s h).draining = true → (heldIn s h = [] ∨ (halfSt s h).lost = true) →
    exec (.halfDrainEnd h) s = .next (halfEmpty s h)) ∧
  (∀ (h : HalfId) (s : State) (n : Nat), (halfSt s h).draining = true →
    n = ((heldIn s h).map (fun f => flits f.pkt)).sum →
    exec (.drainTimeout h) s = .next (halfEmpty (raise ((List.range 8).foldl (fun s b => orReg s (rFlue b 4) (2 ^ 4)) s)
      .drainTimeout none 1 (halfUnit h) [(1, h.val), (16, n)]) h)) ∧
  (∀ (id : Nat) (s s1 : State) (r : ResetRun), s.flt.resets.find? (fun r => r.id == id) = some r → (∀ h, r.dom ≠ .half h) → r.drained = false →
    s1 = modReset (reinit s r.dom) id (fun r => { r with drained := true }) →
    exec (.resetDrainDone id) s = .next (setReg s1 (rModule 0x17 0xC)
      (word (max (reg s1 (rModule 0x17 0xC)).toNat (min (s.cycle - r.at_) (2 ^ 32 - 1)))))) ∧
  (∀ (id g : Nat) (s : State) (r : ResetRun), s.flt.resets.find? (fun r => r.id == id) = some r → r.dom = .grain g → r.drained = true → r.at_ + 2000 ≤ s.cycle →
    exec (.resetRelease id) s = .next (r.verbs.foldl (fun t v => verbEnd t v 0 (epochOf s (.grain g))) (sayReset (releaseGrain (dropReset s id) g) (.grain g)))) ∧
  (∀ (sh : SheafId) (s : State), exec (.sheafCheckError sh false) s = .next (failSheaf 2 s sh)) ∧
  (∀ (fn : FnId) (ring : Fin 8) (s t : State) (v w : Verb) (sh : Nat), ownerReady s fn ring 0x94 v = true → t = started s v → w = begun v →
    bit w.op0 14 = false → opSheaf w = some sh → halfDown t (bits w.op0 0 0) = false → sheafFailed t sh = false →
    exec (.unitFence fn ring) s = .next (verbDone (failSheaf 4 t sh) w 0)) ∧
  (∀ (fn : FnId) (ring : Fin 8) (s t : State) (v w : Verb) (f : Nat), ownerReady s fn ring 0x95 v = true → t = started s v → w = begun v →
    opField w = some f → halfDown t (f / 80) = false → (partsOn t ((List.range 36).map (fun k => 36 * f + k))).isEmpty = true →
    t.img.reserves.any (fun e => ((List.range 36).map (fun k => 36 * f + k)).contains e.2.sh) = false →
    exec (.fieldRetire fn ring) s = .next (verbDone (retireField t f 6 (fun _ => 5)) w 0)) ∧
  (∀ (fn : FnId) (ring : Fin 8) (s t : State) (v w : Verb) (sh : Nat), ownerReady s fn ring 0x96 v = true → t = started s v → w = begun v →
    opSheaf w = some sh → halfDown t (halfOfSheaf sh) = false → t.store.failed.any (fun e => e.1 == sh) = true → ownerOf t sh = none →
    t.img.reserves.any (fun e => e.2.sh == sh && e.2.adopter.isSome) = false →
    exec (.sheafRetest fn ring true) s = .next (verbDone (recordSheaf .fenced (setStore t { t.store with
      failed := t.store.failed.filter (fun e => e.1 != sh), badRes := setDel t.store.badRes sh }) sh) w 0)) ∧
  (∀ (fn : FnId) (ring : Fin 8) (ok : Bool) (s t : State) (v w : Verb), ownerReady s fn ring 0x97 v = true → t = started s v → w = begun v →
    exec (.defectMapRead fn ring ok) s = .next (verbResult t w ((List.range 80).flatMap (fun k => mapRecord t (80 * bits w.op0 0 0 + k))) ok)) ∧
  (∀ (fn : FnId) (ring : Fin 8) (ok : Bool) (s t : State) (v w : Verb) (es : List EventRec), ownerReady s fn ring 0x98 v = true → t = started s v → w = begun v →
    es = (t.log.drop (bits w.op0 31 0)).take (bits w.op0 47 32) →
    exec (.faultLogRead fn ring ok) s = .next (verbResult t w (es.flatMap (fun e => evRows e false)) ok 0 es.length))

/-- Kindling, power-on, trips and the Dampers (R665, R703, R718, R719, R723, R738, R739, R740, R741, R743, R746). A kindling starts, tests a
wave and goes on while fields are left, ends its waves and finishes; the module reset is asked for and begins; a first feed starts the
module; a trip that cooled is released; heartbeats, takeovers, DAMPER_SWITCH, the loss of both Dampers; an input changes, chatters,
takes effect at its new level (FENCE_ALL, a PERST, THERM_IN) when it holds it, stops chattering, is stuck; the binder's scrub. -/
def Obligations.KindlingAndDampers : Prop :=
  (∀ (h : HalfId) (s s1 : State), mayKindle s h = true → mapFind s.flt.kindling h = none →
    s1 = setFlt s { s.flt with kindling := mapInsert s.flt.kindling h { began := s.time } } →
    exec (.kindlingStart h) s = .next ((List.range 8).foldl (fun s b => binFill s (8 * h + b))
      { s1 with halves := mapMod {} s1.halves h (fun x => { x with lost := false }) })) ∧
  (∀ (h : HalfId) (a b : FieldTest) (s : State) (k : Kindling), mapFind s.flt.kindling h = some k → k.ended = false → candidates2 s h k = [] →
    exec (.kindlingWave h a b) s = .next (setFlt s { s.flt with kindling := s.flt.kindling.map (fun e => if e.1 = h.val then (e.1, { e.2 with ended := true }) else e) })) ∧
  (∀ (h : HalfId) (a b : FieldTest) (s s1 s2 : State) (k k2 : Kindling) (fs : List Nat), mapFind s.flt.kindling h = some k → k.ended = false →
    fs = candidates2 s h k → fs ≠ [] → s1 = (fs.zip [a, b]).foldl (takeTest h (min 63 (k.waves + 1))) s →
    s2 = setFlt s1 { s1.flt with kindling := s1.flt.kindling.map (fun e => if e.1 = h.val then (e.1, { e.2 with waves := min 63 (k.waves + 1) }) else e) } →
    mapFind s2.flt.kindling h = some k2 → candidates2 s2 h k2 ≠ [] → exec (.kindlingWave h a b) s = .next s2) ∧
  (∀ (h : HalfId) (s s1 s2 s3 s4 : State) (k : Kindling) (ms : Nat), mapFind s.flt.kindling h = some k → k.ended = true →
    (List.range 8).all (fun b => regBit s (rBin (8 * h.val + b) 4) 5 || regBit s (rBin (8 * h.val + b) 4) 7) = true →
    s1 = ((List.range 80).map (fun j => 80 * h.val + j)).foldl (storeField k) s →
    s2 = { s1 with
      spares := ((List.range 80).map (fun j => 80 * h.val + j)).foldl (fun m f => mapSet [] m f (fieldRec s1 f).rows) s1.spares
      halves := mapMod {} s1.halves h (fun x => { x with kindled := true, inReset := false }) } →
    s3 = setFlt (keysLoad s2 h) { s2.flt with kindling := mapErase s2.flt.kindling h } → ms = min 0xFFFF ((s.time - k.began) / 1000000) →
    s4 = setRegF (setRegF (setReg s3 (rHalf h 0x18 4) (word ms))
      (rHalf h 0x18 0) 31 28 2) (rHalf h 0x18 0) 27 22 k.waves →
    exec (.kindlingDone h) s = .next (raise s4 .kindlingDone none 1 (halfUnit h)
      [(1, h.val), (16, 80 - retiredOf s4 h), (16, retiredOf s4 h), (6, k.waves), (16, ms)])) ∧
  (∀ (fn : FnId) (ring : Fin 8) (s t : State) (v w : Verb), ownerReady s fn ring 0x93 v = true → t = started s v → w = begun v →
    exec (.resetModule fn ring) s = .next (verbDone (setFlt t { t.flt with moduleDue := true }) w 0)) ∧
  (∀ (s : State), s.flt.moduleDue = true → exec .moduleResetBegin s = .next (moduleReset s 2)) ∧
  (∀ (feed : Fin 2) (m : PowerMeter) (s s1 : State), s.pwr.bus = false → s.pwr.lostRec = [] →
    s1 = setFlt (setPwr s { s.pwr with use := s.pwr.use.set! feed.val true, bus := true, holdup := false, bleed := false, meter := m, lostRec := [] })
      { s.flt with damper := { s.flt.damper with lost := false, missed := 0 } } →
    exec (.powerOn feed m) s = .next (setThm (moduleReset s1 1) { trips := s.thm.trips, flow := s.thm.flow, present := s.thm.present })) ∧
  (∀ (s s1 : State) (c : Nat) (t : Int), s.thm.trip = some (c, t) → s.thm.latched = true → s.thm.present = true →
    s.thm.chans.any (fun e => e.2.reading ≥ deg 55) = false → s1 = moduleReset s 3 →
    exec .tripRelease s = .next (raise (setThm s1 { s1.thm with
        latched := false, await := true, demand := 21500, chans := s.thm.chans.map (fun e => (e.1, { reading := e.2.reading })) })
      .thermalTrip none 0 0 [(8, c), (16, int16 t), (64, s.time)])) ∧
  (∀ (came : Bool) (s : State), s.flt.damper.standby = true → s.flt.damper.lost = false →
    exec (.damperHeartbeat came) s = .next (setDamper s { s.flt.damper with missed := if came then 0 else min (s.flt.damper.missed + 1) 10 })) ∧
  (∀ (fault : Bool) (s : State), s.flt.damper.standby = true → s.flt.damper.lost = false → (fault = true ∨ 10 ≤ s.flt.damper.missed) →
    exec (.damperTakeover fault) s = .next (takeover s (if fault then 2 else 1) none)) ∧
  (∀ (fn : FnId) (ring : Fin 8) (s t : State) (v w : Verb), ownerReady s fn ring 0x99 v = true → t = started s v → w = begun v →
    t.flt.damper.standby = true → exec (.damperSwitch fn ring) s = .next
      (verbDone (takeover t 3 (some w.id)) w 0 (bnat (takeover t 3 (some w.id)).flt.damper.db))) ∧
  (∀ (s s1 : State), s1 = [0, 1].foldl (fun s h => (openPorts s h).foldl (fun s g => setFence s g true) s) s →
    exec .bothDampersLost s = .next (setThm (setDamper s1 { s1.flt.damper with standby := false, lost := true }) { s1.thm with demand := 3500 })) ∧
  (∀ (i : Fin 4) (level : Bool) (changes : Nat) (s : State) (x : SideIn), x = mapGet {} s.flt.inputs i.val → x.raw ≠ level → changes ≤ 16 →
    exec (.sidebandInputChange i level changes false) s = .next
      (incRegF (setFlt s { s.flt with inputs := mapSet {} s.flt.inputs i.val { x with raw := level } }) (rFlt 0xC i) 15 0)) ∧
  (∀ (i : Fin 4) (level : Bool) (changes : Nat) (s s1 : State) (x : SideIn), x = mapGet {} s.flt.inputs i.val → x.raw ≠ level → x.chatter = false →
    16 < changes →
    s1 = incRegF (setFlt s { s.flt with inputs := mapSet {} s.flt.inputs i.val { x with raw := level } }) (rFlt 0xC i) 15 0 →
    exec (.sidebandInputChange i level changes false) s = .next (takeForce (raise (orReg (setFlt s1 { s1.flt with
      inputs := mapSet {} s1.flt.inputs i.val { x with raw := level, chatter := true } }) (rFlt 4) 2) .chatter none 0 0
      [(2, i.val), (16, changes)]) i true)) ∧
  (∀ (i : Fin 4) (level : Bool) (changes : Nat) (s s1 : State) (x : SideIn), x = mapGet {} s.flt.inputs i.val → x.raw = level → x.chatter = false →
    x.inForce ≠ level →
    s1 = setFlt s { s.flt with inputs := mapSet {} s.flt.inputs i.val { x with inForce := level, stuck := x.stuck && level } } →
    (i.val = 0 → level = true → exec (.sidebandInputChange i level changes true) s = .next (fenceAssert s1)) ∧
    (∀ (port : HostPort) (t : State), i.val = port.val + 1 → level = true → exec (.hostPortDown port true) s1 = .next t →
      exec (.sidebandInputChange i level changes true) s = .next t) ∧
    (i.val = 3 → level = true → exec (.sidebandInputChange i level changes true) s = .next (sayThermIn s1)) ∧
    (∀ port : HostPort, i.val = port.val + 1 → level = false →
      exec (.sidebandInputChange i level changes true) s = .next (setRegF s1 (rPortSt port) 30 30 0)) ∧
    (i.val = 0 ∨ i.val = 3 → level = false → exec (.sidebandInputChange i level changes true) s = .next s1)) ∧
  (∀ (i : Fin 4) (s : State) (x : SideIn), x = mapGet {} s.flt.inputs i.val → x.chatter = true → x.raw = false →
    exec (.chatterEnd i) s = .next (takeForce (setFlt s { s.flt with inputs := mapSet {} s.flt.inputs i.val { x with chatter := false } }) i false)) ∧
  (∀ (i : Fin 4) (s : State) (x : SideIn), x = mapGet {} s.flt.inputs i.val → x.inForce = true → x.stuck = false →
    exec (.stuck i) s = .next (raise (orReg (setFlt s { s.flt with inputs := mapSet {} s.flt.inputs i.val { x with stuck := true } }) (rFlt 4) 1)
      .stuck none 0 0 [(2, i.val)])) ∧
  (∀ (sh : SheafId) (lo hi : Ecc) (s : State) (r : Nat), regF s (rFlt 0x14) 15 0 ≠ 0 → r = (sheaf s sh).scrubRow →
    exec (.binderScrubRead sh lo hi) s = .next (bmemChecks [(2 * r, lo), (2 * r + 1, hi)] 0 sh (16 * r) 16
      (setSheaf s sh { sheaf s sh with scrubRow := (r + 1) % 16384 })))

/-! ### Beats and the idle cycle -/

/-- The beat boundary, and the idle cycle (R31, R124, R634, R635). The beat boundary is the model's operations in their order. A step with no
command waiting is one cycle of FCLK: the cycle counter moves by one and cadence time by one nanosecond, but in one cycle of 11 and at
the next boundary; where nothing waits it changes nothing else, and a grain that waits or is held back counts a stalled cycle. That an idle step is a cycle and that boundaries are commands is the model's choice (log 51). -/
def Obligations.BeatsAndCycles : Prop :=
  (∀ (s s1 : State), s1 = { cadBoundary s with onceBeat := [] } → exec .beatBoundary s = .next
    (thermalBeat (emberBeat (calCommit (rolesBeat (damperBeat (postBeat (servingBeat (unitsBeat (beatwBeat s1))))))))) ) ∧
  (∀ (s : State), s.pending = [] → step s = .next (tick s)) ∧
  (∀ (s : State), (tick s).cycle = s.cycle + 1 ∧
    (tick s).time = (if s.cycle % 11 = 10 ∨ s.cad.next ≤ s.time then s.time else s.time + 1)) ∧
  (∀ (s : State), (∀ e ∈ s.grains, waiting e.2.core = false ∧ issueBlocked s (ug e.1) = false ∧ e.2.arriving = [] ∧ e.2.wb = [] ∧ e.2.mxuQ = []) →
    (∀ e ∈ s.sheaves, e.2.wnw.jobs = []) → s.flueWait = [] →
    tick s = { s with cycle := s.cycle + 1, time := if s.cycle % 11 = 10 ∨ s.cad.next ≤ s.time then s.time else s.time + 1 }) ∧
  (∀ (s : State) (g : GrainId) (x : Grain), s.grains = [(g.val, x)] → (waiting x.core = true ∨ issueBlocked s (.grain g) = true) → x.arriving = [] →
    x.wb = [] → x.mxuQ = [] → s.sheaves = [] → s.flueWait = [] →
    tick s = { incReg s (rGrain g 1 0x030) with
      cycle := s.cycle + 1, time := if s.cycle % 11 = 10 ∨ s.cad.next ≤ s.time then s.time else s.time + 1 })

/-! ### Hard-wired registers, frames and memory -/

/-- R59: s0 reads as zero, p0 as one, and writes to them are discarded (R59). s0 of any unit reads as zero and p0 as one; a write to either
changes nothing, so that ADD, LI or PAND with destination 0 only moves on. -/
def Obligations.R59HardwiredRegisters : Prop :=
  (∀ c : Core, sGet c 0 = 0 ∧ pGet c 0 = true) ∧
  (∀ (c : Core) (v : Word), sSet c 0 v = c) ∧ (∀ (c : Core) (b : Bool), pSet c 0 b = c) ∧
  (∀ (u : Issuer) (s : State) (i : Ins), issues .add u s i = true → i.rd = 0 → exec (.add u) s = .next (next1 (issued u s) u)) ∧
  (∀ (u : Issuer) (s : State) (i : Ins), issues .li u s i = true → i.rd = 0 → exec (.li u) s = .next (next1 (issued u s) u)) ∧
  (∀ (u : Issuer) (s : State) (i : Ins), issues .pand u s i = true → i.rd = 0 → exec (.pand u) s = .next (next1 (issued u s) u))

/-- Frame of the scalar and predicate instructions (R77, R79, R80, R124, R783, R785). When one of them issues and answers a next state:
every register of every unit but the destination, every predicate but the destination, every byte of the scratchpads and binder
memories, every special register but the grain's issue counter, and everything outside the units are as before; of the issuing unit only
the destination, the loop levels, the program counter and the address last issued may change. -/
def Obligations.ScalarFrame : Prop :=
  let unit := fun (u : Issuer) (s t : State) =>
    restKept s t ∧ bytesKept s t ∧ regsKept u s t ∧ (∀ w, w ≠ u → core t w = core s w) ∧
    (∀ g : Nat, { grain t g with core := (grain s g).core } = grain s g) ∧ (∀ h : Nat, { sheaf t h with core := (sheaf s h).core } = sheaf s h) ∧
    { core t u with s := (core s u).s, p := (core s u).p, loops := (core s u).loops, pc := (core s u).pc, lastPc := (core s u).lastPc } = core s u
  let frameS := fun (op : Op) (mk : Issuer → Instr) =>
    ∀ (u : Issuer) (s t : State) (i : Ins), issues op u s i = true → exec (mk u) s = .next t →
      unit u s t ∧ (∀ k, k ≠ i.rd → sGet (core t u) k = sGet (core s u) k) ∧ (∀ k, pGet (core t u) k = pGet (core s u) k)
  let frameP := fun (op : Op) (mk : Issuer → Instr) =>
    ∀ (u : Issuer) (s t : State) (i : Ins), issues op u s i = true → exec (mk u) s = .next t →
      unit u s t ∧ (∀ k, k ≠ i.rd → pGet (core t u) k = pGet (core s u) k) ∧ (∀ k, sGet (core t u) k = sGet (core s u) k)
  (frameS .add .add ∧ frameS .sub .sub ∧ frameS .andd .andd ∧ frameS .orr .orr ∧ frameS .xor .xor ∧ frameS .sll .sll ∧ frameS .srl .srl ∧
    frameS .sra .sra ∧ frameS .slt .slt ∧ frameS .sltu .sltu ∧ frameS .minS .minS ∧ frameS .maxS .maxS ∧ frameS .mul .mul ∧
    frameS .mulh .mulh ∧ frameS .clz .clz ∧ frameS .popc .popc) ∧
  (frameS .addi .addi ∧ frameS .andi .andi ∧ frameS .ori .ori ∧ frameS .xori .xori ∧ frameS .shi .shi ∧ frameS .li .li ∧ frameS .lih .lih ∧
    frameS .p2s .p2s ∧ frameS .rdcyc .rdcyc ∧ frameS .rdid .rdid) ∧
  (frameP .pand .pand ∧ frameP .por .por ∧ frameP .pxor .pxor ∧ frameP .pandn .pandn ∧ frameP .s2p .s2p)

/-- Frame of the lane-wise vector instructions (R77, R124, R164, R786). When one of them issues in a grain and answers a next state: every
other vector register, every scalar and predicate register, accumulator, tally and window of the grain, every other unit, every byte of
memory, every special register but the grain's issue counter, and everything outside the units are as before. -/
def Obligations.VectorFrame : Prop :=
  let frame := fun (op : Op) (mk : Issuer → Instr) =>
    ∀ (g : GrainId) (s t : State) (i : Ins), issues op (.grain g) s i = true → exec (mk (.grain g)) s = .next t →
      restKept s t ∧ bytesKept s t ∧ regsKept (.grain g) s t ∧ (∀ h : Nat, h ≠ g.val → grain t h = grain s h) ∧
      (∀ h : Nat, sheaf t h = sheaf s h) ∧ (∀ k, k ≠ i.rd → (grain t g).v.getD k 0 = (grain s g).v.getD k 0) ∧
      (∀ k, sGet (core t (.grain g)) k = sGet (core s (.grain g)) k) ∧ (∀ k, pGet (core t (.grain g)) k = pGet (core s (.grain g)) k) ∧
      { grain t g with v := (grain s g).v, core := (grain s g).core } = grain s g
  (frame .vadd .vadd ∧ frame .vsub .vsub ∧ frame .vmul .vmul ∧ frame .vmin .vmin ∧ frame .vmax .vmax ∧ frame .vabs .vabs ∧ frame .vneg .vneg) ∧
  (frame .vand .vand ∧ frame .vor .vor ∧ frame .vxor .vxor ∧ frame .vshl .vshl ∧ frame .vshr .vshr ∧ frame .vsar .vsar) ∧
  (frame .vexp2 .vexp2 ∧ frame .vlog2 .vlog2 ∧ frame .vrcp .vrcp ∧ frame .vrsqrt .vrsqrt)

/-- Frame of the stores: every byte outside the stored bytes is unchanged (R77, R78, R112, R783). When SW, SH, SB or VST issues with its
stored bytes in its memory and answers a next state: every byte outside the bytes at the address the instruction computes reads as
before, in every scratchpad and binder memory; so do the scalar, predicate and vector registers, accumulators, tallies and windows, the
special registers but the grain's issue counter, and everything outside the units. -/
def Obligations.StoreFrame : Prop :=
  let kept := fun (u : Issuer) (s t : State) =>
    restKept s t ∧ regsKept u s t ∧ (∀ w, w ≠ u → core t w = core s w) ∧
    (∀ k, sGet (core t u) k = sGet (core s u) k) ∧ (∀ k, pGet (core t u) k = pGet (core s u) k) ∧
    (∀ g : Nat, (grain t g).v = (grain s g).v ∧ (grain t g).acc = (grain s g).acc ∧ (grain t g).tc = (grain s g).tc ∧ (grain t g).cw = (grain s g).cw)
  let store := fun (op : Op) (mk : Issuer → Instr) (n : Nat) =>
    (∀ (g : GrainId) (s t : State) (i : Ins) (a : Nat), issues op (.grain g) s i = true → exec (mk (.grain g)) s = .next t →
      a = scalarAddr (.grain g) (core s (.grain g)) i n → a < spdSize →
      kept (.grain g) s t ∧ (∀ h x : Nat, (h ≠ g.val ∨ x < a ∨ a + n ≤ x) → memRead (grain t h).mem x = memRead (grain s h).mem x) ∧
        (∀ h : Nat, sheaf t h = sheaf s h)) ∧
    (∀ (b : SheafId) (s t : State) (i : Ins) (a : Nat), issues op (.binder b) s i = true → exec (mk (.binder b)) s = .next t →
      a = scalarAddr (.binder b) (core s (.binder b)) i n →
      kept (.binder b) s t ∧ (∀ h x : Nat, (h ≠ b.val ∨ x < a ∨ a + n ≤ x) → memRead (sheaf t h).bmem x = memRead (sheaf s h).bmem x) ∧
        (∀ h : Nat, grain t h = grain s h))
  store .sw .sw 4 ∧ store .sh .sh 2 ∧ store .sb .sb 1 ∧
  (∀ (g : GrainId) (s t : State) (i : Ins) (offs : List Nat), issues .vst (.grain g) s i = true → exec (.vst (.grain g)) s = .next t →
    offs = fourRows (vecAddr (core s (.grain g)) i) → firstBad offs = none →
    kept (.grain g) s t ∧ (∀ h x : Nat, (h ≠ g.val ∨ ∀ a ∈ offs, x < a ∨ a + 16 ≤ x) → memRead (grain t h).mem x = memRead (grain s h).mem x) ∧
      (∀ h : Nat, sheaf t h = sheaf s h))

/-- Stores keep the memories' canonical form (R42, R78, R112, R226). From every state whose scratchpads and binder memories are in canonical
form, SW, SH, SB, VST and VSTS, whatever they do (store, fault, wait, or nothing), answer a state whose scratchpads and binder memories
are. The form is the model's (log 3). -/
def Obligations.MemoriesStayCanonical : Prop :=
  let keeps := fun (mk : Issuer → Instr) => ∀ (u : Issuer) (s t : State), memsWf s → exec (mk u) s = .next t → memsWf t
  keeps .sw ∧ keeps .sh ∧ keeps .sb ∧ keeps .vst ∧ keeps .vsts

/-! ### Encodings and reset -/

/-- Instruction decoding and encoding are inverse to each other (R60, R75, R76, R77, R90, R192). For a grain and for a binder: every
instruction that its unit may issue, with every operand its fields admit, is what its encoded words decode to; and an instruction that
two words decode to may be issued there, encodes to that first word, and in a long form holds that second word. -/
def Obligations.InstructionEncoding : Prop :=
  (∀ (binder : Bool) (i : Ins), insOk binder i = true → decodeIns binder (encode0 i) i.w1 = some i) ∧
  (∀ (binder : Bool) (n0 n1 : Nat) (i : Ins), n0 < 2 ^ 32 → n1 < 2 ^ 32 → decodeIns binder n0 n1 = some i →
    insOk binder i = true ∧ encode0 i = n0 ∧ (isLong n0 = true → i.w1 = n1))

/-- The state after a module reset (R20, R634, R635). At State.reset no command waits, every register reads its reset value, the beat number
and the time are 0, the first boundary comes at 250 000 ns, no unit runs, no packet is under way and no verb waits, and the memories are
in canonical form. The empty queue and the empty memories are the model's choice (logs 1 and 3). -/
def Obligations.ResetState : Prop :=
  State.reset.pending = [] ∧ (∀ l : RegLoc, reg State.reset l = regReset l) ∧
  State.reset.beat = 0 ∧ State.reset.time = 0 ∧ State.reset.cad.next = 250000 ∧
  (∀ u : Issuer, (core State.reset u).state = .halted) ∧ State.reset.mesh = [] ∧ State.reset.host.verbs = [] ∧ memsWf State.reset
end

