-- ==== Sys2Proof/Laws/Maps.lean ====
section
/-!
SUPPORT. Laws of sparse maps: read after write, and the canonical form.
-/
namespace Sys2Proof.Machine

variable {α : Type}

@[simp] theorem mapGet_nil (d : α) (k : Nat) : mapGet d [] k = d := rfl

theorem mapGet_eq_find (d : α) (m : SMap α) (k : Nat) : mapGet d m k = (mapFind m k).getD d := by
  induction m with
  | nil => rfl
  | cons e r ih =>
    obtain ⟨j, v⟩ := e
    by_cases h : j = k <;> simp [mapGet, mapFind, h, ih]

@[simp] theorem mapFind_erase_same (m : SMap α) (k : Nat) : mapFind (mapErase m k) k = none := by
  induction m with
  | nil => rfl
  | cons e r ih =>
    obtain ⟨j, v⟩ := e
    by_cases h : j = k <;> simp [mapErase, mapFind, h, ih]

theorem mapFind_erase_other (m : SMap α) {k j : Nat} (h : j ≠ k) : mapFind (mapErase m k) j = mapFind m j := by
  induction m with
  | nil => rfl
  | cons e r ih =>
    obtain ⟨i, v⟩ := e
    by_cases hi : i = k
    · have hk : k ≠ j := fun q => h q.symm
      simp [mapErase, mapFind, hi, ih, hk]
    · by_cases hj : i = j
      · subst hj
        simp [mapErase, mapFind, h]
      · simp [mapErase, mapFind, hi, hj, ih]

@[simp] theorem mapFind_insert_same (m : SMap α) (k : Nat) (v : α) : mapFind (mapInsert m k v) k = some v := by
  induction m with
  | nil => simp [mapInsert, mapFind]
  | cons e r ih =>
    obtain ⟨j, w⟩ := e
    by_cases h : k < j
    · simp [mapInsert, mapFind, h]
    · by_cases hj : j = k <;> simp [mapInsert, mapFind, h, hj, ih]

theorem mapFind_insert_other (m : SMap α) {k j : Nat} (v : α) (h : j ≠ k) : mapFind (mapInsert m k v) j = mapFind m j := by
  have hk : k ≠ j := fun q => h q.symm
  induction m with
  | nil => simp [mapInsert, mapFind, hk]
  | cons e r ih =>
    obtain ⟨i, w⟩ := e
    by_cases hl : k < i
    · simp [mapInsert, mapFind, hl, hk]
    · by_cases hi : i = k
      · simp [mapInsert, mapFind, hi, hk]
      · by_cases hj : i = j
        · subst hj
          simp [mapInsert, mapFind, hl, h]
        · simp [mapInsert, mapFind, hl, hi, hj, ih]

/-- Read after write, at the key written. -/
@[simp] theorem mapGet_set_same [DecidableEq α] (d : α) (m : SMap α) (k : Nat) (v : α) : mapGet d (mapSet d m k v) k = v := by
  rw [mapGet_eq_find]
  by_cases h : v = d <;> simp [mapSet, h]

/-- Read after write, at another key. -/
theorem mapGet_set_other [DecidableEq α] (d : α) (m : SMap α) {k j : Nat} (v : α) (h : j ≠ k) :
    mapGet d (mapSet d m k v) j = mapGet d m j := by
  rw [mapGet_eq_find, mapGet_eq_find]
  by_cases hv : v = d
  · simp [mapSet, hv, mapFind_erase_other m h]
  · simp [mapSet, hv, mapFind_insert_other m v h]

/-- A write where the default of the key read differs from that of the key written changes no other key. -/
theorem mapGet_set_other' [DecidableEq α] (d e : α) (m : SMap α) {k j : Nat} (v : α) (h : j ≠ k) :
    mapGet e (mapSet d m k v) j = mapGet e m j := by
  rw [mapGet_eq_find, mapGet_eq_find]
  by_cases hv : v = d
  · simp [mapSet, hv, mapFind_erase_other m h]
  · simp [mapSet, hv, mapFind_insert_other m v h]

theorem keysAbove_mono {a b : Nat} (h : a ≤ b) {l : List Nat} (hl : keysAbove b l = true) : keysAbove a l = true := by
  cases l with
  | nil => rfl
  | cons k r =>
    simp only [keysAbove, Bool.and_eq_true, decide_eq_true_eq] at hl ⊢
    exact ⟨by omega, hl.2⟩

theorem keysAbove_erase {a : Nat} {m : SMap α} (k : Nat) (h : keysAbove a (m.map Prod.fst) = true) :
    keysAbove a ((mapErase m k).map Prod.fst) = true := by
  induction m generalizing a with
  | nil => rfl
  | cons e r ih =>
    obtain ⟨j, v⟩ := e
    simp only [List.map_cons, keysAbove, Bool.and_eq_true, decide_eq_true_eq] at h
    by_cases hj : j = k
    · simpa [mapErase, hj] using keysAbove_mono (Nat.le_of_lt h.1) (ih h.2)
    · simp [mapErase, hj, keysAbove, h.1, ih h.2]

theorem keysAbove_insert {a : Nat} {m : SMap α} {k : Nat} (v : α) (ha : a < k) (h : keysAbove a (m.map Prod.fst) = true) :
    keysAbove a ((mapInsert m k v).map Prod.fst) = true := by
  induction m generalizing a with
  | nil => simp [mapInsert, keysAbove, ha]
  | cons e r ih =>
    obtain ⟨j, w⟩ := e
    simp only [List.map_cons, keysAbove, Bool.and_eq_true, decide_eq_true_eq] at h
    by_cases hl : k < j
    · simp [mapInsert, hl, keysAbove, ha, h.2]
    · by_cases hj : j = k
      · subst hj
        simp [mapInsert, keysAbove, ha, h.2]
      · have hk : j < k := by omega
        simp [mapInsert, hl, hj, keysAbove, h.1, ih hk h.2]

theorem keysRise_erase {m : SMap α} (k : Nat) (h : keysRise (m.map Prod.fst) = true) :
    keysRise ((mapErase m k).map Prod.fst) = true := by
  cases m with
  | nil => rfl
  | cons e r =>
    obtain ⟨j, v⟩ := e
    simp only [List.map_cons, keysRise] at h
    by_cases hj : j = k
    · simp only [mapErase, hj, if_true]
      have := keysAbove_erase (m := r) k (hj ▸ h)
      cases hr : (mapErase r k).map Prod.fst with
      | nil => rfl
      | cons x y =>
        rw [hr] at this
        simp only [keysAbove, Bool.and_eq_true] at this
        exact this.2
    · simpa [mapErase, hj, keysRise] using keysAbove_erase k h

theorem keysRise_insert {m : SMap α} (k : Nat) (v : α) (h : keysRise (m.map Prod.fst) = true) :
    keysRise ((mapInsert m k v).map Prod.fst) = true := by
  cases m with
  | nil => simp [mapInsert, keysRise, keysAbove]
  | cons e r =>
    obtain ⟨j, w⟩ := e
    simp only [List.map_cons, keysRise] at h
    by_cases hl : k < j
    · simp [mapInsert, hl, keysRise, keysAbove, h]
    · by_cases hj : j = k
      · subst hj
        simpa [mapInsert, keysRise] using h
      · have hk : j < k := by omega
        simpa [mapInsert, hl, hj, keysRise] using keysAbove_insert v hk h

theorem all_erase {m : SMap α} (p : Nat × α → Bool) (k : Nat) (h : m.all p = true) : (mapErase m k).all p = true := by
  induction m with
  | nil => rfl
  | cons e r ih =>
    obtain ⟨j, v⟩ := e
    simp only [List.all_cons, Bool.and_eq_true] at h
    by_cases hj : j = k
    · simpa [mapErase, hj] using ih h.2
    · simp only [mapErase, hj, if_false, List.all_cons, Bool.and_eq_true]
      exact ⟨h.1, ih h.2⟩

theorem all_insert {m : SMap α} (p : Nat × α → Bool) (k : Nat) (v : α) (hv : p (k, v) = true) (h : m.all p = true) :
    (mapInsert m k v).all p = true := by
  induction m with
  | nil => simp [mapInsert, hv]
  | cons e r ih =>
    obtain ⟨j, w⟩ := e
    simp only [List.all_cons, Bool.and_eq_true] at h
    simp only [mapInsert]
    split
    · simp only [List.all_cons, Bool.and_eq_true]; exact ⟨hv, h.1, h.2⟩
    · split
      · simp only [List.all_cons, Bool.and_eq_true]; exact ⟨hv, h.2⟩
      · simp only [List.all_cons, Bool.and_eq_true]; exact ⟨h.1, ih h.2⟩

/-- A write keeps a map's canonical form. -/
theorem mapWf_set [DecidableEq α] (d : α) (m : SMap α) (k : Nat) (v : α) (h : mapWf d m = true) : mapWf d (mapSet d m k v) = true := by
  simp only [mapWf, Bool.and_eq_true] at h ⊢
  by_cases hv : v = d
  · simp only [mapSet, hv, if_true]
    exact ⟨keysRise_erase k h.1, all_erase _ k h.2⟩
  · simp only [mapSet, hv, if_false]
    exact ⟨keysRise_insert k v h.1, all_insert _ k v (by simp [hv]) h.2⟩

end Sys2Proof.Machine
end

