-- ==== Sys2Proof/Laws/Mem.lean ====
section
/-!
SUPPORT. Laws of byte memories: read after write, and the canonical form.
-/
namespace Sys2Proof.Machine

@[simp] theorem memWrite_base (m : Mem) (a : Nat) (b : Byte) : (memWrite m a b).base = m.base := by
  unfold memWrite
  split <;> rfl

@[simp] theorem memUnlisted_write (m : Mem) (a : Nat) (b : Byte) : memUnlisted (memWrite m a b) = memUnlisted m := by
  funext x
  simp [memUnlisted]

/-- Read after write, at the byte written. -/
@[simp] theorem memRead_write_same (m : Mem) (a : Nat) (b : Byte) : memRead (memWrite m a b) a = b := by
  unfold memRead
  rw [memUnlisted_write]
  unfold memWrite
  by_cases h : b = memUnlisted m a <;> simp [h]

/-- Read after write, at another byte. -/
theorem memRead_write_other (m : Mem) {a x : Nat} (b : Byte) (h : x ≠ a) : memRead (memWrite m a b) x = memRead m x := by
  unfold memRead
  rw [memUnlisted_write]
  unfold memWrite
  by_cases hb : b = memUnlisted m a
  · simp [hb, mapFind_erase_other m.cells h]
  · simp [hb, mapFind_insert_other m.cells b h]

/-- A write of n bytes changes no byte outside them. -/
theorem memRead_put_other (m : Mem) (a v n : Nat) {x : Nat} (h : x < a ∨ a + n ≤ x) : memRead (memPut m a v n) x = memRead m x := by
  induction n generalizing m a v with
  | zero => rfl
  | succ n ih =>
    rw [memPut, ih _ _ _ (by omega), memRead_write_other _ _ (by omega)]

/-- A write keeps a memory's canonical form. -/
theorem memWf_write (m : Mem) (a : Nat) (b : Byte) (h : memWf m = true) : memWf (memWrite m a b) = true := by
  simp only [memWf, memUnlisted_write, Bool.and_eq_true] at h ⊢
  unfold memWrite
  by_cases hb : b = memUnlisted m a
  · simp only [hb, if_true]
    exact ⟨keysRise_erase a h.1, all_erase _ a h.2⟩
  · simp only [hb, if_false]
    exact ⟨keysRise_insert a b h.1, all_insert _ a b (by simp [hb]) h.2⟩

/-- A write of n bytes keeps a memory's canonical form. -/
theorem memWf_put (m : Mem) (a v n : Nat) (h : memWf m = true) : memWf (memPut m a v n) = true := by
  induction n generalizing m a v with
  | zero => exact h
  | succ n ih => exact ih _ _ _ (memWf_write m a _ h)

/-- A row written keeps a memory's canonical form. -/
theorem memWf_putRow (m : Mem) (a : Nat) (r : BitVec 128) (h : memWf m = true) : memWf (memPutRow m a r) = true :=
  memWf_put m a _ _ h

/-- Contents that become unpredictable are in canonical form. -/
@[simp] theorem memWf_lose (n : Nat) : memWf (memLose n) = true := rfl

@[simp] theorem memWf_empty : memWf {} = true := rfl

/-- A memory made of bytes is in canonical form. -/
theorem memWf_ofBytes (a : Nat) (l : List Byte) : memWf (memOfBytes a l) = true := by
  induction l generalizing a with
  | nil => rfl
  | cons b r ih => exact memWf_write _ _ _ (ih _)

/-- The n bytes written read back as the low bytes of the number. -/
theorem memGet_put_same (m : Mem) (a v n : Nat) : memGet (memPut m a v n) a n = v % 256 ^ n := by
  induction n generalizing m a v with
  | zero => simp [memGet, Nat.mod_one]
  | succ n ih =>
    rw [memGet, memPut, ih, memRead_put_other _ _ _ _ (Or.inl (Nat.lt_succ_self a)), memRead_write_same]
    have h : (BitVec.ofNat 8 v).toNat = v % 256 := by simp
    rw [h, Nat.pow_succ, Nat.mul_comm (256 ^ n) 256, Nat.mod_mul]

end Sys2Proof.Machine
end

