-- ==== Sys2Proof/Laws/State.lean ====
section
/-!
SUPPORT. What each named update of the state leaves of every other field: one lemma per field per update (generated from the
list of fields), so that no proof unfolds a record update.
-/
namespace Sys2Proof.Machine

@[simp] theorem setReg_pending (s : State) (l : RegLoc) (v : Word) : (setReg s l v).pending = s.pending := rfl
@[simp] theorem setReg_cycle (s : State) (l : RegLoc) (v : Word) : (setReg s l v).cycle = s.cycle := rfl
@[simp] theorem setReg_fresh (s : State) (l : RegLoc) (v : Word) : (setReg s l v).fresh = s.fresh := rfl
@[simp] theorem setReg_latches (s : State) (l : RegLoc) (v : Word) : (setReg s l v).latches = s.latches := rfl
@[simp] theorem setReg_regResp (s : State) (l : RegLoc) (v : Word) : (setReg s l v).regResp = s.regResp := rfl
@[simp] theorem setReg_grains (s : State) (l : RegLoc) (v : Word) : (setReg s l v).grains = s.grains := rfl
@[simp] theorem setReg_sheaves (s : State) (l : RegLoc) (v : Word) : (setReg s l v).sheaves = s.sheaves := rfl
@[simp] theorem setReg_ears (s : State) (l : RegLoc) (v : Word) : (setReg s l v).ears = s.ears := rfl
@[simp] theorem setReg_epochs (s : State) (l : RegLoc) (v : Word) : (setReg s l v).epochs = s.epochs := rfl
@[simp] theorem setReg_halves (s : State) (l : RegLoc) (v : Word) : (setReg s l v).halves = s.halves := rfl
@[simp] theorem setReg_spares (s : State) (l : RegLoc) (v : Word) : (setReg s l v).spares = s.spares := rfl
@[simp] theorem setReg_merges (s : State) (l : RegLoc) (v : Word) : (setReg s l v).merges = s.merges := rfl
@[simp] theorem setReg_flue (s : State) (l : RegLoc) (v : Word) : (setReg s l v).flue = s.flue := rfl
@[simp] theorem setReg_flueWait (s : State) (l : RegLoc) (v : Word) : (setReg s l v).flueWait = s.flueWait := rfl
@[simp] theorem setReg_flueNear (s : State) (l : RegLoc) (v : Word) : (setReg s l v).flueNear = s.flueNear := rfl
@[simp] theorem setReg_mesh (s : State) (l : RegLoc) (v : Word) : (setReg s l v).mesh = s.mesh := rfl
@[simp] theorem setReg_reqs (s : State) (l : RegLoc) (v : Word) : (setReg s l v).reqs = s.reqs := rfl
@[simp] theorem setReg_posts (s : State) (l : RegLoc) (v : Word) : (setReg s l v).posts = s.posts := rfl
@[simp] theorem setReg_notices (s : State) (l : RegLoc) (v : Word) : (setReg s l v).notices = s.notices := rfl
@[simp] theorem setReg_onceBeat (s : State) (l : RegLoc) (v : Word) : (setReg s l v).onceBeat = s.onceBeat := rfl
@[simp] theorem setReg_standbyWrites (s : State) (l : RegLoc) (v : Word) : (setReg s l v).standbyWrites = s.standbyWrites := rfl
@[simp] theorem setReg_evq (s : State) (l : RegLoc) (v : Word) : (setReg s l v).evq = s.evq := rfl
@[simp] theorem setReg_log (s : State) (l : RegLoc) (v : Word) : (setReg s l v).log = s.log := rfl
@[simp] theorem setReg_time (s : State) (l : RegLoc) (v : Word) : (setReg s l v).time = s.time := rfl
@[simp] theorem setReg_beat (s : State) (l : RegLoc) (v : Word) : (setReg s l v).beat = s.beat := rfl
@[simp] theorem setReg_sheafMap (s : State) (l : RegLoc) (v : Word) : (setReg s l v).sheafMap = s.sheafMap := rfl
@[simp] theorem setReg_bins (s : State) (l : RegLoc) (v : Word) : (setReg s l v).bins = s.bins := rfl
@[simp] theorem setReg_cribs (s : State) (l : RegLoc) (v : Word) : (setReg s l v).cribs = s.cribs := rfl
@[simp] theorem setReg_granary (s : State) (l : RegLoc) (v : Word) : (setReg s l v).granary = s.granary := rfl
@[simp] theorem setReg_host (s : State) (l : RegLoc) (v : Word) : (setReg s l v).host = s.host := rfl
@[simp] theorem setReg_links (s : State) (l : RegLoc) (v : Word) : (setReg s l v).links = s.links := rfl
@[simp] theorem setReg_cribTx (s : State) (l : RegLoc) (v : Word) : (setReg s l v).cribTx = s.cribTx := rfl
@[simp] theorem setReg_nextTag (s : State) (l : RegLoc) (v : Word) : (setReg s l v).nextTag = s.nextTag := rfl
@[simp] theorem setReg_sends (s : State) (l : RegLoc) (v : Word) : (setReg s l v).sends = s.sends := rfl
@[simp] theorem setReg_relays (s : State) (l : RegLoc) (v : Word) : (setReg s l v).relays = s.relays := rfl
@[simp] theorem setReg_recvs (s : State) (l : RegLoc) (v : Word) : (setReg s l v).recvs = s.recvs := rfl
@[simp] theorem setReg_rick (s : State) (l : RegLoc) (v : Word) : (setReg s l v).rick = s.rick := rfl
@[simp] theorem setReg_reseeds (s : State) (l : RegLoc) (v : Word) : (setReg s l v).reseeds = s.reseeds := rfl
@[simp] theorem setReg_hop (s : State) (l : RegLoc) (v : Word) : (setReg s l v).hop = s.hop := rfl
@[simp] theorem setReg_record (s : State) (l : RegLoc) (v : Word) : (setReg s l v).record = s.record := rfl
@[simp] theorem setReg_store (s : State) (l : RegLoc) (v : Word) : (setReg s l v).store = s.store := rfl
@[simp] theorem setReg_flt (s : State) (l : RegLoc) (v : Word) : (setReg s l v).flt = s.flt := rfl
@[simp] theorem setReg_img (s : State) (l : RegLoc) (v : Word) : (setReg s l v).img = s.img := rfl
@[simp] theorem setReg_cad (s : State) (l : RegLoc) (v : Word) : (setReg s l v).cad = s.cad := rfl
@[simp] theorem setReg_cal (s : State) (l : RegLoc) (v : Word) : (setReg s l v).cal = s.cal := rfl
@[simp] theorem setReg_pwr (s : State) (l : RegLoc) (v : Word) : (setReg s l v).pwr = s.pwr := rfl
@[simp] theorem setReg_thm (s : State) (l : RegLoc) (v : Word) : (setReg s l v).thm = s.thm := rfl

@[simp] theorem setRegF_pending (s : State) (l : RegLoc) (hi lo v : Nat) : (setRegF s l hi lo v).pending = s.pending := rfl
@[simp] theorem setRegF_cycle (s : State) (l : RegLoc) (hi lo v : Nat) : (setRegF s l hi lo v).cycle = s.cycle := rfl
@[simp] theorem setRegF_fresh (s : State) (l : RegLoc) (hi lo v : Nat) : (setRegF s l hi lo v).fresh = s.fresh := rfl
@[simp] theorem setRegF_latches (s : State) (l : RegLoc) (hi lo v : Nat) : (setRegF s l hi lo v).latches = s.latches := rfl
@[simp] theorem setRegF_regResp (s : State) (l : RegLoc) (hi lo v : Nat) : (setRegF s l hi lo v).regResp = s.regResp := rfl
@[simp] theorem setRegF_grains (s : State) (l : RegLoc) (hi lo v : Nat) : (setRegF s l hi lo v).grains = s.grains := rfl
@[simp] theorem setRegF_sheaves (s : State) (l : RegLoc) (hi lo v : Nat) : (setRegF s l hi lo v).sheaves = s.sheaves := rfl
@[simp] theorem setRegF_ears (s : State) (l : RegLoc) (hi lo v : Nat) : (setRegF s l hi lo v).ears = s.ears := rfl
@[simp] theorem setRegF_epochs (s : State) (l : RegLoc) (hi lo v : Nat) : (setRegF s l hi lo v).epochs = s.epochs := rfl
@[simp] theorem setRegF_halves (s : State) (l : RegLoc) (hi lo v : Nat) : (setRegF s l hi lo v).halves = s.halves := rfl
@[simp] theorem setRegF_spares (s : State) (l : RegLoc) (hi lo v : Nat) : (setRegF s l hi lo v).spares = s.spares := rfl
@[simp] theorem setRegF_merges (s : State) (l : RegLoc) (hi lo v : Nat) : (setRegF s l hi lo v).merges = s.merges := rfl
@[simp] theorem setRegF_flue (s : State) (l : RegLoc) (hi lo v : Nat) : (setRegF s l hi lo v).flue = s.flue := rfl
@[simp] theorem setRegF_flueWait (s : State) (l : RegLoc) (hi lo v : Nat) : (setRegF s l hi lo v).flueWait = s.flueWait := rfl
@[simp] theorem setRegF_flueNear (s : State) (l : RegLoc) (hi lo v : Nat) : (setRegF s l hi lo v).flueNear = s.flueNear := rfl
@[simp] theorem setRegF_mesh (s : State) (l : RegLoc) (hi lo v : Nat) : (setRegF s l hi lo v).mesh = s.mesh := rfl
@[simp] theorem setRegF_reqs (s : State) (l : RegLoc) (hi lo v : Nat) : (setRegF s l hi lo v).reqs = s.reqs := rfl
@[simp] theorem setRegF_posts (s : State) (l : RegLoc) (hi lo v : Nat) : (setRegF s l hi lo v).posts = s.posts := rfl
@[simp] theorem setRegF_notices (s : State) (l : RegLoc) (hi lo v : Nat) : (setRegF s l hi lo v).notices = s.notices := rfl
@[simp] theorem setRegF_onceBeat (s : State) (l : RegLoc) (hi lo v : Nat) : (setRegF s l hi lo v).onceBeat = s.onceBeat := rfl
@[simp] theorem setRegF_standbyWrites (s : State) (l : RegLoc) (hi lo v : Nat) : (setRegF s l hi lo v).standbyWrites = s.standbyWrites := rfl
@[simp] theorem setRegF_evq (s : State) (l : RegLoc) (hi lo v : Nat) : (setRegF s l hi lo v).evq = s.evq := rfl
@[simp] theorem setRegF_log (s : State) (l : RegLoc) (hi lo v : Nat) : (setRegF s l hi lo v).log = s.log := rfl
@[simp] theorem setRegF_time (s : State) (l : RegLoc) (hi lo v : Nat) : (setRegF s l hi lo v).time = s.time := rfl
@[simp] theorem setRegF_beat (s : State) (l : RegLoc) (hi lo v : Nat) : (setRegF s l hi lo v).beat = s.beat := rfl
@[simp] theorem setRegF_sheafMap (s : State) (l : RegLoc) (hi lo v : Nat) : (setRegF s l hi lo v).sheafMap = s.sheafMap := rfl
@[simp] theorem setRegF_bins (s : State) (l : RegLoc) (hi lo v : Nat) : (setRegF s l hi lo v).bins = s.bins := rfl
@[simp] theorem setRegF_cribs (s : State) (l : RegLoc) (hi lo v : Nat) : (setRegF s l hi lo v).cribs = s.cribs := rfl
@[simp] theorem setRegF_granary (s : State) (l : RegLoc) (hi lo v : Nat) : (setRegF s l hi lo v).granary = s.granary := rfl
@[simp] theorem setRegF_host (s : State) (l : RegLoc) (hi lo v : Nat) : (setRegF s l hi lo v).host = s.host := rfl
@[simp] theorem setRegF_links (s : State) (l : RegLoc) (hi lo v : Nat) : (setRegF s l hi lo v).links = s.links := rfl
@[simp] theorem setRegF_cribTx (s : State) (l : RegLoc) (hi lo v : Nat) : (setRegF s l hi lo v).cribTx = s.cribTx := rfl
@[simp] theorem setRegF_nextTag (s : State) (l : RegLoc) (hi lo v : Nat) : (setRegF s l hi lo v).nextTag = s.nextTag := rfl
@[simp] theorem setRegF_sends (s : State) (l : RegLoc) (hi lo v : Nat) : (setRegF s l hi lo v).sends = s.sends := rfl
@[simp] theorem setRegF_relays (s : State) (l : RegLoc) (hi lo v : Nat) : (setRegF s l hi lo v).relays = s.relays := rfl
@[simp] theorem setRegF_recvs (s : State) (l : RegLoc) (hi lo v : Nat) : (setRegF s l hi lo v).recvs = s.recvs := rfl
@[simp] theorem setRegF_rick (s : State) (l : RegLoc) (hi lo v : Nat) : (setRegF s l hi lo v).rick = s.rick := rfl
@[simp] theorem setRegF_reseeds (s : State) (l : RegLoc) (hi lo v : Nat) : (setRegF s l hi lo v).reseeds = s.reseeds := rfl
@[simp] theorem setRegF_hop (s : State) (l : RegLoc) (hi lo v : Nat) : (setRegF s l hi lo v).hop = s.hop := rfl
@[simp] theorem setRegF_record (s : State) (l : RegLoc) (hi lo v : Nat) : (setRegF s l hi lo v).record = s.record := rfl
@[simp] theorem setRegF_store (s : State) (l : RegLoc) (hi lo v : Nat) : (setRegF s l hi lo v).store = s.store := rfl
@[simp] theorem setRegF_flt (s : State) (l : RegLoc) (hi lo v : Nat) : (setRegF s l hi lo v).flt = s.flt := rfl
@[simp] theorem setRegF_img (s : State) (l : RegLoc) (hi lo v : Nat) : (setRegF s l hi lo v).img = s.img := rfl
@[simp] theorem setRegF_cad (s : State) (l : RegLoc) (hi lo v : Nat) : (setRegF s l hi lo v).cad = s.cad := rfl
@[simp] theorem setRegF_cal (s : State) (l : RegLoc) (hi lo v : Nat) : (setRegF s l hi lo v).cal = s.cal := rfl
@[simp] theorem setRegF_pwr (s : State) (l : RegLoc) (hi lo v : Nat) : (setRegF s l hi lo v).pwr = s.pwr := rfl
@[simp] theorem setRegF_thm (s : State) (l : RegLoc) (hi lo v : Nat) : (setRegF s l hi lo v).thm = s.thm := rfl

@[simp] theorem orReg_pending (s : State) (l : RegLoc) (m : Nat) : (orReg s l m).pending = s.pending := rfl
@[simp] theorem orReg_cycle (s : State) (l : RegLoc) (m : Nat) : (orReg s l m).cycle = s.cycle := rfl
@[simp] theorem orReg_fresh (s : State) (l : RegLoc) (m : Nat) : (orReg s l m).fresh = s.fresh := rfl
@[simp] theorem orReg_latches (s : State) (l : RegLoc) (m : Nat) : (orReg s l m).latches = s.latches := rfl
@[simp] theorem orReg_regResp (s : State) (l : RegLoc) (m : Nat) : (orReg s l m).regResp = s.regResp := rfl
@[simp] theorem orReg_grains (s : State) (l : RegLoc) (m : Nat) : (orReg s l m).grains = s.grains := rfl
@[simp] theorem orReg_sheaves (s : State) (l : RegLoc) (m : Nat) : (orReg s l m).sheaves = s.sheaves := rfl
@[simp] theorem orReg_ears (s : State) (l : RegLoc) (m : Nat) : (orReg s l m).ears = s.ears := rfl
@[simp] theorem orReg_epochs (s : State) (l : RegLoc) (m : Nat) : (orReg s l m).epochs = s.epochs := rfl
@[simp] theorem orReg_halves (s : State) (l : RegLoc) (m : Nat) : (orReg s l m).halves = s.halves := rfl
@[simp] theorem orReg_spares (s : State) (l : RegLoc) (m : Nat) : (orReg s l m).spares = s.spares := rfl
@[simp] theorem orReg_merges (s : State) (l : RegLoc) (m : Nat) : (orReg s l m).merges = s.merges := rfl
@[simp] theorem orReg_flue (s : State) (l : RegLoc) (m : Nat) : (orReg s l m).flue = s.flue := rfl
@[simp] theorem orReg_flueWait (s : State) (l : RegLoc) (m : Nat) : (orReg s l m).flueWait = s.flueWait := rfl
@[simp] theorem orReg_flueNear (s : State) (l : RegLoc) (m : Nat) : (orReg s l m).flueNear = s.flueNear := rfl
@[simp] theorem orReg_mesh (s : State) (l : RegLoc) (m : Nat) : (orReg s l m).mesh = s.mesh := rfl
@[simp] theorem orReg_reqs (s : State) (l : RegLoc) (m : Nat) : (orReg s l m).reqs = s.reqs := rfl
@[simp] theorem orReg_posts (s : State) (l : RegLoc) (m : Nat) : (orReg s l m).posts = s.posts := rfl
@[simp] theorem orReg_notices (s : State) (l : RegLoc) (m : Nat) : (orReg s l m).notices = s.notices := rfl
@[simp] theorem orReg_onceBeat (s : State) (l : RegLoc) (m : Nat) : (orReg s l m).onceBeat = s.onceBeat := rfl
@[simp] theorem orReg_standbyWrites (s : State) (l : RegLoc) (m : Nat) : (orReg s l m).standbyWrites = s.standbyWrites := rfl
@[simp] theorem orReg_evq (s : State) (l : RegLoc) (m : Nat) : (orReg s l m).evq = s.evq := rfl
@[simp] theorem orReg_log (s : State) (l : RegLoc) (m : Nat) : (orReg s l m).log = s.log := rfl
@[simp] theorem orReg_time (s : State) (l : RegLoc) (m : Nat) : (orReg s l m).time = s.time := rfl
@[simp] theorem orReg_beat (s : State) (l : RegLoc) (m : Nat) : (orReg s l m).beat = s.beat := rfl
@[simp] theorem orReg_sheafMap (s : State) (l : RegLoc) (m : Nat) : (orReg s l m).sheafMap = s.sheafMap := rfl
@[simp] theorem orReg_bins (s : State) (l : RegLoc) (m : Nat) : (orReg s l m).bins = s.bins := rfl
@[simp] theorem orReg_cribs (s : State) (l : RegLoc) (m : Nat) : (orReg s l m).cribs = s.cribs := rfl
@[simp] theorem orReg_granary (s : State) (l : RegLoc) (m : Nat) : (orReg s l m).granary = s.granary := rfl
@[simp] theorem orReg_host (s : State) (l : RegLoc) (m : Nat) : (orReg s l m).host = s.host := rfl
@[simp] theorem orReg_links (s : State) (l : RegLoc) (m : Nat) : (orReg s l m).links = s.links := rfl
@[simp] theorem orReg_cribTx (s : State) (l : RegLoc) (m : Nat) : (orReg s l m).cribTx = s.cribTx := rfl
@[simp] theorem orReg_nextTag (s : State) (l : RegLoc) (m : Nat) : (orReg s l m).nextTag = s.nextTag := rfl
@[simp] theorem orReg_sends (s : State) (l : RegLoc) (m : Nat) : (orReg s l m).sends = s.sends := rfl
@[simp] theorem orReg_relays (s : State) (l : RegLoc) (m : Nat) : (orReg s l m).relays = s.relays := rfl
@[simp] theorem orReg_recvs (s : State) (l : RegLoc) (m : Nat) : (orReg s l m).recvs = s.recvs := rfl
@[simp] theorem orReg_rick (s : State) (l : RegLoc) (m : Nat) : (orReg s l m).rick = s.rick := rfl
@[simp] theorem orReg_reseeds (s : State) (l : RegLoc) (m : Nat) : (orReg s l m).reseeds = s.reseeds := rfl
@[simp] theorem orReg_hop (s : State) (l : RegLoc) (m : Nat) : (orReg s l m).hop = s.hop := rfl
@[simp] theorem orReg_record (s : State) (l : RegLoc) (m : Nat) : (orReg s l m).record = s.record := rfl
@[simp] theorem orReg_store (s : State) (l : RegLoc) (m : Nat) : (orReg s l m).store = s.store := rfl
@[simp] theorem orReg_flt (s : State) (l : RegLoc) (m : Nat) : (orReg s l m).flt = s.flt := rfl
@[simp] theorem orReg_img (s : State) (l : RegLoc) (m : Nat) : (orReg s l m).img = s.img := rfl
@[simp] theorem orReg_cad (s : State) (l : RegLoc) (m : Nat) : (orReg s l m).cad = s.cad := rfl
@[simp] theorem orReg_cal (s : State) (l : RegLoc) (m : Nat) : (orReg s l m).cal = s.cal := rfl
@[simp] theorem orReg_pwr (s : State) (l : RegLoc) (m : Nat) : (orReg s l m).pwr = s.pwr := rfl
@[simp] theorem orReg_thm (s : State) (l : RegLoc) (m : Nat) : (orReg s l m).thm = s.thm := rfl

@[simp] theorem incReg_pending (s : State) (l : RegLoc) (n : Nat) : (incReg s l n).pending = s.pending := rfl
@[simp] theorem incReg_cycle (s : State) (l : RegLoc) (n : Nat) : (incReg s l n).cycle = s.cycle := rfl
@[simp] theorem incReg_fresh (s : State) (l : RegLoc) (n : Nat) : (incReg s l n).fresh = s.fresh := rfl
@[simp] theorem incReg_latches (s : State) (l : RegLoc) (n : Nat) : (incReg s l n).latches = s.latches := rfl
@[simp] theorem incReg_regResp (s : State) (l : RegLoc) (n : Nat) : (incReg s l n).regResp = s.regResp := rfl
@[simp] theorem incReg_grains (s : State) (l : RegLoc) (n : Nat) : (incReg s l n).grains = s.grains := rfl
@[simp] theorem incReg_sheaves (s : State) (l : RegLoc) (n : Nat) : (incReg s l n).sheaves = s.sheaves := rfl
@[simp] theorem incReg_ears (s : State) (l : RegLoc) (n : Nat) : (incReg s l n).ears = s.ears := rfl
@[simp] theorem incReg_epochs (s : State) (l : RegLoc) (n : Nat) : (incReg s l n).epochs = s.epochs := rfl
@[simp] theorem incReg_halves (s : State) (l : RegLoc) (n : Nat) : (incReg s l n).halves = s.halves := rfl
@[simp] theorem incReg_spares (s : State) (l : RegLoc) (n : Nat) : (incReg s l n).spares = s.spares := rfl
@[simp] theorem incReg_merges (s : State) (l : RegLoc) (n : Nat) : (incReg s l n).merges = s.merges := rfl
@[simp] theorem incReg_flue (s : State) (l : RegLoc) (n : Nat) : (incReg s l n).flue = s.flue := rfl
@[simp] theorem incReg_flueWait (s : State) (l : RegLoc) (n : Nat) : (incReg s l n).flueWait = s.flueWait := rfl
@[simp] theorem incReg_flueNear (s : State) (l : RegLoc) (n : Nat) : (incReg s l n).flueNear = s.flueNear := rfl
@[simp] theorem incReg_mesh (s : State) (l : RegLoc) (n : Nat) : (incReg s l n).mesh = s.mesh := rfl
@[simp] theorem incReg_reqs (s : State) (l : RegLoc) (n : Nat) : (incReg s l n).reqs = s.reqs := rfl
@[simp] theorem incReg_posts (s : State) (l : RegLoc) (n : Nat) : (incReg s l n).posts = s.posts := rfl
@[simp] theorem incReg_notices (s : State) (l : RegLoc) (n : Nat) : (incReg s l n).notices = s.notices := rfl
@[simp] theorem incReg_onceBeat (s : State) (l : RegLoc) (n : Nat) : (incReg s l n).onceBeat = s.onceBeat := rfl
@[simp] theorem incReg_standbyWrites (s : State) (l : RegLoc) (n : Nat) : (incReg s l n).standbyWrites = s.standbyWrites := rfl
@[simp] theorem incReg_evq (s : State) (l : RegLoc) (n : Nat) : (incReg s l n).evq = s.evq := rfl
@[simp] theorem incReg_log (s : State) (l : RegLoc) (n : Nat) : (incReg s l n).log = s.log := rfl
@[simp] theorem incReg_time (s : State) (l : RegLoc) (n : Nat) : (incReg s l n).time = s.time := rfl
@[simp] theorem incReg_beat (s : State) (l : RegLoc) (n : Nat) : (incReg s l n).beat = s.beat := rfl
@[simp] theorem incReg_sheafMap (s : State) (l : RegLoc) (n : Nat) : (incReg s l n).sheafMap = s.sheafMap := rfl
@[simp] theorem incReg_bins (s : State) (l : RegLoc) (n : Nat) : (incReg s l n).bins = s.bins := rfl
@[simp] theorem incReg_cribs (s : State) (l : RegLoc) (n : Nat) : (incReg s l n).cribs = s.cribs := rfl
@[simp] theorem incReg_granary (s : State) (l : RegLoc) (n : Nat) : (incReg s l n).granary = s.granary := rfl
@[simp] theorem incReg_host (s : State) (l : RegLoc) (n : Nat) : (incReg s l n).host = s.host := rfl
@[simp] theorem incReg_links (s : State) (l : RegLoc) (n : Nat) : (incReg s l n).links = s.links := rfl
@[simp] theorem incReg_cribTx (s : State) (l : RegLoc) (n : Nat) : (incReg s l n).cribTx = s.cribTx := rfl
@[simp] theorem incReg_nextTag (s : State) (l : RegLoc) (n : Nat) : (incReg s l n).nextTag = s.nextTag := rfl
@[simp] theorem incReg_sends (s : State) (l : RegLoc) (n : Nat) : (incReg s l n).sends = s.sends := rfl
@[simp] theorem incReg_relays (s : State) (l : RegLoc) (n : Nat) : (incReg s l n).relays = s.relays := rfl
@[simp] theorem incReg_recvs (s : State) (l : RegLoc) (n : Nat) : (incReg s l n).recvs = s.recvs := rfl
@[simp] theorem incReg_rick (s : State) (l : RegLoc) (n : Nat) : (incReg s l n).rick = s.rick := rfl
@[simp] theorem incReg_reseeds (s : State) (l : RegLoc) (n : Nat) : (incReg s l n).reseeds = s.reseeds := rfl
@[simp] theorem incReg_hop (s : State) (l : RegLoc) (n : Nat) : (incReg s l n).hop = s.hop := rfl
@[simp] theorem incReg_record (s : State) (l : RegLoc) (n : Nat) : (incReg s l n).record = s.record := rfl
@[simp] theorem incReg_store (s : State) (l : RegLoc) (n : Nat) : (incReg s l n).store = s.store := rfl
@[simp] theorem incReg_flt (s : State) (l : RegLoc) (n : Nat) : (incReg s l n).flt = s.flt := rfl
@[simp] theorem incReg_img (s : State) (l : RegLoc) (n : Nat) : (incReg s l n).img = s.img := rfl
@[simp] theorem incReg_cad (s : State) (l : RegLoc) (n : Nat) : (incReg s l n).cad = s.cad := rfl
@[simp] theorem incReg_cal (s : State) (l : RegLoc) (n : Nat) : (incReg s l n).cal = s.cal := rfl
@[simp] theorem incReg_pwr (s : State) (l : RegLoc) (n : Nat) : (incReg s l n).pwr = s.pwr := rfl
@[simp] theorem incReg_thm (s : State) (l : RegLoc) (n : Nat) : (incReg s l n).thm = s.thm := rfl

@[simp] theorem incRegF_pending (s : State) (l : RegLoc) (hi lo n : Nat) : (incRegF s l hi lo n).pending = s.pending := rfl
@[simp] theorem incRegF_cycle (s : State) (l : RegLoc) (hi lo n : Nat) : (incRegF s l hi lo n).cycle = s.cycle := rfl
@[simp] theorem incRegF_fresh (s : State) (l : RegLoc) (hi lo n : Nat) : (incRegF s l hi lo n).fresh = s.fresh := rfl
@[simp] theorem incRegF_latches (s : State) (l : RegLoc) (hi lo n : Nat) : (incRegF s l hi lo n).latches = s.latches := rfl
@[simp] theorem incRegF_regResp (s : State) (l : RegLoc) (hi lo n : Nat) : (incRegF s l hi lo n).regResp = s.regResp := rfl
@[simp] theorem incRegF_grains (s : State) (l : RegLoc) (hi lo n : Nat) : (incRegF s l hi lo n).grains = s.grains := rfl
@[simp] theorem incRegF_sheaves (s : State) (l : RegLoc) (hi lo n : Nat) : (incRegF s l hi lo n).sheaves = s.sheaves := rfl
@[simp] theorem incRegF_ears (s : State) (l : RegLoc) (hi lo n : Nat) : (incRegF s l hi lo n).ears = s.ears := rfl
@[simp] theorem incRegF_epochs (s : State) (l : RegLoc) (hi lo n : Nat) : (incRegF s l hi lo n).epochs = s.epochs := rfl
@[simp] theorem incRegF_halves (s : State) (l : RegLoc) (hi lo n : Nat) : (incRegF s l hi lo n).halves = s.halves := rfl
@[simp] theorem incRegF_spares (s : State) (l : RegLoc) (hi lo n : Nat) : (incRegF s l hi lo n).spares = s.spares := rfl
@[simp] theorem incRegF_merges (s : State) (l : RegLoc) (hi lo n : Nat) : (incRegF s l hi lo n).merges = s.merges := rfl
@[simp] theorem incRegF_flue (s : State) (l : RegLoc) (hi lo n : Nat) : (incRegF s l hi lo n).flue = s.flue := rfl
@[simp] theorem incRegF_flueWait (s : State) (l : RegLoc) (hi lo n : Nat) : (incRegF s l hi lo n).flueWait = s.flueWait := rfl
@[simp] theorem incRegF_flueNear (s : State) (l : RegLoc) (hi lo n : Nat) : (incRegF s l hi lo n).flueNear = s.flueNear := rfl
@[simp] theorem incRegF_mesh (s : State) (l : RegLoc) (hi lo n : Nat) : (incRegF s l hi lo n).mesh = s.mesh := rfl
@[simp] theorem incRegF_reqs (s : State) (l : RegLoc) (hi lo n : Nat) : (incRegF s l hi lo n).reqs = s.reqs := rfl
@[simp] theorem incRegF_posts (s : State) (l : RegLoc) (hi lo n : Nat) : (incRegF s l hi lo n).posts = s.posts := rfl
@[simp] theorem incRegF_notices (s : State) (l : RegLoc) (hi lo n : Nat) : (incRegF s l hi lo n).notices = s.notices := rfl
@[simp] theorem incRegF_onceBeat (s : State) (l : RegLoc) (hi lo n : Nat) : (incRegF s l hi lo n).onceBeat = s.onceBeat := rfl
@[simp] theorem incRegF_standbyWrites (s : State) (l : RegLoc) (hi lo n : Nat) : (incRegF s l hi lo n).standbyWrites = s.standbyWrites := rfl
@[simp] theorem incRegF_evq (s : State) (l : RegLoc) (hi lo n : Nat) : (incRegF s l hi lo n).evq = s.evq := rfl
@[simp] theorem incRegF_log (s : State) (l : RegLoc) (hi lo n : Nat) : (incRegF s l hi lo n).log = s.log := rfl
@[simp] theorem incRegF_time (s : State) (l : RegLoc) (hi lo n : Nat) : (incRegF s l hi lo n).time = s.time := rfl
@[simp] theorem incRegF_beat (s : State) (l : RegLoc) (hi lo n : Nat) : (incRegF s l hi lo n).beat = s.beat := rfl
@[simp] theorem incRegF_sheafMap (s : State) (l : RegLoc) (hi lo n : Nat) : (incRegF s l hi lo n).sheafMap = s.sheafMap := rfl
@[simp] theorem incRegF_bins (s : State) (l : RegLoc) (hi lo n : Nat) : (incRegF s l hi lo n).bins = s.bins := rfl
@[simp] theorem incRegF_cribs (s : State) (l : RegLoc) (hi lo n : Nat) : (incRegF s l hi lo n).cribs = s.cribs := rfl
@[simp] theorem incRegF_granary (s : State) (l : RegLoc) (hi lo n : Nat) : (incRegF s l hi lo n).granary = s.granary := rfl
@[simp] theorem incRegF_host (s : State) (l : RegLoc) (hi lo n : Nat) : (incRegF s l hi lo n).host = s.host := rfl
@[simp] theorem incRegF_links (s : State) (l : RegLoc) (hi lo n : Nat) : (incRegF s l hi lo n).links = s.links := rfl
@[simp] theorem incRegF_cribTx (s : State) (l : RegLoc) (hi lo n : Nat) : (incRegF s l hi lo n).cribTx = s.cribTx := rfl
@[simp] theorem incRegF_nextTag (s : State) (l : RegLoc) (hi lo n : Nat) : (incRegF s l hi lo n).nextTag = s.nextTag := rfl
@[simp] theorem incRegF_sends (s : State) (l : RegLoc) (hi lo n : Nat) : (incRegF s l hi lo n).sends = s.sends := rfl
@[simp] theorem incRegF_relays (s : State) (l : RegLoc) (hi lo n : Nat) : (incRegF s l hi lo n).relays = s.relays := rfl
@[simp] theorem incRegF_recvs (s : State) (l : RegLoc) (hi lo n : Nat) : (incRegF s l hi lo n).recvs = s.recvs := rfl
@[simp] theorem incRegF_rick (s : State) (l : RegLoc) (hi lo n : Nat) : (incRegF s l hi lo n).rick = s.rick := rfl
@[simp] theorem incRegF_reseeds (s : State) (l : RegLoc) (hi lo n : Nat) : (incRegF s l hi lo n).reseeds = s.reseeds := rfl
@[simp] theorem incRegF_hop (s : State) (l : RegLoc) (hi lo n : Nat) : (incRegF s l hi lo n).hop = s.hop := rfl
@[simp] theorem incRegF_record (s : State) (l : RegLoc) (hi lo n : Nat) : (incRegF s l hi lo n).record = s.record := rfl
@[simp] theorem incRegF_store (s : State) (l : RegLoc) (hi lo n : Nat) : (incRegF s l hi lo n).store = s.store := rfl
@[simp] theorem incRegF_flt (s : State) (l : RegLoc) (hi lo n : Nat) : (incRegF s l hi lo n).flt = s.flt := rfl
@[simp] theorem incRegF_img (s : State) (l : RegLoc) (hi lo n : Nat) : (incRegF s l hi lo n).img = s.img := rfl
@[simp] theorem incRegF_cad (s : State) (l : RegLoc) (hi lo n : Nat) : (incRegF s l hi lo n).cad = s.cad := rfl
@[simp] theorem incRegF_cal (s : State) (l : RegLoc) (hi lo n : Nat) : (incRegF s l hi lo n).cal = s.cal := rfl
@[simp] theorem incRegF_pwr (s : State) (l : RegLoc) (hi lo n : Nat) : (incRegF s l hi lo n).pwr = s.pwr := rfl
@[simp] theorem incRegF_thm (s : State) (l : RegLoc) (hi lo n : Nat) : (incRegF s l hi lo n).thm = s.thm := rfl

@[simp] theorem setGrain_pending (s : State) (g : Nat) (x : Grain) : (setGrain s g x).pending = s.pending := rfl
@[simp] theorem setGrain_cycle (s : State) (g : Nat) (x : Grain) : (setGrain s g x).cycle = s.cycle := rfl
@[simp] theorem setGrain_fresh (s : State) (g : Nat) (x : Grain) : (setGrain s g x).fresh = s.fresh := rfl
@[simp] theorem setGrain_regs (s : State) (g : Nat) (x : Grain) : (setGrain s g x).regs = s.regs := rfl
@[simp] theorem setGrain_latches (s : State) (g : Nat) (x : Grain) : (setGrain s g x).latches = s.latches := rfl
@[simp] theorem setGrain_regResp (s : State) (g : Nat) (x : Grain) : (setGrain s g x).regResp = s.regResp := rfl
@[simp] theorem setGrain_sheaves (s : State) (g : Nat) (x : Grain) : (setGrain s g x).sheaves = s.sheaves := rfl
@[simp] theorem setGrain_ears (s : State) (g : Nat) (x : Grain) : (setGrain s g x).ears = s.ears := rfl
@[simp] theorem setGrain_epochs (s : State) (g : Nat) (x : Grain) : (setGrain s g x).epochs = s.epochs := rfl
@[simp] theorem setGrain_halves (s : State) (g : Nat) (x : Grain) : (setGrain s g x).halves = s.halves := rfl
@[simp] theorem setGrain_spares (s : State) (g : Nat) (x : Grain) : (setGrain s g x).spares = s.spares := rfl
@[simp] theorem setGrain_merges (s : State) (g : Nat) (x : Grain) : (setGrain s g x).merges = s.merges := rfl
@[simp] theorem setGrain_flue (s : State) (g : Nat) (x : Grain) : (setGrain s g x).flue = s.flue := rfl
@[simp] theorem setGrain_flueWait (s : State) (g : Nat) (x : Grain) : (setGrain s g x).flueWait = s.flueWait := rfl
@[simp] theorem setGrain_flueNear (s : State) (g : Nat) (x : Grain) : (setGrain s g x).flueNear = s.flueNear := rfl
@[simp] theorem setGrain_mesh (s : State) (g : Nat) (x : Grain) : (setGrain s g x).mesh = s.mesh := rfl
@[simp] theorem setGrain_reqs (s : State) (g : Nat) (x : Grain) : (setGrain s g x).reqs = s.reqs := rfl
@[simp] theorem setGrain_posts (s : State) (g : Nat) (x : Grain) : (setGrain s g x).posts = s.posts := rfl
@[simp] theorem setGrain_notices (s : State) (g : Nat) (x : Grain) : (setGrain s g x).notices = s.notices := rfl
@[simp] theorem setGrain_onceBeat (s : State) (g : Nat) (x : Grain) : (setGrain s g x).onceBeat = s.onceBeat := rfl
@[simp] theorem setGrain_standbyWrites (s : State) (g : Nat) (x : Grain) : (setGrain s g x).standbyWrites = s.standbyWrites := rfl
@[simp] theorem setGrain_evq (s : State) (g : Nat) (x : Grain) : (setGrain s g x).evq = s.evq := rfl
@[simp] theorem setGrain_log (s : State) (g : Nat) (x : Grain) : (setGrain s g x).log = s.log := rfl
@[simp] theorem setGrain_time (s : State) (g : Nat) (x : Grain) : (setGrain s g x).time = s.time := rfl
@[simp] theorem setGrain_beat (s : State) (g : Nat) (x : Grain) : (setGrain s g x).beat = s.beat := rfl
@[simp] theorem setGrain_sheafMap (s : State) (g : Nat) (x : Grain) : (setGrain s g x).sheafMap = s.sheafMap := rfl
@[simp] theorem setGrain_bins (s : State) (g : Nat) (x : Grain) : (setGrain s g x).bins = s.bins := rfl
@[simp] theorem setGrain_cribs (s : State) (g : Nat) (x : Grain) : (setGrain s g x).cribs = s.cribs := rfl
@[simp] theorem setGrain_granary (s : State) (g : Nat) (x : Grain) : (setGrain s g x).granary = s.granary := rfl
@[simp] theorem setGrain_host (s : State) (g : Nat) (x : Grain) : (setGrain s g x).host = s.host := rfl
@[simp] theorem setGrain_links (s : State) (g : Nat) (x : Grain) : (setGrain s g x).links = s.links := rfl
@[simp] theorem setGrain_cribTx (s : State) (g : Nat) (x : Grain) : (setGrain s g x).cribTx = s.cribTx := rfl
@[simp] theorem setGrain_nextTag (s : State) (g : Nat) (x : Grain) : (setGrain s g x).nextTag = s.nextTag := rfl
@[simp] theorem setGrain_sends (s : State) (g : Nat) (x : Grain) : (setGrain s g x).sends = s.sends := rfl
@[simp] theorem setGrain_relays (s : State) (g : Nat) (x : Grain) : (setGrain s g x).relays = s.relays := rfl
@[simp] theorem setGrain_recvs (s : State) (g : Nat) (x : Grain) : (setGrain s g x).recvs = s.recvs := rfl
@[simp] theorem setGrain_rick (s : State) (g : Nat) (x : Grain) : (setGrain s g x).rick = s.rick := rfl
@[simp] theorem setGrain_reseeds (s : State) (g : Nat) (x : Grain) : (setGrain s g x).reseeds = s.reseeds := rfl
@[simp] theorem setGrain_hop (s : State) (g : Nat) (x : Grain) : (setGrain s g x).hop = s.hop := rfl
@[simp] theorem setGrain_record (s : State) (g : Nat) (x : Grain) : (setGrain s g x).record = s.record := rfl
@[simp] theorem setGrain_store (s : State) (g : Nat) (x : Grain) : (setGrain s g x).store = s.store := rfl
@[simp] theorem setGrain_flt (s : State) (g : Nat) (x : Grain) : (setGrain s g x).flt = s.flt := rfl
@[simp] theorem setGrain_img (s : State) (g : Nat) (x : Grain) : (setGrain s g x).img = s.img := rfl
@[simp] theorem setGrain_cad (s : State) (g : Nat) (x : Grain) : (setGrain s g x).cad = s.cad := rfl
@[simp] theorem setGrain_cal (s : State) (g : Nat) (x : Grain) : (setGrain s g x).cal = s.cal := rfl
@[simp] theorem setGrain_pwr (s : State) (g : Nat) (x : Grain) : (setGrain s g x).pwr = s.pwr := rfl
@[simp] theorem setGrain_thm (s : State) (g : Nat) (x : Grain) : (setGrain s g x).thm = s.thm := rfl

@[simp] theorem setSheaf_pending (s : State) (h : Nat) (x : Sheaf) : (setSheaf s h x).pending = s.pending := rfl
@[simp] theorem setSheaf_cycle (s : State) (h : Nat) (x : Sheaf) : (setSheaf s h x).cycle = s.cycle := rfl
@[simp] theorem setSheaf_fresh (s : State) (h : Nat) (x : Sheaf) : (setSheaf s h x).fresh = s.fresh := rfl
@[simp] theorem setSheaf_regs (s : State) (h : Nat) (x : Sheaf) : (setSheaf s h x).regs = s.regs := rfl
@[simp] theorem setSheaf_latches (s : State) (h : Nat) (x : Sheaf) : (setSheaf s h x).latches = s.latches := rfl
@[simp] theorem setSheaf_regResp (s : State) (h : Nat) (x : Sheaf) : (setSheaf s h x).regResp = s.regResp := rfl
@[simp] theorem setSheaf_grains (s : State) (h : Nat) (x : Sheaf) : (setSheaf s h x).grains = s.grains := rfl
@[simp] theorem setSheaf_ears (s : State) (h : Nat) (x : Sheaf) : (setSheaf s h x).ears = s.ears := rfl
@[simp] theorem setSheaf_epochs (s : State) (h : Nat) (x : Sheaf) : (setSheaf s h x).epochs = s.epochs := rfl
@[simp] theorem setSheaf_halves (s : State) (h : Nat) (x : Sheaf) : (setSheaf s h x).halves = s.halves := rfl
@[simp] theorem setSheaf_spares (s : State) (h : Nat) (x : Sheaf) : (setSheaf s h x).spares = s.spares := rfl
@[simp] theorem setSheaf_merges (s : State) (h : Nat) (x : Sheaf) : (setSheaf s h x).merges = s.merges := rfl
@[simp] theorem setSheaf_flue (s : State) (h : Nat) (x : Sheaf) : (setSheaf s h x).flue = s.flue := rfl
@[simp] theorem setSheaf_flueWait (s : State) (h : Nat) (x : Sheaf) : (setSheaf s h x).flueWait = s.flueWait := rfl
@[simp] theorem setSheaf_flueNear (s : State) (h : Nat) (x : Sheaf) : (setSheaf s h x).flueNear = s.flueNear := rfl
@[simp] theorem setSheaf_mesh (s : State) (h : Nat) (x : Sheaf) : (setSheaf s h x).mesh = s.mesh := rfl
@[simp] theorem setSheaf_reqs (s : State) (h : Nat) (x : Sheaf) : (setSheaf s h x).reqs = s.reqs := rfl
@[simp] theorem setSheaf_posts (s : State) (h : Nat) (x : Sheaf) : (setSheaf s h x).posts = s.posts := rfl
@[simp] theorem setSheaf_notices (s : State) (h : Nat) (x : Sheaf) : (setSheaf s h x).notices = s.notices := rfl
@[simp] theorem setSheaf_onceBeat (s : State) (h : Nat) (x : Sheaf) : (setSheaf s h x).onceBeat = s.onceBeat := rfl
@[simp] theorem setSheaf_standbyWrites (s : State) (h : Nat) (x : Sheaf) : (setSheaf s h x).standbyWrites = s.standbyWrites := rfl
@[simp] theorem setSheaf_evq (s : State) (h : Nat) (x : Sheaf) : (setSheaf s h x).evq = s.evq := rfl
@[simp] theorem setSheaf_log (s : State) (h : Nat) (x : Sheaf) : (setSheaf s h x).log = s.log := rfl
@[simp] theorem setSheaf_time (s : State) (h : Nat) (x : Sheaf) : (setSheaf s h x).time = s.time := rfl
@[simp] theorem setSheaf_beat (s : State) (h : Nat) (x : Sheaf) : (setSheaf s h x).beat = s.beat := rfl
@[simp] theorem setSheaf_sheafMap (s : State) (h : Nat) (x : Sheaf) : (setSheaf s h x).sheafMap = s.sheafMap := rfl
@[simp] theorem setSheaf_bins (s : State) (h : Nat) (x : Sheaf) : (setSheaf s h x).bins = s.bins := rfl
@[simp] theorem setSheaf_cribs (s : State) (h : Nat) (x : Sheaf) : (setSheaf s h x).cribs = s.cribs := rfl
@[simp] theorem setSheaf_granary (s : State) (h : Nat) (x : Sheaf) : (setSheaf s h x).granary = s.granary := rfl
@[simp] theorem setSheaf_host (s : State) (h : Nat) (x : Sheaf) : (setSheaf s h x).host = s.host := rfl
@[simp] theorem setSheaf_links (s : State) (h : Nat) (x : Sheaf) : (setSheaf s h x).links = s.links := rfl
@[simp] theorem setSheaf_cribTx (s : State) (h : Nat) (x : Sheaf) : (setSheaf s h x).cribTx = s.cribTx := rfl
@[simp] theorem setSheaf_nextTag (s : State) (h : Nat) (x : Sheaf) : (setSheaf s h x).nextTag = s.nextTag := rfl
@[simp] theorem setSheaf_sends (s : State) (h : Nat) (x : Sheaf) : (setSheaf s h x).sends = s.sends := rfl
@[simp] theorem setSheaf_relays (s : State) (h : Nat) (x : Sheaf) : (setSheaf s h x).relays = s.relays := rfl
@[simp] theorem setSheaf_recvs (s : State) (h : Nat) (x : Sheaf) : (setSheaf s h x).recvs = s.recvs := rfl
@[simp] theorem setSheaf_rick (s : State) (h : Nat) (x : Sheaf) : (setSheaf s h x).rick = s.rick := rfl
@[simp] theorem setSheaf_reseeds (s : State) (h : Nat) (x : Sheaf) : (setSheaf s h x).reseeds = s.reseeds := rfl
@[simp] theorem setSheaf_hop (s : State) (h : Nat) (x : Sheaf) : (setSheaf s h x).hop = s.hop := rfl
@[simp] theorem setSheaf_record (s : State) (h : Nat) (x : Sheaf) : (setSheaf s h x).record = s.record := rfl
@[simp] theorem setSheaf_store (s : State) (h : Nat) (x : Sheaf) : (setSheaf s h x).store = s.store := rfl
@[simp] theorem setSheaf_flt (s : State) (h : Nat) (x : Sheaf) : (setSheaf s h x).flt = s.flt := rfl
@[simp] theorem setSheaf_img (s : State) (h : Nat) (x : Sheaf) : (setSheaf s h x).img = s.img := rfl
@[simp] theorem setSheaf_cad (s : State) (h : Nat) (x : Sheaf) : (setSheaf s h x).cad = s.cad := rfl
@[simp] theorem setSheaf_cal (s : State) (h : Nat) (x : Sheaf) : (setSheaf s h x).cal = s.cal := rfl
@[simp] theorem setSheaf_pwr (s : State) (h : Nat) (x : Sheaf) : (setSheaf s h x).pwr = s.pwr := rfl
@[simp] theorem setSheaf_thm (s : State) (h : Nat) (x : Sheaf) : (setSheaf s h x).thm = s.thm := rfl

@[simp] theorem setBin_pending (s : State) (b : Nat) (x : BinSt) : (setBin s b x).pending = s.pending := rfl
@[simp] theorem setBin_cycle (s : State) (b : Nat) (x : BinSt) : (setBin s b x).cycle = s.cycle := rfl
@[simp] theorem setBin_fresh (s : State) (b : Nat) (x : BinSt) : (setBin s b x).fresh = s.fresh := rfl
@[simp] theorem setBin_regs (s : State) (b : Nat) (x : BinSt) : (setBin s b x).regs = s.regs := rfl
@[simp] theorem setBin_latches (s : State) (b : Nat) (x : BinSt) : (setBin s b x).latches = s.latches := rfl
@[simp] theorem setBin_regResp (s : State) (b : Nat) (x : BinSt) : (setBin s b x).regResp = s.regResp := rfl
@[simp] theorem setBin_grains (s : State) (b : Nat) (x : BinSt) : (setBin s b x).grains = s.grains := rfl
@[simp] theorem setBin_sheaves (s : State) (b : Nat) (x : BinSt) : (setBin s b x).sheaves = s.sheaves := rfl
@[simp] theorem setBin_ears (s : State) (b : Nat) (x : BinSt) : (setBin s b x).ears = s.ears := rfl
@[simp] theorem setBin_epochs (s : State) (b : Nat) (x : BinSt) : (setBin s b x).epochs = s.epochs := rfl
@[simp] theorem setBin_halves (s : State) (b : Nat) (x : BinSt) : (setBin s b x).halves = s.halves := rfl
@[simp] theorem setBin_spares (s : State) (b : Nat) (x : BinSt) : (setBin s b x).spares = s.spares := rfl
@[simp] theorem setBin_merges (s : State) (b : Nat) (x : BinSt) : (setBin s b x).merges = s.merges := rfl
@[simp] theorem setBin_flue (s : State) (b : Nat) (x : BinSt) : (setBin s b x).flue = s.flue := rfl
@[simp] theorem setBin_flueWait (s : State) (b : Nat) (x : BinSt) : (setBin s b x).flueWait = s.flueWait := rfl
@[simp] theorem setBin_flueNear (s : State) (b : Nat) (x : BinSt) : (setBin s b x).flueNear = s.flueNear := rfl
@[simp] theorem setBin_mesh (s : State) (b : Nat) (x : BinSt) : (setBin s b x).mesh = s.mesh := rfl
@[simp] theorem setBin_reqs (s : State) (b : Nat) (x : BinSt) : (setBin s b x).reqs = s.reqs := rfl
@[simp] theorem setBin_posts (s : State) (b : Nat) (x : BinSt) : (setBin s b x).posts = s.posts := rfl
@[simp] theorem setBin_notices (s : State) (b : Nat) (x : BinSt) : (setBin s b x).notices = s.notices := rfl
@[simp] theorem setBin_onceBeat (s : State) (b : Nat) (x : BinSt) : (setBin s b x).onceBeat = s.onceBeat := rfl
@[simp] theorem setBin_standbyWrites (s : State) (b : Nat) (x : BinSt) : (setBin s b x).standbyWrites = s.standbyWrites := rfl
@[simp] theorem setBin_evq (s : State) (b : Nat) (x : BinSt) : (setBin s b x).evq = s.evq := rfl
@[simp] theorem setBin_log (s : State) (b : Nat) (x : BinSt) : (setBin s b x).log = s.log := rfl
@[simp] theorem setBin_time (s : State) (b : Nat) (x : BinSt) : (setBin s b x).time = s.time := rfl
@[simp] theorem setBin_beat (s : State) (b : Nat) (x : BinSt) : (setBin s b x).beat = s.beat := rfl
@[simp] theorem setBin_sheafMap (s : State) (b : Nat) (x : BinSt) : (setBin s b x).sheafMap = s.sheafMap := rfl
@[simp] theorem setBin_cribs (s : State) (b : Nat) (x : BinSt) : (setBin s b x).cribs = s.cribs := rfl
@[simp] theorem setBin_granary (s : State) (b : Nat) (x : BinSt) : (setBin s b x).granary = s.granary := rfl
@[simp] theorem setBin_host (s : State) (b : Nat) (x : BinSt) : (setBin s b x).host = s.host := rfl
@[simp] theorem setBin_links (s : State) (b : Nat) (x : BinSt) : (setBin s b x).links = s.links := rfl
@[simp] theorem setBin_cribTx (s : State) (b : Nat) (x : BinSt) : (setBin s b x).cribTx = s.cribTx := rfl
@[simp] theorem setBin_nextTag (s : State) (b : Nat) (x : BinSt) : (setBin s b x).nextTag = s.nextTag := rfl
@[simp] theorem setBin_sends (s : State) (b : Nat) (x : BinSt) : (setBin s b x).sends = s.sends := rfl
@[simp] theorem setBin_relays (s : State) (b : Nat) (x : BinSt) : (setBin s b x).relays = s.relays := rfl
@[simp] theorem setBin_recvs (s : State) (b : Nat) (x : BinSt) : (setBin s b x).recvs = s.recvs := rfl
@[simp] theorem setBin_rick (s : State) (b : Nat) (x : BinSt) : (setBin s b x).rick = s.rick := rfl
@[simp] theorem setBin_reseeds (s : State) (b : Nat) (x : BinSt) : (setBin s b x).reseeds = s.reseeds := rfl
@[simp] theorem setBin_hop (s : State) (b : Nat) (x : BinSt) : (setBin s b x).hop = s.hop := rfl
@[simp] theorem setBin_record (s : State) (b : Nat) (x : BinSt) : (setBin s b x).record = s.record := rfl
@[simp] theorem setBin_store (s : State) (b : Nat) (x : BinSt) : (setBin s b x).store = s.store := rfl
@[simp] theorem setBin_flt (s : State) (b : Nat) (x : BinSt) : (setBin s b x).flt = s.flt := rfl
@[simp] theorem setBin_img (s : State) (b : Nat) (x : BinSt) : (setBin s b x).img = s.img := rfl
@[simp] theorem setBin_cad (s : State) (b : Nat) (x : BinSt) : (setBin s b x).cad = s.cad := rfl
@[simp] theorem setBin_cal (s : State) (b : Nat) (x : BinSt) : (setBin s b x).cal = s.cal := rfl
@[simp] theorem setBin_pwr (s : State) (b : Nat) (x : BinSt) : (setBin s b x).pwr = s.pwr := rfl
@[simp] theorem setBin_thm (s : State) (b : Nat) (x : BinSt) : (setBin s b x).thm = s.thm := rfl

@[simp] theorem setCal_pending (s : State) (x : Cal) : (setCal s x).pending = s.pending := rfl
@[simp] theorem setCal_cycle (s : State) (x : Cal) : (setCal s x).cycle = s.cycle := rfl
@[simp] theorem setCal_fresh (s : State) (x : Cal) : (setCal s x).fresh = s.fresh := rfl
@[simp] theorem setCal_regs (s : State) (x : Cal) : (setCal s x).regs = s.regs := rfl
@[simp] theorem setCal_latches (s : State) (x : Cal) : (setCal s x).latches = s.latches := rfl
@[simp] theorem setCal_regResp (s : State) (x : Cal) : (setCal s x).regResp = s.regResp := rfl
@[simp] theorem setCal_grains (s : State) (x : Cal) : (setCal s x).grains = s.grains := rfl
@[simp] theorem setCal_sheaves (s : State) (x : Cal) : (setCal s x).sheaves = s.sheaves := rfl
@[simp] theorem setCal_ears (s : State) (x : Cal) : (setCal s x).ears = s.ears := rfl
@[simp] theorem setCal_epochs (s : State) (x : Cal) : (setCal s x).epochs = s.epochs := rfl
@[simp] theorem setCal_halves (s : State) (x : Cal) : (setCal s x).halves = s.halves := rfl
@[simp] theorem setCal_spares (s : State) (x : Cal) : (setCal s x).spares = s.spares := rfl
@[simp] theorem setCal_merges (s : State) (x : Cal) : (setCal s x).merges = s.merges := rfl
@[simp] theorem setCal_flue (s : State) (x : Cal) : (setCal s x).flue = s.flue := rfl
@[simp] theorem setCal_flueWait (s : State) (x : Cal) : (setCal s x).flueWait = s.flueWait := rfl
@[simp] theorem setCal_flueNear (s : State) (x : Cal) : (setCal s x).flueNear = s.flueNear := rfl
@[simp] theorem setCal_mesh (s : State) (x : Cal) : (setCal s x).mesh = s.mesh := rfl
@[simp] theorem setCal_reqs (s : State) (x : Cal) : (setCal s x).reqs = s.reqs := rfl
@[simp] theorem setCal_posts (s : State) (x : Cal) : (setCal s x).posts = s.posts := rfl
@[simp] theorem setCal_notices (s : State) (x : Cal) : (setCal s x).notices = s.notices := rfl
@[simp] theorem setCal_onceBeat (s : State) (x : Cal) : (setCal s x).onceBeat = s.onceBeat := rfl
@[simp] theorem setCal_standbyWrites (s : State) (x : Cal) : (setCal s x).standbyWrites = s.standbyWrites := rfl
@[simp] theorem setCal_evq (s : State) (x : Cal) : (setCal s x).evq = s.evq := rfl
@[simp] theorem setCal_log (s : State) (x : Cal) : (setCal s x).log = s.log := rfl
@[simp] theorem setCal_time (s : State) (x : Cal) : (setCal s x).time = s.time := rfl
@[simp] theorem setCal_beat (s : State) (x : Cal) : (setCal s x).beat = s.beat := rfl
@[simp] theorem setCal_sheafMap (s : State) (x : Cal) : (setCal s x).sheafMap = s.sheafMap := rfl
@[simp] theorem setCal_bins (s : State) (x : Cal) : (setCal s x).bins = s.bins := rfl
@[simp] theorem setCal_cribs (s : State) (x : Cal) : (setCal s x).cribs = s.cribs := rfl
@[simp] theorem setCal_granary (s : State) (x : Cal) : (setCal s x).granary = s.granary := rfl
@[simp] theorem setCal_host (s : State) (x : Cal) : (setCal s x).host = s.host := rfl
@[simp] theorem setCal_links (s : State) (x : Cal) : (setCal s x).links = s.links := rfl
@[simp] theorem setCal_cribTx (s : State) (x : Cal) : (setCal s x).cribTx = s.cribTx := rfl
@[simp] theorem setCal_nextTag (s : State) (x : Cal) : (setCal s x).nextTag = s.nextTag := rfl
@[simp] theorem setCal_sends (s : State) (x : Cal) : (setCal s x).sends = s.sends := rfl
@[simp] theorem setCal_relays (s : State) (x : Cal) : (setCal s x).relays = s.relays := rfl
@[simp] theorem setCal_recvs (s : State) (x : Cal) : (setCal s x).recvs = s.recvs := rfl
@[simp] theorem setCal_rick (s : State) (x : Cal) : (setCal s x).rick = s.rick := rfl
@[simp] theorem setCal_reseeds (s : State) (x : Cal) : (setCal s x).reseeds = s.reseeds := rfl
@[simp] theorem setCal_hop (s : State) (x : Cal) : (setCal s x).hop = s.hop := rfl
@[simp] theorem setCal_record (s : State) (x : Cal) : (setCal s x).record = s.record := rfl
@[simp] theorem setCal_store (s : State) (x : Cal) : (setCal s x).store = s.store := rfl
@[simp] theorem setCal_flt (s : State) (x : Cal) : (setCal s x).flt = s.flt := rfl
@[simp] theorem setCal_img (s : State) (x : Cal) : (setCal s x).img = s.img := rfl
@[simp] theorem setCal_cad (s : State) (x : Cal) : (setCal s x).cad = s.cad := rfl
@[simp] theorem setCal_pwr (s : State) (x : Cal) : (setCal s x).pwr = s.pwr := rfl
@[simp] theorem setCal_thm (s : State) (x : Cal) : (setCal s x).thm = s.thm := rfl

@[simp] theorem setCad_pending (s : State) (x : Cadence) : (setCad s x).pending = s.pending := rfl
@[simp] theorem setCad_cycle (s : State) (x : Cadence) : (setCad s x).cycle = s.cycle := rfl
@[simp] theorem setCad_fresh (s : State) (x : Cadence) : (setCad s x).fresh = s.fresh := rfl
@[simp] theorem setCad_regs (s : State) (x : Cadence) : (setCad s x).regs = s.regs := rfl
@[simp] theorem setCad_latches (s : State) (x : Cadence) : (setCad s x).latches = s.latches := rfl
@[simp] theorem setCad_regResp (s : State) (x : Cadence) : (setCad s x).regResp = s.regResp := rfl
@[simp] theorem setCad_grains (s : State) (x : Cadence) : (setCad s x).grains = s.grains := rfl
@[simp] theorem setCad_sheaves (s : State) (x : Cadence) : (setCad s x).sheaves = s.sheaves := rfl
@[simp] theorem setCad_ears (s : State) (x : Cadence) : (setCad s x).ears = s.ears := rfl
@[simp] theorem setCad_epochs (s : State) (x : Cadence) : (setCad s x).epochs = s.epochs := rfl
@[simp] theorem setCad_halves (s : State) (x : Cadence) : (setCad s x).halves = s.halves := rfl
@[simp] theorem setCad_spares (s : State) (x : Cadence) : (setCad s x).spares = s.spares := rfl
@[simp] theorem setCad_merges (s : State) (x : Cadence) : (setCad s x).merges = s.merges := rfl
@[simp] theorem setCad_flue (s : State) (x : Cadence) : (setCad s x).flue = s.flue := rfl
@[simp] theorem setCad_flueWait (s : State) (x : Cadence) : (setCad s x).flueWait = s.flueWait := rfl
@[simp] theorem setCad_flueNear (s : State) (x : Cadence) : (setCad s x).flueNear = s.flueNear := rfl
@[simp] theorem setCad_mesh (s : State) (x : Cadence) : (setCad s x).mesh = s.mesh := rfl
@[simp] theorem setCad_reqs (s : State) (x : Cadence) : (setCad s x).reqs = s.reqs := rfl
@[simp] theorem setCad_posts (s : State) (x : Cadence) : (setCad s x).posts = s.posts := rfl
@[simp] theorem setCad_notices (s : State) (x : Cadence) : (setCad s x).notices = s.notices := rfl
@[simp] theorem setCad_onceBeat (s : State) (x : Cadence) : (setCad s x).onceBeat = s.onceBeat := rfl
@[simp] theorem setCad_standbyWrites (s : State) (x : Cadence) : (setCad s x).standbyWrites = s.standbyWrites := rfl
@[simp] theorem setCad_evq (s : State) (x : Cadence) : (setCad s x).evq = s.evq := rfl
@[simp] theorem setCad_log (s : State) (x : Cadence) : (setCad s x).log = s.log := rfl
@[simp] theorem setCad_time (s : State) (x : Cadence) : (setCad s x).time = s.time := rfl
@[simp] theorem setCad_beat (s : State) (x : Cadence) : (setCad s x).beat = s.beat := rfl
@[simp] theorem setCad_sheafMap (s : State) (x : Cadence) : (setCad s x).sheafMap = s.sheafMap := rfl
@[simp] theorem setCad_bins (s : State) (x : Cadence) : (setCad s x).bins = s.bins := rfl
@[simp] theorem setCad_cribs (s : State) (x : Cadence) : (setCad s x).cribs = s.cribs := rfl
@[simp] theorem setCad_granary (s : State) (x : Cadence) : (setCad s x).granary = s.granary := rfl
@[simp] theorem setCad_host (s : State) (x : Cadence) : (setCad s x).host = s.host := rfl
@[simp] theorem setCad_links (s : State) (x : Cadence) : (setCad s x).links = s.links := rfl
@[simp] theorem setCad_cribTx (s : State) (x : Cadence) : (setCad s x).cribTx = s.cribTx := rfl
@[simp] theorem setCad_nextTag (s : State) (x : Cadence) : (setCad s x).nextTag = s.nextTag := rfl
@[simp] theorem setCad_sends (s : State) (x : Cadence) : (setCad s x).sends = s.sends := rfl
@[simp] theorem setCad_relays (s : State) (x : Cadence) : (setCad s x).relays = s.relays := rfl
@[simp] theorem setCad_recvs (s : State) (x : Cadence) : (setCad s x).recvs = s.recvs := rfl
@[simp] theorem setCad_rick (s : State) (x : Cadence) : (setCad s x).rick = s.rick := rfl
@[simp] theorem setCad_reseeds (s : State) (x : Cadence) : (setCad s x).reseeds = s.reseeds := rfl
@[simp] theorem setCad_hop (s : State) (x : Cadence) : (setCad s x).hop = s.hop := rfl
@[simp] theorem setCad_record (s : State) (x : Cadence) : (setCad s x).record = s.record := rfl
@[simp] theorem setCad_store (s : State) (x : Cadence) : (setCad s x).store = s.store := rfl
@[simp] theorem setCad_flt (s : State) (x : Cadence) : (setCad s x).flt = s.flt := rfl
@[simp] theorem setCad_img (s : State) (x : Cadence) : (setCad s x).img = s.img := rfl
@[simp] theorem setCad_cal (s : State) (x : Cadence) : (setCad s x).cal = s.cal := rfl
@[simp] theorem setCad_pwr (s : State) (x : Cadence) : (setCad s x).pwr = s.pwr := rfl
@[simp] theorem setCad_thm (s : State) (x : Cadence) : (setCad s x).thm = s.thm := rfl

@[simp] theorem setFlt_pending (s : State) (x : Faults) : (setFlt s x).pending = s.pending := rfl
@[simp] theorem setFlt_cycle (s : State) (x : Faults) : (setFlt s x).cycle = s.cycle := rfl
@[simp] theorem setFlt_fresh (s : State) (x : Faults) : (setFlt s x).fresh = s.fresh := rfl
@[simp] theorem setFlt_regs (s : State) (x : Faults) : (setFlt s x).regs = s.regs := rfl
@[simp] theorem setFlt_latches (s : State) (x : Faults) : (setFlt s x).latches = s.latches := rfl
@[simp] theorem setFlt_regResp (s : State) (x : Faults) : (setFlt s x).regResp = s.regResp := rfl
@[simp] theorem setFlt_grains (s : State) (x : Faults) : (setFlt s x).grains = s.grains := rfl
@[simp] theorem setFlt_sheaves (s : State) (x : Faults) : (setFlt s x).sheaves = s.sheaves := rfl
@[simp] theorem setFlt_ears (s : State) (x : Faults) : (setFlt s x).ears = s.ears := rfl
@[simp] theorem setFlt_epochs (s : State) (x : Faults) : (setFlt s x).epochs = s.epochs := rfl
@[simp] theorem setFlt_halves (s : State) (x : Faults) : (setFlt s x).halves = s.halves := rfl
@[simp] theorem setFlt_spares (s : State) (x : Faults) : (setFlt s x).spares = s.spares := rfl
@[simp] theorem setFlt_merges (s : State) (x : Faults) : (setFlt s x).merges = s.merges := rfl
@[simp] theorem setFlt_flue (s : State) (x : Faults) : (setFlt s x).flue = s.flue := rfl
@[simp] theorem setFlt_flueWait (s : State) (x : Faults) : (setFlt s x).flueWait = s.flueWait := rfl
@[simp] theorem setFlt_flueNear (s : State) (x : Faults) : (setFlt s x).flueNear = s.flueNear := rfl
@[simp] theorem setFlt_mesh (s : State) (x : Faults) : (setFlt s x).mesh = s.mesh := rfl
@[simp] theorem setFlt_reqs (s : State) (x : Faults) : (setFlt s x).reqs = s.reqs := rfl
@[simp] theorem setFlt_posts (s : State) (x : Faults) : (setFlt s x).posts = s.posts := rfl
@[simp] theorem setFlt_notices (s : State) (x : Faults) : (setFlt s x).notices = s.notices := rfl
@[simp] theorem setFlt_onceBeat (s : State) (x : Faults) : (setFlt s x).onceBeat = s.onceBeat := rfl
@[simp] theorem setFlt_standbyWrites (s : State) (x : Faults) : (setFlt s x).standbyWrites = s.standbyWrites := rfl
@[simp] theorem setFlt_evq (s : State) (x : Faults) : (setFlt s x).evq = s.evq := rfl
@[simp] theorem setFlt_log (s : State) (x : Faults) : (setFlt s x).log = s.log := rfl
@[simp] theorem setFlt_time (s : State) (x : Faults) : (setFlt s x).time = s.time := rfl
@[simp] theorem setFlt_beat (s : State) (x : Faults) : (setFlt s x).beat = s.beat := rfl
@[simp] theorem setFlt_sheafMap (s : State) (x : Faults) : (setFlt s x).sheafMap = s.sheafMap := rfl
@[simp] theorem setFlt_bins (s : State) (x : Faults) : (setFlt s x).bins = s.bins := rfl
@[simp] theorem setFlt_cribs (s : State) (x : Faults) : (setFlt s x).cribs = s.cribs := rfl
@[simp] theorem setFlt_granary (s : State) (x : Faults) : (setFlt s x).granary = s.granary := rfl
@[simp] theorem setFlt_host (s : State) (x : Faults) : (setFlt s x).host = s.host := rfl
@[simp] theorem setFlt_links (s : State) (x : Faults) : (setFlt s x).links = s.links := rfl
@[simp] theorem setFlt_cribTx (s : State) (x : Faults) : (setFlt s x).cribTx = s.cribTx := rfl
@[simp] theorem setFlt_nextTag (s : State) (x : Faults) : (setFlt s x).nextTag = s.nextTag := rfl
@[simp] theorem setFlt_sends (s : State) (x : Faults) : (setFlt s x).sends = s.sends := rfl
@[simp] theorem setFlt_relays (s : State) (x : Faults) : (setFlt s x).relays = s.relays := rfl
@[simp] theorem setFlt_recvs (s : State) (x : Faults) : (setFlt s x).recvs = s.recvs := rfl
@[simp] theorem setFlt_rick (s : State) (x : Faults) : (setFlt s x).rick = s.rick := rfl
@[simp] theorem setFlt_reseeds (s : State) (x : Faults) : (setFlt s x).reseeds = s.reseeds := rfl
@[simp] theorem setFlt_hop (s : State) (x : Faults) : (setFlt s x).hop = s.hop := rfl
@[simp] theorem setFlt_record (s : State) (x : Faults) : (setFlt s x).record = s.record := rfl
@[simp] theorem setFlt_store (s : State) (x : Faults) : (setFlt s x).store = s.store := rfl
@[simp] theorem setFlt_img (s : State) (x : Faults) : (setFlt s x).img = s.img := rfl
@[simp] theorem setFlt_cad (s : State) (x : Faults) : (setFlt s x).cad = s.cad := rfl
@[simp] theorem setFlt_cal (s : State) (x : Faults) : (setFlt s x).cal = s.cal := rfl
@[simp] theorem setFlt_pwr (s : State) (x : Faults) : (setFlt s x).pwr = s.pwr := rfl
@[simp] theorem setFlt_thm (s : State) (x : Faults) : (setFlt s x).thm = s.thm := rfl

@[simp] theorem setStore_pending (s : State) (x : Store) : (setStore s x).pending = s.pending := rfl
@[simp] theorem setStore_cycle (s : State) (x : Store) : (setStore s x).cycle = s.cycle := rfl
@[simp] theorem setStore_fresh (s : State) (x : Store) : (setStore s x).fresh = s.fresh := rfl
@[simp] theorem setStore_regs (s : State) (x : Store) : (setStore s x).regs = s.regs := rfl
@[simp] theorem setStore_latches (s : State) (x : Store) : (setStore s x).latches = s.latches := rfl
@[simp] theorem setStore_regResp (s : State) (x : Store) : (setStore s x).regResp = s.regResp := rfl
@[simp] theorem setStore_grains (s : State) (x : Store) : (setStore s x).grains = s.grains := rfl
@[simp] theorem setStore_sheaves (s : State) (x : Store) : (setStore s x).sheaves = s.sheaves := rfl
@[simp] theorem setStore_ears (s : State) (x : Store) : (setStore s x).ears = s.ears := rfl
@[simp] theorem setStore_epochs (s : State) (x : Store) : (setStore s x).epochs = s.epochs := rfl
@[simp] theorem setStore_halves (s : State) (x : Store) : (setStore s x).halves = s.halves := rfl
@[simp] theorem setStore_spares (s : State) (x : Store) : (setStore s x).spares = s.spares := rfl
@[simp] theorem setStore_merges (s : State) (x : Store) : (setStore s x).merges = s.merges := rfl
@[simp] theorem setStore_flue (s : State) (x : Store) : (setStore s x).flue = s.flue := rfl
@[simp] theorem setStore_flueWait (s : State) (x : Store) : (setStore s x).flueWait = s.flueWait := rfl
@[simp] theorem setStore_flueNear (s : State) (x : Store) : (setStore s x).flueNear = s.flueNear := rfl
@[simp] theorem setStore_mesh (s : State) (x : Store) : (setStore s x).mesh = s.mesh := rfl
@[simp] theorem setStore_reqs (s : State) (x : Store) : (setStore s x).reqs = s.reqs := rfl
@[simp] theorem setStore_posts (s : State) (x : Store) : (setStore s x).posts = s.posts := rfl
@[simp] theorem setStore_notices (s : State) (x : Store) : (setStore s x).notices = s.notices := rfl
@[simp] theorem setStore_onceBeat (s : State) (x : Store) : (setStore s x).onceBeat = s.onceBeat := rfl
@[simp] theorem setStore_standbyWrites (s : State) (x : Store) : (setStore s x).standbyWrites = s.standbyWrites := rfl
@[simp] theorem setStore_evq (s : State) (x : Store) : (setStore s x).evq = s.evq := rfl
@[simp] theorem setStore_log (s : State) (x : Store) : (setStore s x).log = s.log := rfl
@[simp] theorem setStore_time (s : State) (x : Store) : (setStore s x).time = s.time := rfl
@[simp] theorem setStore_beat (s : State) (x : Store) : (setStore s x).beat = s.beat := rfl
@[simp] theorem setStore_sheafMap (s : State) (x : Store) : (setStore s x).sheafMap = s.sheafMap := rfl
@[simp] theorem setStore_bins (s : State) (x : Store) : (setStore s x).bins = s.bins := rfl
@[simp] theorem setStore_cribs (s : State) (x : Store) : (setStore s x).cribs = s.cribs := rfl
@[simp] theorem setStore_granary (s : State) (x : Store) : (setStore s x).granary = s.granary := rfl
@[simp] theorem setStore_host (s : State) (x : Store) : (setStore s x).host = s.host := rfl
@[simp] theorem setStore_links (s : State) (x : Store) : (setStore s x).links = s.links := rfl
@[simp] theorem setStore_cribTx (s : State) (x : Store) : (setStore s x).cribTx = s.cribTx := rfl
@[simp] theorem setStore_nextTag (s : State) (x : Store) : (setStore s x).nextTag = s.nextTag := rfl
@[simp] theorem setStore_sends (s : State) (x : Store) : (setStore s x).sends = s.sends := rfl
@[simp] theorem setStore_relays (s : State) (x : Store) : (setStore s x).relays = s.relays := rfl
@[simp] theorem setStore_recvs (s : State) (x : Store) : (setStore s x).recvs = s.recvs := rfl
@[simp] theorem setStore_rick (s : State) (x : Store) : (setStore s x).rick = s.rick := rfl
@[simp] theorem setStore_reseeds (s : State) (x : Store) : (setStore s x).reseeds = s.reseeds := rfl
@[simp] theorem setStore_hop (s : State) (x : Store) : (setStore s x).hop = s.hop := rfl
@[simp] theorem setStore_record (s : State) (x : Store) : (setStore s x).record = s.record := rfl
@[simp] theorem setStore_flt (s : State) (x : Store) : (setStore s x).flt = s.flt := rfl
@[simp] theorem setStore_img (s : State) (x : Store) : (setStore s x).img = s.img := rfl
@[simp] theorem setStore_cad (s : State) (x : Store) : (setStore s x).cad = s.cad := rfl
@[simp] theorem setStore_cal (s : State) (x : Store) : (setStore s x).cal = s.cal := rfl
@[simp] theorem setStore_pwr (s : State) (x : Store) : (setStore s x).pwr = s.pwr := rfl
@[simp] theorem setStore_thm (s : State) (x : Store) : (setStore s x).thm = s.thm := rfl

@[simp] theorem setImg_pending (s : State) (x : ImgStore) : (setImg s x).pending = s.pending := rfl
@[simp] theorem setImg_cycle (s : State) (x : ImgStore) : (setImg s x).cycle = s.cycle := rfl
@[simp] theorem setImg_fresh (s : State) (x : ImgStore) : (setImg s x).fresh = s.fresh := rfl
@[simp] theorem setImg_regs (s : State) (x : ImgStore) : (setImg s x).regs = s.regs := rfl
@[simp] theorem setImg_latches (s : State) (x : ImgStore) : (setImg s x).latches = s.latches := rfl
@[simp] theorem setImg_regResp (s : State) (x : ImgStore) : (setImg s x).regResp = s.regResp := rfl
@[simp] theorem setImg_grains (s : State) (x : ImgStore) : (setImg s x).grains = s.grains := rfl
@[simp] theorem setImg_sheaves (s : State) (x : ImgStore) : (setImg s x).sheaves = s.sheaves := rfl
@[simp] theorem setImg_ears (s : State) (x : ImgStore) : (setImg s x).ears = s.ears := rfl
@[simp] theorem setImg_epochs (s : State) (x : ImgStore) : (setImg s x).epochs = s.epochs := rfl
@[simp] theorem setImg_halves (s : State) (x : ImgStore) : (setImg s x).halves = s.halves := rfl
@[simp] theorem setImg_spares (s : State) (x : ImgStore) : (setImg s x).spares = s.spares := rfl
@[simp] theorem setImg_merges (s : State) (x : ImgStore) : (setImg s x).merges = s.merges := rfl
@[simp] theorem setImg_flue (s : State) (x : ImgStore) : (setImg s x).flue = s.flue := rfl
@[simp] theorem setImg_flueWait (s : State) (x : ImgStore) : (setImg s x).flueWait = s.flueWait := rfl
@[simp] theorem setImg_flueNear (s : State) (x : ImgStore) : (setImg s x).flueNear = s.flueNear := rfl
@[simp] theorem setImg_mesh (s : State) (x : ImgStore) : (setImg s x).mesh = s.mesh := rfl
@[simp] theorem setImg_reqs (s : State) (x : ImgStore) : (setImg s x).reqs = s.reqs := rfl
@[simp] theorem setImg_posts (s : State) (x : ImgStore) : (setImg s x).posts = s.posts := rfl
@[simp] theorem setImg_notices (s : State) (x : ImgStore) : (setImg s x).notices = s.notices := rfl
@[simp] theorem setImg_onceBeat (s : State) (x : ImgStore) : (setImg s x).onceBeat = s.onceBeat := rfl
@[simp] theorem setImg_standbyWrites (s : State) (x : ImgStore) : (setImg s x).standbyWrites = s.standbyWrites := rfl
@[simp] theorem setImg_evq (s : State) (x : ImgStore) : (setImg s x).evq = s.evq := rfl
@[simp] theorem setImg_log (s : State) (x : ImgStore) : (setImg s x).log = s.log := rfl
@[simp] theorem setImg_time (s : State) (x : ImgStore) : (setImg s x).time = s.time := rfl
@[simp] theorem setImg_beat (s : State) (x : ImgStore) : (setImg s x).beat = s.beat := rfl
@[simp] theorem setImg_sheafMap (s : State) (x : ImgStore) : (setImg s x).sheafMap = s.sheafMap := rfl
@[simp] theorem setImg_bins (s : State) (x : ImgStore) : (setImg s x).bins = s.bins := rfl
@[simp] theorem setImg_cribs (s : State) (x : ImgStore) : (setImg s x).cribs = s.cribs := rfl
@[simp] theorem setImg_granary (s : State) (x : ImgStore) : (setImg s x).granary = s.granary := rfl
@[simp] theorem setImg_host (s : State) (x : ImgStore) : (setImg s x).host = s.host := rfl
@[simp] theorem setImg_links (s : State) (x : ImgStore) : (setImg s x).links = s.links := rfl
@[simp] theorem setImg_cribTx (s : State) (x : ImgStore) : (setImg s x).cribTx = s.cribTx := rfl
@[simp] theorem setImg_nextTag (s : State) (x : ImgStore) : (setImg s x).nextTag = s.nextTag := rfl
@[simp] theorem setImg_sends (s : State) (x : ImgStore) : (setImg s x).sends = s.sends := rfl
@[simp] theorem setImg_relays (s : State) (x : ImgStore) : (setImg s x).relays = s.relays := rfl
@[simp] theorem setImg_recvs (s : State) (x : ImgStore) : (setImg s x).recvs = s.recvs := rfl
@[simp] theorem setImg_rick (s : State) (x : ImgStore) : (setImg s x).rick = s.rick := rfl
@[simp] theorem setImg_reseeds (s : State) (x : ImgStore) : (setImg s x).reseeds = s.reseeds := rfl
@[simp] theorem setImg_hop (s : State) (x : ImgStore) : (setImg s x).hop = s.hop := rfl
@[simp] theorem setImg_record (s : State) (x : ImgStore) : (setImg s x).record = s.record := rfl
@[simp] theorem setImg_store (s : State) (x : ImgStore) : (setImg s x).store = s.store := rfl
@[simp] theorem setImg_flt (s : State) (x : ImgStore) : (setImg s x).flt = s.flt := rfl
@[simp] theorem setImg_cad (s : State) (x : ImgStore) : (setImg s x).cad = s.cad := rfl
@[simp] theorem setImg_cal (s : State) (x : ImgStore) : (setImg s x).cal = s.cal := rfl
@[simp] theorem setImg_pwr (s : State) (x : ImgStore) : (setImg s x).pwr = s.pwr := rfl
@[simp] theorem setImg_thm (s : State) (x : ImgStore) : (setImg s x).thm = s.thm := rfl

@[simp] theorem setEar_pending (s : State) (e : Nat) (x : EarPw) : (setEar s e x).pending = s.pending := rfl
@[simp] theorem setEar_cycle (s : State) (e : Nat) (x : EarPw) : (setEar s e x).cycle = s.cycle := rfl
@[simp] theorem setEar_fresh (s : State) (e : Nat) (x : EarPw) : (setEar s e x).fresh = s.fresh := rfl
@[simp] theorem setEar_regs (s : State) (e : Nat) (x : EarPw) : (setEar s e x).regs = s.regs := rfl
@[simp] theorem setEar_latches (s : State) (e : Nat) (x : EarPw) : (setEar s e x).latches = s.latches := rfl
@[simp] theorem setEar_regResp (s : State) (e : Nat) (x : EarPw) : (setEar s e x).regResp = s.regResp := rfl
@[simp] theorem setEar_grains (s : State) (e : Nat) (x : EarPw) : (setEar s e x).grains = s.grains := rfl
@[simp] theorem setEar_sheaves (s : State) (e : Nat) (x : EarPw) : (setEar s e x).sheaves = s.sheaves := rfl
@[simp] theorem setEar_epochs (s : State) (e : Nat) (x : EarPw) : (setEar s e x).epochs = s.epochs := rfl
@[simp] theorem setEar_halves (s : State) (e : Nat) (x : EarPw) : (setEar s e x).halves = s.halves := rfl
@[simp] theorem setEar_spares (s : State) (e : Nat) (x : EarPw) : (setEar s e x).spares = s.spares := rfl
@[simp] theorem setEar_merges (s : State) (e : Nat) (x : EarPw) : (setEar s e x).merges = s.merges := rfl
@[simp] theorem setEar_flue (s : State) (e : Nat) (x : EarPw) : (setEar s e x).flue = s.flue := rfl
@[simp] theorem setEar_flueWait (s : State) (e : Nat) (x : EarPw) : (setEar s e x).flueWait = s.flueWait := rfl
@[simp] theorem setEar_flueNear (s : State) (e : Nat) (x : EarPw) : (setEar s e x).flueNear = s.flueNear := rfl
@[simp] theorem setEar_mesh (s : State) (e : Nat) (x : EarPw) : (setEar s e x).mesh = s.mesh := rfl
@[simp] theorem setEar_reqs (s : State) (e : Nat) (x : EarPw) : (setEar s e x).reqs = s.reqs := rfl
@[simp] theorem setEar_posts (s : State) (e : Nat) (x : EarPw) : (setEar s e x).posts = s.posts := rfl
@[simp] theorem setEar_notices (s : State) (e : Nat) (x : EarPw) : (setEar s e x).notices = s.notices := rfl
@[simp] theorem setEar_onceBeat (s : State) (e : Nat) (x : EarPw) : (setEar s e x).onceBeat = s.onceBeat := rfl
@[simp] theorem setEar_standbyWrites (s : State) (e : Nat) (x : EarPw) : (setEar s e x).standbyWrites = s.standbyWrites := rfl
@[simp] theorem setEar_evq (s : State) (e : Nat) (x : EarPw) : (setEar s e x).evq = s.evq := rfl
@[simp] theorem setEar_log (s : State) (e : Nat) (x : EarPw) : (setEar s e x).log = s.log := rfl
@[simp] theorem setEar_time (s : State) (e : Nat) (x : EarPw) : (setEar s e x).time = s.time := rfl
@[simp] theorem setEar_beat (s : State) (e : Nat) (x : EarPw) : (setEar s e x).beat = s.beat := rfl
@[simp] theorem setEar_sheafMap (s : State) (e : Nat) (x : EarPw) : (setEar s e x).sheafMap = s.sheafMap := rfl
@[simp] theorem setEar_bins (s : State) (e : Nat) (x : EarPw) : (setEar s e x).bins = s.bins := rfl
@[simp] theorem setEar_cribs (s : State) (e : Nat) (x : EarPw) : (setEar s e x).cribs = s.cribs := rfl
@[simp] theorem setEar_granary (s : State) (e : Nat) (x : EarPw) : (setEar s e x).granary = s.granary := rfl
@[simp] theorem setEar_host (s : State) (e : Nat) (x : EarPw) : (setEar s e x).host = s.host := rfl
@[simp] theorem setEar_links (s : State) (e : Nat) (x : EarPw) : (setEar s e x).links = s.links := rfl
@[simp] theorem setEar_cribTx (s : State) (e : Nat) (x : EarPw) : (setEar s e x).cribTx = s.cribTx := rfl
@[simp] theorem setEar_nextTag (s : State) (e : Nat) (x : EarPw) : (setEar s e x).nextTag = s.nextTag := rfl
@[simp] theorem setEar_sends (s : State) (e : Nat) (x : EarPw) : (setEar s e x).sends = s.sends := rfl
@[simp] theorem setEar_relays (s : State) (e : Nat) (x : EarPw) : (setEar s e x).relays = s.relays := rfl
@[simp] theorem setEar_recvs (s : State) (e : Nat) (x : EarPw) : (setEar s e x).recvs = s.recvs := rfl
@[simp] theorem setEar_rick (s : State) (e : Nat) (x : EarPw) : (setEar s e x).rick = s.rick := rfl
@[simp] theorem setEar_reseeds (s : State) (e : Nat) (x : EarPw) : (setEar s e x).reseeds = s.reseeds := rfl
@[simp] theorem setEar_hop (s : State) (e : Nat) (x : EarPw) : (setEar s e x).hop = s.hop := rfl
@[simp] theorem setEar_record (s : State) (e : Nat) (x : EarPw) : (setEar s e x).record = s.record := rfl
@[simp] theorem setEar_store (s : State) (e : Nat) (x : EarPw) : (setEar s e x).store = s.store := rfl
@[simp] theorem setEar_flt (s : State) (e : Nat) (x : EarPw) : (setEar s e x).flt = s.flt := rfl
@[simp] theorem setEar_img (s : State) (e : Nat) (x : EarPw) : (setEar s e x).img = s.img := rfl
@[simp] theorem setEar_cad (s : State) (e : Nat) (x : EarPw) : (setEar s e x).cad = s.cad := rfl
@[simp] theorem setEar_cal (s : State) (e : Nat) (x : EarPw) : (setEar s e x).cal = s.cal := rfl
@[simp] theorem setEar_pwr (s : State) (e : Nat) (x : EarPw) : (setEar s e x).pwr = s.pwr := rfl
@[simp] theorem setEar_thm (s : State) (e : Nat) (x : EarPw) : (setEar s e x).thm = s.thm := rfl

@[simp] theorem setFlue_pending (s : State) (b d i : Nat) (e : FlueEntry) : (setFlue s b d i e).pending = s.pending := rfl
@[simp] theorem setFlue_cycle (s : State) (b d i : Nat) (e : FlueEntry) : (setFlue s b d i e).cycle = s.cycle := rfl
@[simp] theorem setFlue_fresh (s : State) (b d i : Nat) (e : FlueEntry) : (setFlue s b d i e).fresh = s.fresh := rfl
@[simp] theorem setFlue_regs (s : State) (b d i : Nat) (e : FlueEntry) : (setFlue s b d i e).regs = s.regs := rfl
@[simp] theorem setFlue_latches (s : State) (b d i : Nat) (e : FlueEntry) : (setFlue s b d i e).latches = s.latches := rfl
@[simp] theorem setFlue_regResp (s : State) (b d i : Nat) (e : FlueEntry) : (setFlue s b d i e).regResp = s.regResp := rfl
@[simp] theorem setFlue_grains (s : State) (b d i : Nat) (e : FlueEntry) : (setFlue s b d i e).grains = s.grains := rfl
@[simp] theorem setFlue_sheaves (s : State) (b d i : Nat) (e : FlueEntry) : (setFlue s b d i e).sheaves = s.sheaves := rfl
@[simp] theorem setFlue_ears (s : State) (b d i : Nat) (e : FlueEntry) : (setFlue s b d i e).ears = s.ears := rfl
@[simp] theorem setFlue_epochs (s : State) (b d i : Nat) (e : FlueEntry) : (setFlue s b d i e).epochs = s.epochs := rfl
@[simp] theorem setFlue_halves (s : State) (b d i : Nat) (e : FlueEntry) : (setFlue s b d i e).halves = s.halves := rfl
@[simp] theorem setFlue_spares (s : State) (b d i : Nat) (e : FlueEntry) : (setFlue s b d i e).spares = s.spares := rfl
@[simp] theorem setFlue_merges (s : State) (b d i : Nat) (e : FlueEntry) : (setFlue s b d i e).merges = s.merges := rfl
@[simp] theorem setFlue_flueWait (s : State) (b d i : Nat) (e : FlueEntry) : (setFlue s b d i e).flueWait = s.flueWait := rfl
@[simp] theorem setFlue_flueNear (s : State) (b d i : Nat) (e : FlueEntry) : (setFlue s b d i e).flueNear = s.flueNear := rfl
@[simp] theorem setFlue_mesh (s : State) (b d i : Nat) (e : FlueEntry) : (setFlue s b d i e).mesh = s.mesh := rfl
@[simp] theorem setFlue_reqs (s : State) (b d i : Nat) (e : FlueEntry) : (setFlue s b d i e).reqs = s.reqs := rfl
@[simp] theorem setFlue_posts (s : State) (b d i : Nat) (e : FlueEntry) : (setFlue s b d i e).posts = s.posts := rfl
@[simp] theorem setFlue_notices (s : State) (b d i : Nat) (e : FlueEntry) : (setFlue s b d i e).notices = s.notices := rfl
@[simp] theorem setFlue_onceBeat (s : State) (b d i : Nat) (e : FlueEntry) : (setFlue s b d i e).onceBeat = s.onceBeat := rfl
@[simp] theorem setFlue_standbyWrites (s : State) (b d i : Nat) (e : FlueEntry) : (setFlue s b d i e).standbyWrites = s.standbyWrites := rfl
@[simp] theorem setFlue_evq (s : State) (b d i : Nat) (e : FlueEntry) : (setFlue s b d i e).evq = s.evq := rfl
@[simp] theorem setFlue_log (s : State) (b d i : Nat) (e : FlueEntry) : (setFlue s b d i e).log = s.log := rfl
@[simp] theorem setFlue_time (s : State) (b d i : Nat) (e : FlueEntry) : (setFlue s b d i e).time = s.time := rfl
@[simp] theorem setFlue_beat (s : State) (b d i : Nat) (e : FlueEntry) : (setFlue s b d i e).beat = s.beat := rfl
@[simp] theorem setFlue_sheafMap (s : State) (b d i : Nat) (e : FlueEntry) : (setFlue s b d i e).sheafMap = s.sheafMap := rfl
@[simp] theorem setFlue_bins (s : State) (b d i : Nat) (e : FlueEntry) : (setFlue s b d i e).bins = s.bins := rfl
@[simp] theorem setFlue_cribs (s : State) (b d i : Nat) (e : FlueEntry) : (setFlue s b d i e).cribs = s.cribs := rfl
@[simp] theorem setFlue_granary (s : State) (b d i : Nat) (e : FlueEntry) : (setFlue s b d i e).granary = s.granary := rfl
@[simp] theorem setFlue_host (s : State) (b d i : Nat) (e : FlueEntry) : (setFlue s b d i e).host = s.host := rfl
@[simp] theorem setFlue_links (s : State) (b d i : Nat) (e : FlueEntry) : (setFlue s b d i e).links = s.links := rfl
@[simp] theorem setFlue_cribTx (s : State) (b d i : Nat) (e : FlueEntry) : (setFlue s b d i e).cribTx = s.cribTx := rfl
@[simp] theorem setFlue_nextTag (s : State) (b d i : Nat) (e : FlueEntry) : (setFlue s b d i e).nextTag = s.nextTag := rfl
@[simp] theorem setFlue_sends (s : State) (b d i : Nat) (e : FlueEntry) : (setFlue s b d i e).sends = s.sends := rfl
@[simp] theorem setFlue_relays (s : State) (b d i : Nat) (e : FlueEntry) : (setFlue s b d i e).relays = s.relays := rfl
@[simp] theorem setFlue_recvs (s : State) (b d i : Nat) (e : FlueEntry) : (setFlue s b d i e).recvs = s.recvs := rfl
@[simp] theorem setFlue_rick (s : State) (b d i : Nat) (e : FlueEntry) : (setFlue s b d i e).rick = s.rick := rfl
@[simp] theorem setFlue_reseeds (s : State) (b d i : Nat) (e : FlueEntry) : (setFlue s b d i e).reseeds = s.reseeds := rfl
@[simp] theorem setFlue_hop (s : State) (b d i : Nat) (e : FlueEntry) : (setFlue s b d i e).hop = s.hop := rfl
@[simp] theorem setFlue_record (s : State) (b d i : Nat) (e : FlueEntry) : (setFlue s b d i e).record = s.record := rfl
@[simp] theorem setFlue_store (s : State) (b d i : Nat) (e : FlueEntry) : (setFlue s b d i e).store = s.store := rfl
@[simp] theorem setFlue_flt (s : State) (b d i : Nat) (e : FlueEntry) : (setFlue s b d i e).flt = s.flt := rfl
@[simp] theorem setFlue_img (s : State) (b d i : Nat) (e : FlueEntry) : (setFlue s b d i e).img = s.img := rfl
@[simp] theorem setFlue_cad (s : State) (b d i : Nat) (e : FlueEntry) : (setFlue s b d i e).cad = s.cad := rfl
@[simp] theorem setFlue_cal (s : State) (b d i : Nat) (e : FlueEntry) : (setFlue s b d i e).cal = s.cal := rfl
@[simp] theorem setFlue_pwr (s : State) (b d i : Nat) (e : FlueEntry) : (setFlue s b d i e).pwr = s.pwr := rfl
@[simp] theorem setFlue_thm (s : State) (b d i : Nat) (e : FlueEntry) : (setFlue s b d i e).thm = s.thm := rfl

@[simp] theorem setGry_pending (s : State) (x : Granary) : (setGry s x).pending = s.pending := rfl
@[simp] theorem setGry_cycle (s : State) (x : Granary) : (setGry s x).cycle = s.cycle := rfl
@[simp] theorem setGry_fresh (s : State) (x : Granary) : (setGry s x).fresh = s.fresh := rfl
@[simp] theorem setGry_regs (s : State) (x : Granary) : (setGry s x).regs = s.regs := rfl
@[simp] theorem setGry_latches (s : State) (x : Granary) : (setGry s x).latches = s.latches := rfl
@[simp] theorem setGry_regResp (s : State) (x : Granary) : (setGry s x).regResp = s.regResp := rfl
@[simp] theorem setGry_grains (s : State) (x : Granary) : (setGry s x).grains = s.grains := rfl
@[simp] theorem setGry_sheaves (s : State) (x : Granary) : (setGry s x).sheaves = s.sheaves := rfl
@[simp] theorem setGry_ears (s : State) (x : Granary) : (setGry s x).ears = s.ears := rfl
@[simp] theorem setGry_epochs (s : State) (x : Granary) : (setGry s x).epochs = s.epochs := rfl
@[simp] theorem setGry_halves (s : State) (x : Granary) : (setGry s x).halves = s.halves := rfl
@[simp] theorem setGry_spares (s : State) (x : Granary) : (setGry s x).spares = s.spares := rfl
@[simp] theorem setGry_merges (s : State) (x : Granary) : (setGry s x).merges = s.merges := rfl
@[simp] theorem setGry_flue (s : State) (x : Granary) : (setGry s x).flue = s.flue := rfl
@[simp] theorem setGry_flueWait (s : State) (x : Granary) : (setGry s x).flueWait = s.flueWait := rfl
@[simp] theorem setGry_flueNear (s : State) (x : Granary) : (setGry s x).flueNear = s.flueNear := rfl
@[simp] theorem setGry_mesh (s : State) (x : Granary) : (setGry s x).mesh = s.mesh := rfl
@[simp] theorem setGry_reqs (s : State) (x : Granary) : (setGry s x).reqs = s.reqs := rfl
@[simp] theorem setGry_posts (s : State) (x : Granary) : (setGry s x).posts = s.posts := rfl
@[simp] theorem setGry_notices (s : State) (x : Granary) : (setGry s x).notices = s.notices := rfl
@[simp] theorem setGry_onceBeat (s : State) (x : Granary) : (setGry s x).onceBeat = s.onceBeat := rfl
@[simp] theorem setGry_standbyWrites (s : State) (x : Granary) : (setGry s x).standbyWrites = s.standbyWrites := rfl
@[simp] theorem setGry_evq (s : State) (x : Granary) : (setGry s x).evq = s.evq := rfl
@[simp] theorem setGry_log (s : State) (x : Granary) : (setGry s x).log = s.log := rfl
@[simp] theorem setGry_time (s : State) (x : Granary) : (setGry s x).time = s.time := rfl
@[simp] theorem setGry_beat (s : State) (x : Granary) : (setGry s x).beat = s.beat := rfl
@[simp] theorem setGry_sheafMap (s : State) (x : Granary) : (setGry s x).sheafMap = s.sheafMap := rfl
@[simp] theorem setGry_bins (s : State) (x : Granary) : (setGry s x).bins = s.bins := rfl
@[simp] theorem setGry_cribs (s : State) (x : Granary) : (setGry s x).cribs = s.cribs := rfl
@[simp] theorem setGry_host (s : State) (x : Granary) : (setGry s x).host = s.host := rfl
@[simp] theorem setGry_links (s : State) (x : Granary) : (setGry s x).links = s.links := rfl
@[simp] theorem setGry_cribTx (s : State) (x : Granary) : (setGry s x).cribTx = s.cribTx := rfl
@[simp] theorem setGry_nextTag (s : State) (x : Granary) : (setGry s x).nextTag = s.nextTag := rfl
@[simp] theorem setGry_sends (s : State) (x : Granary) : (setGry s x).sends = s.sends := rfl
@[simp] theorem setGry_relays (s : State) (x : Granary) : (setGry s x).relays = s.relays := rfl
@[simp] theorem setGry_recvs (s : State) (x : Granary) : (setGry s x).recvs = s.recvs := rfl
@[simp] theorem setGry_rick (s : State) (x : Granary) : (setGry s x).rick = s.rick := rfl
@[simp] theorem setGry_reseeds (s : State) (x : Granary) : (setGry s x).reseeds = s.reseeds := rfl
@[simp] theorem setGry_hop (s : State) (x : Granary) : (setGry s x).hop = s.hop := rfl
@[simp] theorem setGry_record (s : State) (x : Granary) : (setGry s x).record = s.record := rfl
@[simp] theorem setGry_store (s : State) (x : Granary) : (setGry s x).store = s.store := rfl
@[simp] theorem setGry_flt (s : State) (x : Granary) : (setGry s x).flt = s.flt := rfl
@[simp] theorem setGry_img (s : State) (x : Granary) : (setGry s x).img = s.img := rfl
@[simp] theorem setGry_cad (s : State) (x : Granary) : (setGry s x).cad = s.cad := rfl
@[simp] theorem setGry_cal (s : State) (x : Granary) : (setGry s x).cal = s.cal := rfl
@[simp] theorem setGry_pwr (s : State) (x : Granary) : (setGry s x).pwr = s.pwr := rfl
@[simp] theorem setGry_thm (s : State) (x : Granary) : (setGry s x).thm = s.thm := rfl

@[simp] theorem setRegion_pending (s : State) (f : Nat) (x : Region) : (setRegion s f x).pending = s.pending := rfl
@[simp] theorem setRegion_cycle (s : State) (f : Nat) (x : Region) : (setRegion s f x).cycle = s.cycle := rfl
@[simp] theorem setRegion_fresh (s : State) (f : Nat) (x : Region) : (setRegion s f x).fresh = s.fresh := rfl
@[simp] theorem setRegion_regs (s : State) (f : Nat) (x : Region) : (setRegion s f x).regs = s.regs := rfl
@[simp] theorem setRegion_latches (s : State) (f : Nat) (x : Region) : (setRegion s f x).latches = s.latches := rfl
@[simp] theorem setRegion_regResp (s : State) (f : Nat) (x : Region) : (setRegion s f x).regResp = s.regResp := rfl
@[simp] theorem setRegion_grains (s : State) (f : Nat) (x : Region) : (setRegion s f x).grains = s.grains := rfl
@[simp] theorem setRegion_sheaves (s : State) (f : Nat) (x : Region) : (setRegion s f x).sheaves = s.sheaves := rfl
@[simp] theorem setRegion_ears (s : State) (f : Nat) (x : Region) : (setRegion s f x).ears = s.ears := rfl
@[simp] theorem setRegion_epochs (s : State) (f : Nat) (x : Region) : (setRegion s f x).epochs = s.epochs := rfl
@[simp] theorem setRegion_halves (s : State) (f : Nat) (x : Region) : (setRegion s f x).halves = s.halves := rfl
@[simp] theorem setRegion_spares (s : State) (f : Nat) (x : Region) : (setRegion s f x).spares = s.spares := rfl
@[simp] theorem setRegion_merges (s : State) (f : Nat) (x : Region) : (setRegion s f x).merges = s.merges := rfl
@[simp] theorem setRegion_flue (s : State) (f : Nat) (x : Region) : (setRegion s f x).flue = s.flue := rfl
@[simp] theorem setRegion_flueWait (s : State) (f : Nat) (x : Region) : (setRegion s f x).flueWait = s.flueWait := rfl
@[simp] theorem setRegion_flueNear (s : State) (f : Nat) (x : Region) : (setRegion s f x).flueNear = s.flueNear := rfl
@[simp] theorem setRegion_mesh (s : State) (f : Nat) (x : Region) : (setRegion s f x).mesh = s.mesh := rfl
@[simp] theorem setRegion_reqs (s : State) (f : Nat) (x : Region) : (setRegion s f x).reqs = s.reqs := rfl
@[simp] theorem setRegion_posts (s : State) (f : Nat) (x : Region) : (setRegion s f x).posts = s.posts := rfl
@[simp] theorem setRegion_notices (s : State) (f : Nat) (x : Region) : (setRegion s f x).notices = s.notices := rfl
@[simp] theorem setRegion_onceBeat (s : State) (f : Nat) (x : Region) : (setRegion s f x).onceBeat = s.onceBeat := rfl
@[simp] theorem setRegion_standbyWrites (s : State) (f : Nat) (x : Region) : (setRegion s f x).standbyWrites = s.standbyWrites := rfl
@[simp] theorem setRegion_evq (s : State) (f : Nat) (x : Region) : (setRegion s f x).evq = s.evq := rfl
@[simp] theorem setRegion_log (s : State) (f : Nat) (x : Region) : (setRegion s f x).log = s.log := rfl
@[simp] theorem setRegion_time (s : State) (f : Nat) (x : Region) : (setRegion s f x).time = s.time := rfl
@[simp] theorem setRegion_beat (s : State) (f : Nat) (x : Region) : (setRegion s f x).beat = s.beat := rfl
@[simp] theorem setRegion_sheafMap (s : State) (f : Nat) (x : Region) : (setRegion s f x).sheafMap = s.sheafMap := rfl
@[simp] theorem setRegion_bins (s : State) (f : Nat) (x : Region) : (setRegion s f x).bins = s.bins := rfl
@[simp] theorem setRegion_cribs (s : State) (f : Nat) (x : Region) : (setRegion s f x).cribs = s.cribs := rfl
@[simp] theorem setRegion_host (s : State) (f : Nat) (x : Region) : (setRegion s f x).host = s.host := rfl
@[simp] theorem setRegion_links (s : State) (f : Nat) (x : Region) : (setRegion s f x).links = s.links := rfl
@[simp] theorem setRegion_cribTx (s : State) (f : Nat) (x : Region) : (setRegion s f x).cribTx = s.cribTx := rfl
@[simp] theorem setRegion_nextTag (s : State) (f : Nat) (x : Region) : (setRegion s f x).nextTag = s.nextTag := rfl
@[simp] theorem setRegion_sends (s : State) (f : Nat) (x : Region) : (setRegion s f x).sends = s.sends := rfl
@[simp] theorem setRegion_relays (s : State) (f : Nat) (x : Region) : (setRegion s f x).relays = s.relays := rfl
@[simp] theorem setRegion_recvs (s : State) (f : Nat) (x : Region) : (setRegion s f x).recvs = s.recvs := rfl
@[simp] theorem setRegion_rick (s : State) (f : Nat) (x : Region) : (setRegion s f x).rick = s.rick := rfl
@[simp] theorem setRegion_reseeds (s : State) (f : Nat) (x : Region) : (setRegion s f x).reseeds = s.reseeds := rfl
@[simp] theorem setRegion_hop (s : State) (f : Nat) (x : Region) : (setRegion s f x).hop = s.hop := rfl
@[simp] theorem setRegion_record (s : State) (f : Nat) (x : Region) : (setRegion s f x).record = s.record := rfl
@[simp] theorem setRegion_store (s : State) (f : Nat) (x : Region) : (setRegion s f x).store = s.store := rfl
@[simp] theorem setRegion_flt (s : State) (f : Nat) (x : Region) : (setRegion s f x).flt = s.flt := rfl
@[simp] theorem setRegion_img (s : State) (f : Nat) (x : Region) : (setRegion s f x).img = s.img := rfl
@[simp] theorem setRegion_cad (s : State) (f : Nat) (x : Region) : (setRegion s f x).cad = s.cad := rfl
@[simp] theorem setRegion_cal (s : State) (f : Nat) (x : Region) : (setRegion s f x).cal = s.cal := rfl
@[simp] theorem setRegion_pwr (s : State) (f : Nat) (x : Region) : (setRegion s f x).pwr = s.pwr := rfl
@[simp] theorem setRegion_thm (s : State) (f : Nat) (x : Region) : (setRegion s f x).thm = s.thm := rfl

@[simp] theorem setHop_pending (s : State) (x : Hopper) : (setHop s x).pending = s.pending := rfl
@[simp] theorem setHop_cycle (s : State) (x : Hopper) : (setHop s x).cycle = s.cycle := rfl
@[simp] theorem setHop_fresh (s : State) (x : Hopper) : (setHop s x).fresh = s.fresh := rfl
@[simp] theorem setHop_regs (s : State) (x : Hopper) : (setHop s x).regs = s.regs := rfl
@[simp] theorem setHop_latches (s : State) (x : Hopper) : (setHop s x).latches = s.latches := rfl
@[simp] theorem setHop_regResp (s : State) (x : Hopper) : (setHop s x).regResp = s.regResp := rfl
@[simp] theorem setHop_grains (s : State) (x : Hopper) : (setHop s x).grains = s.grains := rfl
@[simp] theorem setHop_sheaves (s : State) (x : Hopper) : (setHop s x).sheaves = s.sheaves := rfl
@[simp] theorem setHop_ears (s : State) (x : Hopper) : (setHop s x).ears = s.ears := rfl
@[simp] theorem setHop_epochs (s : State) (x : Hopper) : (setHop s x).epochs = s.epochs := rfl
@[simp] theorem setHop_halves (s : State) (x : Hopper) : (setHop s x).halves = s.halves := rfl
@[simp] theorem setHop_spares (s : State) (x : Hopper) : (setHop s x).spares = s.spares := rfl
@[simp] theorem setHop_merges (s : State) (x : Hopper) : (setHop s x).merges = s.merges := rfl
@[simp] theorem setHop_flue (s : State) (x : Hopper) : (setHop s x).flue = s.flue := rfl
@[simp] theorem setHop_flueWait (s : State) (x : Hopper) : (setHop s x).flueWait = s.flueWait := rfl
@[simp] theorem setHop_flueNear (s : State) (x : Hopper) : (setHop s x).flueNear = s.flueNear := rfl
@[simp] theorem setHop_mesh (s : State) (x : Hopper) : (setHop s x).mesh = s.mesh := rfl
@[simp] theorem setHop_reqs (s : State) (x : Hopper) : (setHop s x).reqs = s.reqs := rfl
@[simp] theorem setHop_posts (s : State) (x : Hopper) : (setHop s x).posts = s.posts := rfl
@[simp] theorem setHop_notices (s : State) (x : Hopper) : (setHop s x).notices = s.notices := rfl
@[simp] theorem setHop_onceBeat (s : State) (x : Hopper) : (setHop s x).onceBeat = s.onceBeat := rfl
@[simp] theorem setHop_standbyWrites (s : State) (x : Hopper) : (setHop s x).standbyWrites = s.standbyWrites := rfl
@[simp] theorem setHop_evq (s : State) (x : Hopper) : (setHop s x).evq = s.evq := rfl
@[simp] theorem setHop_log (s : State) (x : Hopper) : (setHop s x).log = s.log := rfl
@[simp] theorem setHop_time (s : State) (x : Hopper) : (setHop s x).time = s.time := rfl
@[simp] theorem setHop_beat (s : State) (x : Hopper) : (setHop s x).beat = s.beat := rfl
@[simp] theorem setHop_sheafMap (s : State) (x : Hopper) : (setHop s x).sheafMap = s.sheafMap := rfl
@[simp] theorem setHop_bins (s : State) (x : Hopper) : (setHop s x).bins = s.bins := rfl
@[simp] theorem setHop_cribs (s : State) (x : Hopper) : (setHop s x).cribs = s.cribs := rfl
@[simp] theorem setHop_granary (s : State) (x : Hopper) : (setHop s x).granary = s.granary := rfl
@[simp] theorem setHop_host (s : State) (x : Hopper) : (setHop s x).host = s.host := rfl
@[simp] theorem setHop_links (s : State) (x : Hopper) : (setHop s x).links = s.links := rfl
@[simp] theorem setHop_cribTx (s : State) (x : Hopper) : (setHop s x).cribTx = s.cribTx := rfl
@[simp] theorem setHop_nextTag (s : State) (x : Hopper) : (setHop s x).nextTag = s.nextTag := rfl
@[simp] theorem setHop_sends (s : State) (x : Hopper) : (setHop s x).sends = s.sends := rfl
@[simp] theorem setHop_relays (s : State) (x : Hopper) : (setHop s x).relays = s.relays := rfl
@[simp] theorem setHop_recvs (s : State) (x : Hopper) : (setHop s x).recvs = s.recvs := rfl
@[simp] theorem setHop_rick (s : State) (x : Hopper) : (setHop s x).rick = s.rick := rfl
@[simp] theorem setHop_reseeds (s : State) (x : Hopper) : (setHop s x).reseeds = s.reseeds := rfl
@[simp] theorem setHop_record (s : State) (x : Hopper) : (setHop s x).record = s.record := rfl
@[simp] theorem setHop_store (s : State) (x : Hopper) : (setHop s x).store = s.store := rfl
@[simp] theorem setHop_flt (s : State) (x : Hopper) : (setHop s x).flt = s.flt := rfl
@[simp] theorem setHop_img (s : State) (x : Hopper) : (setHop s x).img = s.img := rfl
@[simp] theorem setHop_cad (s : State) (x : Hopper) : (setHop s x).cad = s.cad := rfl
@[simp] theorem setHop_cal (s : State) (x : Hopper) : (setHop s x).cal = s.cal := rfl
@[simp] theorem setHop_pwr (s : State) (x : Hopper) : (setHop s x).pwr = s.pwr := rfl
@[simp] theorem setHop_thm (s : State) (x : Hopper) : (setHop s x).thm = s.thm := rfl

@[simp] theorem setEnt_pending (s : State) (p i : Nat) (e : HEntry) : (setEnt s p i e).pending = s.pending := rfl
@[simp] theorem setEnt_cycle (s : State) (p i : Nat) (e : HEntry) : (setEnt s p i e).cycle = s.cycle := rfl
@[simp] theorem setEnt_fresh (s : State) (p i : Nat) (e : HEntry) : (setEnt s p i e).fresh = s.fresh := rfl
@[simp] theorem setEnt_regs (s : State) (p i : Nat) (e : HEntry) : (setEnt s p i e).regs = s.regs := rfl
@[simp] theorem setEnt_latches (s : State) (p i : Nat) (e : HEntry) : (setEnt s p i e).latches = s.latches := rfl
@[simp] theorem setEnt_regResp (s : State) (p i : Nat) (e : HEntry) : (setEnt s p i e).regResp = s.regResp := rfl
@[simp] theorem setEnt_grains (s : State) (p i : Nat) (e : HEntry) : (setEnt s p i e).grains = s.grains := rfl
@[simp] theorem setEnt_sheaves (s : State) (p i : Nat) (e : HEntry) : (setEnt s p i e).sheaves = s.sheaves := rfl
@[simp] theorem setEnt_ears (s : State) (p i : Nat) (e : HEntry) : (setEnt s p i e).ears = s.ears := rfl
@[simp] theorem setEnt_epochs (s : State) (p i : Nat) (e : HEntry) : (setEnt s p i e).epochs = s.epochs := rfl
@[simp] theorem setEnt_halves (s : State) (p i : Nat) (e : HEntry) : (setEnt s p i e).halves = s.halves := rfl
@[simp] theorem setEnt_spares (s : State) (p i : Nat) (e : HEntry) : (setEnt s p i e).spares = s.spares := rfl
@[simp] theorem setEnt_merges (s : State) (p i : Nat) (e : HEntry) : (setEnt s p i e).merges = s.merges := rfl
@[simp] theorem setEnt_flue (s : State) (p i : Nat) (e : HEntry) : (setEnt s p i e).flue = s.flue := rfl
@[simp] theorem setEnt_flueWait (s : State) (p i : Nat) (e : HEntry) : (setEnt s p i e).flueWait = s.flueWait := rfl
@[simp] theorem setEnt_flueNear (s : State) (p i : Nat) (e : HEntry) : (setEnt s p i e).flueNear = s.flueNear := rfl
@[simp] theorem setEnt_mesh (s : State) (p i : Nat) (e : HEntry) : (setEnt s p i e).mesh = s.mesh := rfl
@[simp] theorem setEnt_reqs (s : State) (p i : Nat) (e : HEntry) : (setEnt s p i e).reqs = s.reqs := rfl
@[simp] theorem setEnt_posts (s : State) (p i : Nat) (e : HEntry) : (setEnt s p i e).posts = s.posts := rfl
@[simp] theorem setEnt_notices (s : State) (p i : Nat) (e : HEntry) : (setEnt s p i e).notices = s.notices := rfl
@[simp] theorem setEnt_onceBeat (s : State) (p i : Nat) (e : HEntry) : (setEnt s p i e).onceBeat = s.onceBeat := rfl
@[simp] theorem setEnt_standbyWrites (s : State) (p i : Nat) (e : HEntry) : (setEnt s p i e).standbyWrites = s.standbyWrites := rfl
@[simp] theorem setEnt_evq (s : State) (p i : Nat) (e : HEntry) : (setEnt s p i e).evq = s.evq := rfl
@[simp] theorem setEnt_log (s : State) (p i : Nat) (e : HEntry) : (setEnt s p i e).log = s.log := rfl
@[simp] theorem setEnt_time (s : State) (p i : Nat) (e : HEntry) : (setEnt s p i e).time = s.time := rfl
@[simp] theorem setEnt_beat (s : State) (p i : Nat) (e : HEntry) : (setEnt s p i e).beat = s.beat := rfl
@[simp] theorem setEnt_sheafMap (s : State) (p i : Nat) (e : HEntry) : (setEnt s p i e).sheafMap = s.sheafMap := rfl
@[simp] theorem setEnt_bins (s : State) (p i : Nat) (e : HEntry) : (setEnt s p i e).bins = s.bins := rfl
@[simp] theorem setEnt_cribs (s : State) (p i : Nat) (e : HEntry) : (setEnt s p i e).cribs = s.cribs := rfl
@[simp] theorem setEnt_granary (s : State) (p i : Nat) (e : HEntry) : (setEnt s p i e).granary = s.granary := rfl
@[simp] theorem setEnt_host (s : State) (p i : Nat) (e : HEntry) : (setEnt s p i e).host = s.host := rfl
@[simp] theorem setEnt_links (s : State) (p i : Nat) (e : HEntry) : (setEnt s p i e).links = s.links := rfl
@[simp] theorem setEnt_cribTx (s : State) (p i : Nat) (e : HEntry) : (setEnt s p i e).cribTx = s.cribTx := rfl
@[simp] theorem setEnt_nextTag (s : State) (p i : Nat) (e : HEntry) : (setEnt s p i e).nextTag = s.nextTag := rfl
@[simp] theorem setEnt_sends (s : State) (p i : Nat) (e : HEntry) : (setEnt s p i e).sends = s.sends := rfl
@[simp] theorem setEnt_relays (s : State) (p i : Nat) (e : HEntry) : (setEnt s p i e).relays = s.relays := rfl
@[simp] theorem setEnt_recvs (s : State) (p i : Nat) (e : HEntry) : (setEnt s p i e).recvs = s.recvs := rfl
@[simp] theorem setEnt_rick (s : State) (p i : Nat) (e : HEntry) : (setEnt s p i e).rick = s.rick := rfl
@[simp] theorem setEnt_reseeds (s : State) (p i : Nat) (e : HEntry) : (setEnt s p i e).reseeds = s.reseeds := rfl
@[simp] theorem setEnt_record (s : State) (p i : Nat) (e : HEntry) : (setEnt s p i e).record = s.record := rfl
@[simp] theorem setEnt_store (s : State) (p i : Nat) (e : HEntry) : (setEnt s p i e).store = s.store := rfl
@[simp] theorem setEnt_flt (s : State) (p i : Nat) (e : HEntry) : (setEnt s p i e).flt = s.flt := rfl
@[simp] theorem setEnt_img (s : State) (p i : Nat) (e : HEntry) : (setEnt s p i e).img = s.img := rfl
@[simp] theorem setEnt_cad (s : State) (p i : Nat) (e : HEntry) : (setEnt s p i e).cad = s.cad := rfl
@[simp] theorem setEnt_cal (s : State) (p i : Nat) (e : HEntry) : (setEnt s p i e).cal = s.cal := rfl
@[simp] theorem setEnt_pwr (s : State) (p i : Nat) (e : HEntry) : (setEnt s p i e).pwr = s.pwr := rfl
@[simp] theorem setEnt_thm (s : State) (p i : Nat) (e : HEntry) : (setEnt s p i e).thm = s.thm := rfl

@[simp] theorem setHost_pending (s : State) (x : HostIf) : (setHost s x).pending = s.pending := rfl
@[simp] theorem setHost_cycle (s : State) (x : HostIf) : (setHost s x).cycle = s.cycle := rfl
@[simp] theorem setHost_fresh (s : State) (x : HostIf) : (setHost s x).fresh = s.fresh := rfl
@[simp] theorem setHost_regs (s : State) (x : HostIf) : (setHost s x).regs = s.regs := rfl
@[simp] theorem setHost_latches (s : State) (x : HostIf) : (setHost s x).latches = s.latches := rfl
@[simp] theorem setHost_regResp (s : State) (x : HostIf) : (setHost s x).regResp = s.regResp := rfl
@[simp] theorem setHost_grains (s : State) (x : HostIf) : (setHost s x).grains = s.grains := rfl
@[simp] theorem setHost_sheaves (s : State) (x : HostIf) : (setHost s x).sheaves = s.sheaves := rfl
@[simp] theorem setHost_ears (s : State) (x : HostIf) : (setHost s x).ears = s.ears := rfl
@[simp] theorem setHost_epochs (s : State) (x : HostIf) : (setHost s x).epochs = s.epochs := rfl
@[simp] theorem setHost_halves (s : State) (x : HostIf) : (setHost s x).halves = s.halves := rfl
@[simp] theorem setHost_spares (s : State) (x : HostIf) : (setHost s x).spares = s.spares := rfl
@[simp] theorem setHost_merges (s : State) (x : HostIf) : (setHost s x).merges = s.merges := rfl
@[simp] theorem setHost_flue (s : State) (x : HostIf) : (setHost s x).flue = s.flue := rfl
@[simp] theorem setHost_flueWait (s : State) (x : HostIf) : (setHost s x).flueWait = s.flueWait := rfl
@[simp] theorem setHost_flueNear (s : State) (x : HostIf) : (setHost s x).flueNear = s.flueNear := rfl
@[simp] theorem setHost_mesh (s : State) (x : HostIf) : (setHost s x).mesh = s.mesh := rfl
@[simp] theorem setHost_reqs (s : State) (x : HostIf) : (setHost s x).reqs = s.reqs := rfl
@[simp] theorem setHost_posts (s : State) (x : HostIf) : (setHost s x).posts = s.posts := rfl
@[simp] theorem setHost_notices (s : State) (x : HostIf) : (setHost s x).notices = s.notices := rfl
@[simp] theorem setHost_onceBeat (s : State) (x : HostIf) : (setHost s x).onceBeat = s.onceBeat := rfl
@[simp] theorem setHost_standbyWrites (s : State) (x : HostIf) : (setHost s x).standbyWrites = s.standbyWrites := rfl
@[simp] theorem setHost_evq (s : State) (x : HostIf) : (setHost s x).evq = s.evq := rfl
@[simp] theorem setHost_log (s : State) (x : HostIf) : (setHost s x).log = s.log := rfl
@[simp] theorem setHost_time (s : State) (x : HostIf) : (setHost s x).time = s.time := rfl
@[simp] theorem setHost_beat (s : State) (x : HostIf) : (setHost s x).beat = s.beat := rfl
@[simp] theorem setHost_sheafMap (s : State) (x : HostIf) : (setHost s x).sheafMap = s.sheafMap := rfl
@[simp] theorem setHost_bins (s : State) (x : HostIf) : (setHost s x).bins = s.bins := rfl
@[simp] theorem setHost_cribs (s : State) (x : HostIf) : (setHost s x).cribs = s.cribs := rfl
@[simp] theorem setHost_granary (s : State) (x : HostIf) : (setHost s x).granary = s.granary := rfl
@[simp] theorem setHost_links (s : State) (x : HostIf) : (setHost s x).links = s.links := rfl
@[simp] theorem setHost_cribTx (s : State) (x : HostIf) : (setHost s x).cribTx = s.cribTx := rfl
@[simp] theorem setHost_nextTag (s : State) (x : HostIf) : (setHost s x).nextTag = s.nextTag := rfl
@[simp] theorem setHost_sends (s : State) (x : HostIf) : (setHost s x).sends = s.sends := rfl
@[simp] theorem setHost_relays (s : State) (x : HostIf) : (setHost s x).relays = s.relays := rfl
@[simp] theorem setHost_recvs (s : State) (x : HostIf) : (setHost s x).recvs = s.recvs := rfl
@[simp] theorem setHost_rick (s : State) (x : HostIf) : (setHost s x).rick = s.rick := rfl
@[simp] theorem setHost_reseeds (s : State) (x : HostIf) : (setHost s x).reseeds = s.reseeds := rfl
@[simp] theorem setHost_hop (s : State) (x : HostIf) : (setHost s x).hop = s.hop := rfl
@[simp] theorem setHost_record (s : State) (x : HostIf) : (setHost s x).record = s.record := rfl
@[simp] theorem setHost_store (s : State) (x : HostIf) : (setHost s x).store = s.store := rfl
@[simp] theorem setHost_flt (s : State) (x : HostIf) : (setHost s x).flt = s.flt := rfl
@[simp] theorem setHost_img (s : State) (x : HostIf) : (setHost s x).img = s.img := rfl
@[simp] theorem setHost_cad (s : State) (x : HostIf) : (setHost s x).cad = s.cad := rfl
@[simp] theorem setHost_cal (s : State) (x : HostIf) : (setHost s x).cal = s.cal := rfl
@[simp] theorem setHost_pwr (s : State) (x : HostIf) : (setHost s x).pwr = s.pwr := rfl
@[simp] theorem setHost_thm (s : State) (x : HostIf) : (setHost s x).thm = s.thm := rfl

@[simp] theorem setPwr_pending (s : State) (x : Power) : (setPwr s x).pending = s.pending := rfl
@[simp] theorem setPwr_cycle (s : State) (x : Power) : (setPwr s x).cycle = s.cycle := rfl
@[simp] theorem setPwr_fresh (s : State) (x : Power) : (setPwr s x).fresh = s.fresh := rfl
@[simp] theorem setPwr_regs (s : State) (x : Power) : (setPwr s x).regs = s.regs := rfl
@[simp] theorem setPwr_latches (s : State) (x : Power) : (setPwr s x).latches = s.latches := rfl
@[simp] theorem setPwr_regResp (s : State) (x : Power) : (setPwr s x).regResp = s.regResp := rfl
@[simp] theorem setPwr_grains (s : State) (x : Power) : (setPwr s x).grains = s.grains := rfl
@[simp] theorem setPwr_sheaves (s : State) (x : Power) : (setPwr s x).sheaves = s.sheaves := rfl
@[simp] theorem setPwr_ears (s : State) (x : Power) : (setPwr s x).ears = s.ears := rfl
@[simp] theorem setPwr_epochs (s : State) (x : Power) : (setPwr s x).epochs = s.epochs := rfl
@[simp] theorem setPwr_halves (s : State) (x : Power) : (setPwr s x).halves = s.halves := rfl
@[simp] theorem setPwr_spares (s : State) (x : Power) : (setPwr s x).spares = s.spares := rfl
@[simp] theorem setPwr_merges (s : State) (x : Power) : (setPwr s x).merges = s.merges := rfl
@[simp] theorem setPwr_flue (s : State) (x : Power) : (setPwr s x).flue = s.flue := rfl
@[simp] theorem setPwr_flueWait (s : State) (x : Power) : (setPwr s x).flueWait = s.flueWait := rfl
@[simp] theorem setPwr_flueNear (s : State) (x : Power) : (setPwr s x).flueNear = s.flueNear := rfl
@[simp] theorem setPwr_mesh (s : State) (x : Power) : (setPwr s x).mesh = s.mesh := rfl
@[simp] theorem setPwr_reqs (s : State) (x : Power) : (setPwr s x).reqs = s.reqs := rfl
@[simp] theorem setPwr_posts (s : State) (x : Power) : (setPwr s x).posts = s.posts := rfl
@[simp] theorem setPwr_notices (s : State) (x : Power) : (setPwr s x).notices = s.notices := rfl
@[simp] theorem setPwr_onceBeat (s : State) (x : Power) : (setPwr s x).onceBeat = s.onceBeat := rfl
@[simp] theorem setPwr_standbyWrites (s : State) (x : Power) : (setPwr s x).standbyWrites = s.standbyWrites := rfl
@[simp] theorem setPwr_evq (s : State) (x : Power) : (setPwr s x).evq = s.evq := rfl
@[simp] theorem setPwr_log (s : State) (x : Power) : (setPwr s x).log = s.log := rfl
@[simp] theorem setPwr_time (s : State) (x : Power) : (setPwr s x).time = s.time := rfl
@[simp] theorem setPwr_beat (s : State) (x : Power) : (setPwr s x).beat = s.beat := rfl
@[simp] theorem setPwr_sheafMap (s : State) (x : Power) : (setPwr s x).sheafMap = s.sheafMap := rfl
@[simp] theorem setPwr_bins (s : State) (x : Power) : (setPwr s x).bins = s.bins := rfl
@[simp] theorem setPwr_cribs (s : State) (x : Power) : (setPwr s x).cribs = s.cribs := rfl
@[simp] theorem setPwr_granary (s : State) (x : Power) : (setPwr s x).granary = s.granary := rfl
@[simp] theorem setPwr_host (s : State) (x : Power) : (setPwr s x).host = s.host := rfl
@[simp] theorem setPwr_links (s : State) (x : Power) : (setPwr s x).links = s.links := rfl
@[simp] theorem setPwr_cribTx (s : State) (x : Power) : (setPwr s x).cribTx = s.cribTx := rfl
@[simp] theorem setPwr_nextTag (s : State) (x : Power) : (setPwr s x).nextTag = s.nextTag := rfl
@[simp] theorem setPwr_sends (s : State) (x : Power) : (setPwr s x).sends = s.sends := rfl
@[simp] theorem setPwr_relays (s : State) (x : Power) : (setPwr s x).relays = s.relays := rfl
@[simp] theorem setPwr_recvs (s : State) (x : Power) : (setPwr s x).recvs = s.recvs := rfl
@[simp] theorem setPwr_rick (s : State) (x : Power) : (setPwr s x).rick = s.rick := rfl
@[simp] theorem setPwr_reseeds (s : State) (x : Power) : (setPwr s x).reseeds = s.reseeds := rfl
@[simp] theorem setPwr_hop (s : State) (x : Power) : (setPwr s x).hop = s.hop := rfl
@[simp] theorem setPwr_record (s : State) (x : Power) : (setPwr s x).record = s.record := rfl
@[simp] theorem setPwr_store (s : State) (x : Power) : (setPwr s x).store = s.store := rfl
@[simp] theorem setPwr_flt (s : State) (x : Power) : (setPwr s x).flt = s.flt := rfl
@[simp] theorem setPwr_img (s : State) (x : Power) : (setPwr s x).img = s.img := rfl
@[simp] theorem setPwr_cad (s : State) (x : Power) : (setPwr s x).cad = s.cad := rfl
@[simp] theorem setPwr_cal (s : State) (x : Power) : (setPwr s x).cal = s.cal := rfl
@[simp] theorem setPwr_thm (s : State) (x : Power) : (setPwr s x).thm = s.thm := rfl

@[simp] theorem setFieldPw_pending (s : State) (f : Nat) (x : FieldPw) : (setFieldPw s f x).pending = s.pending := rfl
@[simp] theorem setFieldPw_cycle (s : State) (f : Nat) (x : FieldPw) : (setFieldPw s f x).cycle = s.cycle := rfl
@[simp] theorem setFieldPw_fresh (s : State) (f : Nat) (x : FieldPw) : (setFieldPw s f x).fresh = s.fresh := rfl
@[simp] theorem setFieldPw_regs (s : State) (f : Nat) (x : FieldPw) : (setFieldPw s f x).regs = s.regs := rfl
@[simp] theorem setFieldPw_latches (s : State) (f : Nat) (x : FieldPw) : (setFieldPw s f x).latches = s.latches := rfl
@[simp] theorem setFieldPw_regResp (s : State) (f : Nat) (x : FieldPw) : (setFieldPw s f x).regResp = s.regResp := rfl
@[simp] theorem setFieldPw_grains (s : State) (f : Nat) (x : FieldPw) : (setFieldPw s f x).grains = s.grains := rfl
@[simp] theorem setFieldPw_sheaves (s : State) (f : Nat) (x : FieldPw) : (setFieldPw s f x).sheaves = s.sheaves := rfl
@[simp] theorem setFieldPw_ears (s : State) (f : Nat) (x : FieldPw) : (setFieldPw s f x).ears = s.ears := rfl
@[simp] theorem setFieldPw_epochs (s : State) (f : Nat) (x : FieldPw) : (setFieldPw s f x).epochs = s.epochs := rfl
@[simp] theorem setFieldPw_halves (s : State) (f : Nat) (x : FieldPw) : (setFieldPw s f x).halves = s.halves := rfl
@[simp] theorem setFieldPw_spares (s : State) (f : Nat) (x : FieldPw) : (setFieldPw s f x).spares = s.spares := rfl
@[simp] theorem setFieldPw_merges (s : State) (f : Nat) (x : FieldPw) : (setFieldPw s f x).merges = s.merges := rfl
@[simp] theorem setFieldPw_flue (s : State) (f : Nat) (x : FieldPw) : (setFieldPw s f x).flue = s.flue := rfl
@[simp] theorem setFieldPw_flueWait (s : State) (f : Nat) (x : FieldPw) : (setFieldPw s f x).flueWait = s.flueWait := rfl
@[simp] theorem setFieldPw_flueNear (s : State) (f : Nat) (x : FieldPw) : (setFieldPw s f x).flueNear = s.flueNear := rfl
@[simp] theorem setFieldPw_mesh (s : State) (f : Nat) (x : FieldPw) : (setFieldPw s f x).mesh = s.mesh := rfl
@[simp] theorem setFieldPw_reqs (s : State) (f : Nat) (x : FieldPw) : (setFieldPw s f x).reqs = s.reqs := rfl
@[simp] theorem setFieldPw_posts (s : State) (f : Nat) (x : FieldPw) : (setFieldPw s f x).posts = s.posts := rfl
@[simp] theorem setFieldPw_notices (s : State) (f : Nat) (x : FieldPw) : (setFieldPw s f x).notices = s.notices := rfl
@[simp] theorem setFieldPw_onceBeat (s : State) (f : Nat) (x : FieldPw) : (setFieldPw s f x).onceBeat = s.onceBeat := rfl
@[simp] theorem setFieldPw_standbyWrites (s : State) (f : Nat) (x : FieldPw) : (setFieldPw s f x).standbyWrites = s.standbyWrites := rfl
@[simp] theorem setFieldPw_evq (s : State) (f : Nat) (x : FieldPw) : (setFieldPw s f x).evq = s.evq := rfl
@[simp] theorem setFieldPw_log (s : State) (f : Nat) (x : FieldPw) : (setFieldPw s f x).log = s.log := rfl
@[simp] theorem setFieldPw_time (s : State) (f : Nat) (x : FieldPw) : (setFieldPw s f x).time = s.time := rfl
@[simp] theorem setFieldPw_beat (s : State) (f : Nat) (x : FieldPw) : (setFieldPw s f x).beat = s.beat := rfl
@[simp] theorem setFieldPw_sheafMap (s : State) (f : Nat) (x : FieldPw) : (setFieldPw s f x).sheafMap = s.sheafMap := rfl
@[simp] theorem setFieldPw_bins (s : State) (f : Nat) (x : FieldPw) : (setFieldPw s f x).bins = s.bins := rfl
@[simp] theorem setFieldPw_cribs (s : State) (f : Nat) (x : FieldPw) : (setFieldPw s f x).cribs = s.cribs := rfl
@[simp] theorem setFieldPw_granary (s : State) (f : Nat) (x : FieldPw) : (setFieldPw s f x).granary = s.granary := rfl
@[simp] theorem setFieldPw_host (s : State) (f : Nat) (x : FieldPw) : (setFieldPw s f x).host = s.host := rfl
@[simp] theorem setFieldPw_links (s : State) (f : Nat) (x : FieldPw) : (setFieldPw s f x).links = s.links := rfl
@[simp] theorem setFieldPw_cribTx (s : State) (f : Nat) (x : FieldPw) : (setFieldPw s f x).cribTx = s.cribTx := rfl
@[simp] theorem setFieldPw_nextTag (s : State) (f : Nat) (x : FieldPw) : (setFieldPw s f x).nextTag = s.nextTag := rfl
@[simp] theorem setFieldPw_sends (s : State) (f : Nat) (x : FieldPw) : (setFieldPw s f x).sends = s.sends := rfl
@[simp] theorem setFieldPw_relays (s : State) (f : Nat) (x : FieldPw) : (setFieldPw s f x).relays = s.relays := rfl
@[simp] theorem setFieldPw_recvs (s : State) (f : Nat) (x : FieldPw) : (setFieldPw s f x).recvs = s.recvs := rfl
@[simp] theorem setFieldPw_rick (s : State) (f : Nat) (x : FieldPw) : (setFieldPw s f x).rick = s.rick := rfl
@[simp] theorem setFieldPw_reseeds (s : State) (f : Nat) (x : FieldPw) : (setFieldPw s f x).reseeds = s.reseeds := rfl
@[simp] theorem setFieldPw_hop (s : State) (f : Nat) (x : FieldPw) : (setFieldPw s f x).hop = s.hop := rfl
@[simp] theorem setFieldPw_record (s : State) (f : Nat) (x : FieldPw) : (setFieldPw s f x).record = s.record := rfl
@[simp] theorem setFieldPw_store (s : State) (f : Nat) (x : FieldPw) : (setFieldPw s f x).store = s.store := rfl
@[simp] theorem setFieldPw_flt (s : State) (f : Nat) (x : FieldPw) : (setFieldPw s f x).flt = s.flt := rfl
@[simp] theorem setFieldPw_img (s : State) (f : Nat) (x : FieldPw) : (setFieldPw s f x).img = s.img := rfl
@[simp] theorem setFieldPw_cad (s : State) (f : Nat) (x : FieldPw) : (setFieldPw s f x).cad = s.cad := rfl
@[simp] theorem setFieldPw_cal (s : State) (f : Nat) (x : FieldPw) : (setFieldPw s f x).cal = s.cal := rfl
@[simp] theorem setFieldPw_thm (s : State) (f : Nat) (x : FieldPw) : (setFieldPw s f x).thm = s.thm := rfl

@[simp] theorem setLk_pending (s : State) (p l : Nat) (x : Link) : (setLk s p l x).pending = s.pending := rfl
@[simp] theorem setLk_cycle (s : State) (p l : Nat) (x : Link) : (setLk s p l x).cycle = s.cycle := rfl
@[simp] theorem setLk_fresh (s : State) (p l : Nat) (x : Link) : (setLk s p l x).fresh = s.fresh := rfl
@[simp] theorem setLk_regs (s : State) (p l : Nat) (x : Link) : (setLk s p l x).regs = s.regs := rfl
@[simp] theorem setLk_latches (s : State) (p l : Nat) (x : Link) : (setLk s p l x).latches = s.latches := rfl
@[simp] theorem setLk_regResp (s : State) (p l : Nat) (x : Link) : (setLk s p l x).regResp = s.regResp := rfl
@[simp] theorem setLk_grains (s : State) (p l : Nat) (x : Link) : (setLk s p l x).grains = s.grains := rfl
@[simp] theorem setLk_sheaves (s : State) (p l : Nat) (x : Link) : (setLk s p l x).sheaves = s.sheaves := rfl
@[simp] theorem setLk_ears (s : State) (p l : Nat) (x : Link) : (setLk s p l x).ears = s.ears := rfl
@[simp] theorem setLk_epochs (s : State) (p l : Nat) (x : Link) : (setLk s p l x).epochs = s.epochs := rfl
@[simp] theorem setLk_halves (s : State) (p l : Nat) (x : Link) : (setLk s p l x).halves = s.halves := rfl
@[simp] theorem setLk_spares (s : State) (p l : Nat) (x : Link) : (setLk s p l x).spares = s.spares := rfl
@[simp] theorem setLk_merges (s : State) (p l : Nat) (x : Link) : (setLk s p l x).merges = s.merges := rfl
@[simp] theorem setLk_flue (s : State) (p l : Nat) (x : Link) : (setLk s p l x).flue = s.flue := rfl
@[simp] theorem setLk_flueWait (s : State) (p l : Nat) (x : Link) : (setLk s p l x).flueWait = s.flueWait := rfl
@[simp] theorem setLk_flueNear (s : State) (p l : Nat) (x : Link) : (setLk s p l x).flueNear = s.flueNear := rfl
@[simp] theorem setLk_mesh (s : State) (p l : Nat) (x : Link) : (setLk s p l x).mesh = s.mesh := rfl
@[simp] theorem setLk_reqs (s : State) (p l : Nat) (x : Link) : (setLk s p l x).reqs = s.reqs := rfl
@[simp] theorem setLk_posts (s : State) (p l : Nat) (x : Link) : (setLk s p l x).posts = s.posts := rfl
@[simp] theorem setLk_notices (s : State) (p l : Nat) (x : Link) : (setLk s p l x).notices = s.notices := rfl
@[simp] theorem setLk_onceBeat (s : State) (p l : Nat) (x : Link) : (setLk s p l x).onceBeat = s.onceBeat := rfl
@[simp] theorem setLk_standbyWrites (s : State) (p l : Nat) (x : Link) : (setLk s p l x).standbyWrites = s.standbyWrites := rfl
@[simp] theorem setLk_evq (s : State) (p l : Nat) (x : Link) : (setLk s p l x).evq = s.evq := rfl
@[simp] theorem setLk_log (s : State) (p l : Nat) (x : Link) : (setLk s p l x).log = s.log := rfl
@[simp] theorem setLk_time (s : State) (p l : Nat) (x : Link) : (setLk s p l x).time = s.time := rfl
@[simp] theorem setLk_beat (s : State) (p l : Nat) (x : Link) : (setLk s p l x).beat = s.beat := rfl
@[simp] theorem setLk_sheafMap (s : State) (p l : Nat) (x : Link) : (setLk s p l x).sheafMap = s.sheafMap := rfl
@[simp] theorem setLk_bins (s : State) (p l : Nat) (x : Link) : (setLk s p l x).bins = s.bins := rfl
@[simp] theorem setLk_cribs (s : State) (p l : Nat) (x : Link) : (setLk s p l x).cribs = s.cribs := rfl
@[simp] theorem setLk_granary (s : State) (p l : Nat) (x : Link) : (setLk s p l x).granary = s.granary := rfl
@[simp] theorem setLk_host (s : State) (p l : Nat) (x : Link) : (setLk s p l x).host = s.host := rfl
@[simp] theorem setLk_cribTx (s : State) (p l : Nat) (x : Link) : (setLk s p l x).cribTx = s.cribTx := rfl
@[simp] theorem setLk_nextTag (s : State) (p l : Nat) (x : Link) : (setLk s p l x).nextTag = s.nextTag := rfl
@[simp] theorem setLk_sends (s : State) (p l : Nat) (x : Link) : (setLk s p l x).sends = s.sends := rfl
@[simp] theorem setLk_relays (s : State) (p l : Nat) (x : Link) : (setLk s p l x).relays = s.relays := rfl
@[simp] theorem setLk_recvs (s : State) (p l : Nat) (x : Link) : (setLk s p l x).recvs = s.recvs := rfl
@[simp] theorem setLk_rick (s : State) (p l : Nat) (x : Link) : (setLk s p l x).rick = s.rick := rfl
@[simp] theorem setLk_reseeds (s : State) (p l : Nat) (x : Link) : (setLk s p l x).reseeds = s.reseeds := rfl
@[simp] theorem setLk_hop (s : State) (p l : Nat) (x : Link) : (setLk s p l x).hop = s.hop := rfl
@[simp] theorem setLk_record (s : State) (p l : Nat) (x : Link) : (setLk s p l x).record = s.record := rfl
@[simp] theorem setLk_store (s : State) (p l : Nat) (x : Link) : (setLk s p l x).store = s.store := rfl
@[simp] theorem setLk_flt (s : State) (p l : Nat) (x : Link) : (setLk s p l x).flt = s.flt := rfl
@[simp] theorem setLk_img (s : State) (p l : Nat) (x : Link) : (setLk s p l x).img = s.img := rfl
@[simp] theorem setLk_cad (s : State) (p l : Nat) (x : Link) : (setLk s p l x).cad = s.cad := rfl
@[simp] theorem setLk_cal (s : State) (p l : Nat) (x : Link) : (setLk s p l x).cal = s.cal := rfl
@[simp] theorem setLk_pwr (s : State) (p l : Nat) (x : Link) : (setLk s p l x).pwr = s.pwr := rfl
@[simp] theorem setLk_thm (s : State) (p l : Nat) (x : Link) : (setLk s p l x).thm = s.thm := rfl

@[simp] theorem setRick_pending (s : State) (x : Rick) : (setRick s x).pending = s.pending := rfl
@[simp] theorem setRick_cycle (s : State) (x : Rick) : (setRick s x).cycle = s.cycle := rfl
@[simp] theorem setRick_fresh (s : State) (x : Rick) : (setRick s x).fresh = s.fresh := rfl
@[simp] theorem setRick_regs (s : State) (x : Rick) : (setRick s x).regs = s.regs := rfl
@[simp] theorem setRick_latches (s : State) (x : Rick) : (setRick s x).latches = s.latches := rfl
@[simp] theorem setRick_regResp (s : State) (x : Rick) : (setRick s x).regResp = s.regResp := rfl
@[simp] theorem setRick_grains (s : State) (x : Rick) : (setRick s x).grains = s.grains := rfl
@[simp] theorem setRick_sheaves (s : State) (x : Rick) : (setRick s x).sheaves = s.sheaves := rfl
@[simp] theorem setRick_ears (s : State) (x : Rick) : (setRick s x).ears = s.ears := rfl
@[simp] theorem setRick_epochs (s : State) (x : Rick) : (setRick s x).epochs = s.epochs := rfl
@[simp] theorem setRick_halves (s : State) (x : Rick) : (setRick s x).halves = s.halves := rfl
@[simp] theorem setRick_spares (s : State) (x : Rick) : (setRick s x).spares = s.spares := rfl
@[simp] theorem setRick_merges (s : State) (x : Rick) : (setRick s x).merges = s.merges := rfl
@[simp] theorem setRick_flue (s : State) (x : Rick) : (setRick s x).flue = s.flue := rfl
@[simp] theorem setRick_flueWait (s : State) (x : Rick) : (setRick s x).flueWait = s.flueWait := rfl
@[simp] theorem setRick_flueNear (s : State) (x : Rick) : (setRick s x).flueNear = s.flueNear := rfl
@[simp] theorem setRick_mesh (s : State) (x : Rick) : (setRick s x).mesh = s.mesh := rfl
@[simp] theorem setRick_reqs (s : State) (x : Rick) : (setRick s x).reqs = s.reqs := rfl
@[simp] theorem setRick_posts (s : State) (x : Rick) : (setRick s x).posts = s.posts := rfl
@[simp] theorem setRick_notices (s : State) (x : Rick) : (setRick s x).notices = s.notices := rfl
@[simp] theorem setRick_onceBeat (s : State) (x : Rick) : (setRick s x).onceBeat = s.onceBeat := rfl
@[simp] theorem setRick_standbyWrites (s : State) (x : Rick) : (setRick s x).standbyWrites = s.standbyWrites := rfl
@[simp] theorem setRick_evq (s : State) (x : Rick) : (setRick s x).evq = s.evq := rfl
@[simp] theorem setRick_log (s : State) (x : Rick) : (setRick s x).log = s.log := rfl
@[simp] theorem setRick_time (s : State) (x : Rick) : (setRick s x).time = s.time := rfl
@[simp] theorem setRick_beat (s : State) (x : Rick) : (setRick s x).beat = s.beat := rfl
@[simp] theorem setRick_sheafMap (s : State) (x : Rick) : (setRick s x).sheafMap = s.sheafMap := rfl
@[simp] theorem setRick_bins (s : State) (x : Rick) : (setRick s x).bins = s.bins := rfl
@[simp] theorem setRick_cribs (s : State) (x : Rick) : (setRick s x).cribs = s.cribs := rfl
@[simp] theorem setRick_granary (s : State) (x : Rick) : (setRick s x).granary = s.granary := rfl
@[simp] theorem setRick_host (s : State) (x : Rick) : (setRick s x).host = s.host := rfl
@[simp] theorem setRick_links (s : State) (x : Rick) : (setRick s x).links = s.links := rfl
@[simp] theorem setRick_cribTx (s : State) (x : Rick) : (setRick s x).cribTx = s.cribTx := rfl
@[simp] theorem setRick_nextTag (s : State) (x : Rick) : (setRick s x).nextTag = s.nextTag := rfl
@[simp] theorem setRick_sends (s : State) (x : Rick) : (setRick s x).sends = s.sends := rfl
@[simp] theorem setRick_relays (s : State) (x : Rick) : (setRick s x).relays = s.relays := rfl
@[simp] theorem setRick_recvs (s : State) (x : Rick) : (setRick s x).recvs = s.recvs := rfl
@[simp] theorem setRick_reseeds (s : State) (x : Rick) : (setRick s x).reseeds = s.reseeds := rfl
@[simp] theorem setRick_hop (s : State) (x : Rick) : (setRick s x).hop = s.hop := rfl
@[simp] theorem setRick_record (s : State) (x : Rick) : (setRick s x).record = s.record := rfl
@[simp] theorem setRick_store (s : State) (x : Rick) : (setRick s x).store = s.store := rfl
@[simp] theorem setRick_flt (s : State) (x : Rick) : (setRick s x).flt = s.flt := rfl
@[simp] theorem setRick_img (s : State) (x : Rick) : (setRick s x).img = s.img := rfl
@[simp] theorem setRick_cad (s : State) (x : Rick) : (setRick s x).cad = s.cad := rfl
@[simp] theorem setRick_cal (s : State) (x : Rick) : (setRick s x).cal = s.cal := rfl
@[simp] theorem setRick_pwr (s : State) (x : Rick) : (setRick s x).pwr = s.pwr := rfl
@[simp] theorem setRick_thm (s : State) (x : Rick) : (setRick s x).thm = s.thm := rfl

@[simp] theorem setThm_pending (s : State) (x : Thermal) : (setThm s x).pending = s.pending := rfl
@[simp] theorem setThm_cycle (s : State) (x : Thermal) : (setThm s x).cycle = s.cycle := rfl
@[simp] theorem setThm_fresh (s : State) (x : Thermal) : (setThm s x).fresh = s.fresh := rfl
@[simp] theorem setThm_regs (s : State) (x : Thermal) : (setThm s x).regs = s.regs := rfl
@[simp] theorem setThm_latches (s : State) (x : Thermal) : (setThm s x).latches = s.latches := rfl
@[simp] theorem setThm_regResp (s : State) (x : Thermal) : (setThm s x).regResp = s.regResp := rfl
@[simp] theorem setThm_grains (s : State) (x : Thermal) : (setThm s x).grains = s.grains := rfl
@[simp] theorem setThm_sheaves (s : State) (x : Thermal) : (setThm s x).sheaves = s.sheaves := rfl
@[simp] theorem setThm_ears (s : State) (x : Thermal) : (setThm s x).ears = s.ears := rfl
@[simp] theorem setThm_epochs (s : State) (x : Thermal) : (setThm s x).epochs = s.epochs := rfl
@[simp] theorem setThm_halves (s : State) (x : Thermal) : (setThm s x).halves = s.halves := rfl
@[simp] theorem setThm_spares (s : State) (x : Thermal) : (setThm s x).spares = s.spares := rfl
@[simp] theorem setThm_merges (s : State) (x : Thermal) : (setThm s x).merges = s.merges := rfl
@[simp] theorem setThm_flue (s : State) (x : Thermal) : (setThm s x).flue = s.flue := rfl
@[simp] theorem setThm_flueWait (s : State) (x : Thermal) : (setThm s x).flueWait = s.flueWait := rfl
@[simp] theorem setThm_flueNear (s : State) (x : Thermal) : (setThm s x).flueNear = s.flueNear := rfl
@[simp] theorem setThm_mesh (s : State) (x : Thermal) : (setThm s x).mesh = s.mesh := rfl
@[simp] theorem setThm_reqs (s : State) (x : Thermal) : (setThm s x).reqs = s.reqs := rfl
@[simp] theorem setThm_posts (s : State) (x : Thermal) : (setThm s x).posts = s.posts := rfl
@[simp] theorem setThm_notices (s : State) (x : Thermal) : (setThm s x).notices = s.notices := rfl
@[simp] theorem setThm_onceBeat (s : State) (x : Thermal) : (setThm s x).onceBeat = s.onceBeat := rfl
@[simp] theorem setThm_standbyWrites (s : State) (x : Thermal) : (setThm s x).standbyWrites = s.standbyWrites := rfl
@[simp] theorem setThm_evq (s : State) (x : Thermal) : (setThm s x).evq = s.evq := rfl
@[simp] theorem setThm_log (s : State) (x : Thermal) : (setThm s x).log = s.log := rfl
@[simp] theorem setThm_time (s : State) (x : Thermal) : (setThm s x).time = s.time := rfl
@[simp] theorem setThm_beat (s : State) (x : Thermal) : (setThm s x).beat = s.beat := rfl
@[simp] theorem setThm_sheafMap (s : State) (x : Thermal) : (setThm s x).sheafMap = s.sheafMap := rfl
@[simp] theorem setThm_bins (s : State) (x : Thermal) : (setThm s x).bins = s.bins := rfl
@[simp] theorem setThm_cribs (s : State) (x : Thermal) : (setThm s x).cribs = s.cribs := rfl
@[simp] theorem setThm_granary (s : State) (x : Thermal) : (setThm s x).granary = s.granary := rfl
@[simp] theorem setThm_host (s : State) (x : Thermal) : (setThm s x).host = s.host := rfl
@[simp] theorem setThm_links (s : State) (x : Thermal) : (setThm s x).links = s.links := rfl
@[simp] theorem setThm_cribTx (s : State) (x : Thermal) : (setThm s x).cribTx = s.cribTx := rfl
@[simp] theorem setThm_nextTag (s : State) (x : Thermal) : (setThm s x).nextTag = s.nextTag := rfl
@[simp] theorem setThm_sends (s : State) (x : Thermal) : (setThm s x).sends = s.sends := rfl
@[simp] theorem setThm_relays (s : State) (x : Thermal) : (setThm s x).relays = s.relays := rfl
@[simp] theorem setThm_recvs (s : State) (x : Thermal) : (setThm s x).recvs = s.recvs := rfl
@[simp] theorem setThm_rick (s : State) (x : Thermal) : (setThm s x).rick = s.rick := rfl
@[simp] theorem setThm_reseeds (s : State) (x : Thermal) : (setThm s x).reseeds = s.reseeds := rfl
@[simp] theorem setThm_hop (s : State) (x : Thermal) : (setThm s x).hop = s.hop := rfl
@[simp] theorem setThm_record (s : State) (x : Thermal) : (setThm s x).record = s.record := rfl
@[simp] theorem setThm_store (s : State) (x : Thermal) : (setThm s x).store = s.store := rfl
@[simp] theorem setThm_flt (s : State) (x : Thermal) : (setThm s x).flt = s.flt := rfl
@[simp] theorem setThm_img (s : State) (x : Thermal) : (setThm s x).img = s.img := rfl
@[simp] theorem setThm_cad (s : State) (x : Thermal) : (setThm s x).cad = s.cad := rfl
@[simp] theorem setThm_cal (s : State) (x : Thermal) : (setThm s x).cal = s.cal := rfl
@[simp] theorem setThm_pwr (s : State) (x : Thermal) : (setThm s x).pwr = s.pwr := rfl

@[simp] theorem setChan_pending (s : State) (c : Nat) (x : Channel) : (setChan s c x).pending = s.pending := rfl
@[simp] theorem setChan_cycle (s : State) (c : Nat) (x : Channel) : (setChan s c x).cycle = s.cycle := rfl
@[simp] theorem setChan_fresh (s : State) (c : Nat) (x : Channel) : (setChan s c x).fresh = s.fresh := rfl
@[simp] theorem setChan_regs (s : State) (c : Nat) (x : Channel) : (setChan s c x).regs = s.regs := rfl
@[simp] theorem setChan_latches (s : State) (c : Nat) (x : Channel) : (setChan s c x).latches = s.latches := rfl
@[simp] theorem setChan_regResp (s : State) (c : Nat) (x : Channel) : (setChan s c x).regResp = s.regResp := rfl
@[simp] theorem setChan_grains (s : State) (c : Nat) (x : Channel) : (setChan s c x).grains = s.grains := rfl
@[simp] theorem setChan_sheaves (s : State) (c : Nat) (x : Channel) : (setChan s c x).sheaves = s.sheaves := rfl
@[simp] theorem setChan_ears (s : State) (c : Nat) (x : Channel) : (setChan s c x).ears = s.ears := rfl
@[simp] theorem setChan_epochs (s : State) (c : Nat) (x : Channel) : (setChan s c x).epochs = s.epochs := rfl
@[simp] theorem setChan_halves (s : State) (c : Nat) (x : Channel) : (setChan s c x).halves = s.halves := rfl
@[simp] theorem setChan_spares (s : State) (c : Nat) (x : Channel) : (setChan s c x).spares = s.spares := rfl
@[simp] theorem setChan_merges (s : State) (c : Nat) (x : Channel) : (setChan s c x).merges = s.merges := rfl
@[simp] theorem setChan_flue (s : State) (c : Nat) (x : Channel) : (setChan s c x).flue = s.flue := rfl
@[simp] theorem setChan_flueWait (s : State) (c : Nat) (x : Channel) : (setChan s c x).flueWait = s.flueWait := rfl
@[simp] theorem setChan_flueNear (s : State) (c : Nat) (x : Channel) : (setChan s c x).flueNear = s.flueNear := rfl
@[simp] theorem setChan_mesh (s : State) (c : Nat) (x : Channel) : (setChan s c x).mesh = s.mesh := rfl
@[simp] theorem setChan_reqs (s : State) (c : Nat) (x : Channel) : (setChan s c x).reqs = s.reqs := rfl
@[simp] theorem setChan_posts (s : State) (c : Nat) (x : Channel) : (setChan s c x).posts = s.posts := rfl
@[simp] theorem setChan_notices (s : State) (c : Nat) (x : Channel) : (setChan s c x).notices = s.notices := rfl
@[simp] theorem setChan_onceBeat (s : State) (c : Nat) (x : Channel) : (setChan s c x).onceBeat = s.onceBeat := rfl
@[simp] theorem setChan_standbyWrites (s : State) (c : Nat) (x : Channel) : (setChan s c x).standbyWrites = s.standbyWrites := rfl
@[simp] theorem setChan_evq (s : State) (c : Nat) (x : Channel) : (setChan s c x).evq = s.evq := rfl
@[simp] theorem setChan_log (s : State) (c : Nat) (x : Channel) : (setChan s c x).log = s.log := rfl
@[simp] theorem setChan_time (s : State) (c : Nat) (x : Channel) : (setChan s c x).time = s.time := rfl
@[simp] theorem setChan_beat (s : State) (c : Nat) (x : Channel) : (setChan s c x).beat = s.beat := rfl
@[simp] theorem setChan_sheafMap (s : State) (c : Nat) (x : Channel) : (setChan s c x).sheafMap = s.sheafMap := rfl
@[simp] theorem setChan_bins (s : State) (c : Nat) (x : Channel) : (setChan s c x).bins = s.bins := rfl
@[simp] theorem setChan_cribs (s : State) (c : Nat) (x : Channel) : (setChan s c x).cribs = s.cribs := rfl
@[simp] theorem setChan_granary (s : State) (c : Nat) (x : Channel) : (setChan s c x).granary = s.granary := rfl
@[simp] theorem setChan_host (s : State) (c : Nat) (x : Channel) : (setChan s c x).host = s.host := rfl
@[simp] theorem setChan_links (s : State) (c : Nat) (x : Channel) : (setChan s c x).links = s.links := rfl
@[simp] theorem setChan_cribTx (s : State) (c : Nat) (x : Channel) : (setChan s c x).cribTx = s.cribTx := rfl
@[simp] theorem setChan_nextTag (s : State) (c : Nat) (x : Channel) : (setChan s c x).nextTag = s.nextTag := rfl
@[simp] theorem setChan_sends (s : State) (c : Nat) (x : Channel) : (setChan s c x).sends = s.sends := rfl
@[simp] theorem setChan_relays (s : State) (c : Nat) (x : Channel) : (setChan s c x).relays = s.relays := rfl
@[simp] theorem setChan_recvs (s : State) (c : Nat) (x : Channel) : (setChan s c x).recvs = s.recvs := rfl
@[simp] theorem setChan_rick (s : State) (c : Nat) (x : Channel) : (setChan s c x).rick = s.rick := rfl
@[simp] theorem setChan_reseeds (s : State) (c : Nat) (x : Channel) : (setChan s c x).reseeds = s.reseeds := rfl
@[simp] theorem setChan_hop (s : State) (c : Nat) (x : Channel) : (setChan s c x).hop = s.hop := rfl
@[simp] theorem setChan_record (s : State) (c : Nat) (x : Channel) : (setChan s c x).record = s.record := rfl
@[simp] theorem setChan_store (s : State) (c : Nat) (x : Channel) : (setChan s c x).store = s.store := rfl
@[simp] theorem setChan_flt (s : State) (c : Nat) (x : Channel) : (setChan s c x).flt = s.flt := rfl
@[simp] theorem setChan_img (s : State) (c : Nat) (x : Channel) : (setChan s c x).img = s.img := rfl
@[simp] theorem setChan_cad (s : State) (c : Nat) (x : Channel) : (setChan s c x).cad = s.cad := rfl
@[simp] theorem setChan_cal (s : State) (c : Nat) (x : Channel) : (setChan s c x).cal = s.cal := rfl
@[simp] theorem setChan_pwr (s : State) (c : Nat) (x : Channel) : (setChan s c x).pwr = s.pwr := rfl

@[simp] theorem setCore_pending (s : State) (u : Issuer) (c : Core) : (setCore s u c).pending = s.pending := by cases u <;> rfl
@[simp] theorem setCore_cycle (s : State) (u : Issuer) (c : Core) : (setCore s u c).cycle = s.cycle := by cases u <;> rfl
@[simp] theorem setCore_fresh (s : State) (u : Issuer) (c : Core) : (setCore s u c).fresh = s.fresh := by cases u <;> rfl
@[simp] theorem setCore_regs (s : State) (u : Issuer) (c : Core) : (setCore s u c).regs = s.regs := by cases u <;> rfl
@[simp] theorem setCore_latches (s : State) (u : Issuer) (c : Core) : (setCore s u c).latches = s.latches := by cases u <;> rfl
@[simp] theorem setCore_regResp (s : State) (u : Issuer) (c : Core) : (setCore s u c).regResp = s.regResp := by cases u <;> rfl
@[simp] theorem setCore_ears (s : State) (u : Issuer) (c : Core) : (setCore s u c).ears = s.ears := by cases u <;> rfl
@[simp] theorem setCore_epochs (s : State) (u : Issuer) (c : Core) : (setCore s u c).epochs = s.epochs := by cases u <;> rfl
@[simp] theorem setCore_halves (s : State) (u : Issuer) (c : Core) : (setCore s u c).halves = s.halves := by cases u <;> rfl
@[simp] theorem setCore_merges (s : State) (u : Issuer) (c : Core) : (setCore s u c).merges = s.merges := by cases u <;> rfl
@[simp] theorem setCore_flue (s : State) (u : Issuer) (c : Core) : (setCore s u c).flue = s.flue := by cases u <;> rfl
@[simp] theorem setCore_flueWait (s : State) (u : Issuer) (c : Core) : (setCore s u c).flueWait = s.flueWait := by cases u <;> rfl
@[simp] theorem setCore_mesh (s : State) (u : Issuer) (c : Core) : (setCore s u c).mesh = s.mesh := by cases u <;> rfl
@[simp] theorem setCore_reqs (s : State) (u : Issuer) (c : Core) : (setCore s u c).reqs = s.reqs := by cases u <;> rfl
@[simp] theorem setCore_posts (s : State) (u : Issuer) (c : Core) : (setCore s u c).posts = s.posts := by cases u <;> rfl
@[simp] theorem setCore_notices (s : State) (u : Issuer) (c : Core) : (setCore s u c).notices = s.notices := by cases u <;> rfl
@[simp] theorem setCore_onceBeat (s : State) (u : Issuer) (c : Core) : (setCore s u c).onceBeat = s.onceBeat := by cases u <;> rfl
@[simp] theorem setCore_standbyWrites (s : State) (u : Issuer) (c : Core) : (setCore s u c).standbyWrites = s.standbyWrites := by cases u <;> rfl
@[simp] theorem setCore_evq (s : State) (u : Issuer) (c : Core) : (setCore s u c).evq = s.evq := by cases u <;> rfl
@[simp] theorem setCore_log (s : State) (u : Issuer) (c : Core) : (setCore s u c).log = s.log := by cases u <;> rfl
@[simp] theorem setCore_time (s : State) (u : Issuer) (c : Core) : (setCore s u c).time = s.time := by cases u <;> rfl
@[simp] theorem setCore_beat (s : State) (u : Issuer) (c : Core) : (setCore s u c).beat = s.beat := by cases u <;> rfl
@[simp] theorem setCore_sheafMap (s : State) (u : Issuer) (c : Core) : (setCore s u c).sheafMap = s.sheafMap := by cases u <;> rfl
@[simp] theorem setCore_bins (s : State) (u : Issuer) (c : Core) : (setCore s u c).bins = s.bins := by cases u <;> rfl
@[simp] theorem setCore_cribs (s : State) (u : Issuer) (c : Core) : (setCore s u c).cribs = s.cribs := by cases u <;> rfl
@[simp] theorem setCore_granary (s : State) (u : Issuer) (c : Core) : (setCore s u c).granary = s.granary := by cases u <;> rfl
@[simp] theorem setCore_host (s : State) (u : Issuer) (c : Core) : (setCore s u c).host = s.host := by cases u <;> rfl
@[simp] theorem setCore_links (s : State) (u : Issuer) (c : Core) : (setCore s u c).links = s.links := by cases u <;> rfl
@[simp] theorem setCore_cribTx (s : State) (u : Issuer) (c : Core) : (setCore s u c).cribTx = s.cribTx := by cases u <;> rfl
@[simp] theorem setCore_nextTag (s : State) (u : Issuer) (c : Core) : (setCore s u c).nextTag = s.nextTag := by cases u <;> rfl
@[simp] theorem setCore_sends (s : State) (u : Issuer) (c : Core) : (setCore s u c).sends = s.sends := by cases u <;> rfl
@[simp] theorem setCore_relays (s : State) (u : Issuer) (c : Core) : (setCore s u c).relays = s.relays := by cases u <;> rfl
@[simp] theorem setCore_recvs (s : State) (u : Issuer) (c : Core) : (setCore s u c).recvs = s.recvs := by cases u <;> rfl
@[simp] theorem setCore_rick (s : State) (u : Issuer) (c : Core) : (setCore s u c).rick = s.rick := by cases u <;> rfl
@[simp] theorem setCore_reseeds (s : State) (u : Issuer) (c : Core) : (setCore s u c).reseeds = s.reseeds := by cases u <;> rfl
@[simp] theorem setCore_hop (s : State) (u : Issuer) (c : Core) : (setCore s u c).hop = s.hop := by cases u <;> rfl
@[simp] theorem setCore_record (s : State) (u : Issuer) (c : Core) : (setCore s u c).record = s.record := by cases u <;> rfl
@[simp] theorem setCore_store (s : State) (u : Issuer) (c : Core) : (setCore s u c).store = s.store := by cases u <;> rfl
@[simp] theorem setCore_flt (s : State) (u : Issuer) (c : Core) : (setCore s u c).flt = s.flt := by cases u <;> rfl
@[simp] theorem setCore_img (s : State) (u : Issuer) (c : Core) : (setCore s u c).img = s.img := by cases u <;> rfl
@[simp] theorem setCore_cad (s : State) (u : Issuer) (c : Core) : (setCore s u c).cad = s.cad := by cases u <;> rfl
@[simp] theorem setCore_cal (s : State) (u : Issuer) (c : Core) : (setCore s u c).cal = s.cal := by cases u <;> rfl
@[simp] theorem setCore_pwr (s : State) (u : Issuer) (c : Core) : (setCore s u c).pwr = s.pwr := by cases u <;> rfl
@[simp] theorem setCore_thm (s : State) (u : Issuer) (c : Core) : (setCore s u c).thm = s.thm := by cases u <;> rfl

/-- A time noted holds for a length once that length has passed since (R629, R676). -/
theorem heldFor_of (s : State) (o : Option Nat) (t ns : Nat) (ho : o = some t) (h : t + ns ≤ s.time) : heldFor s o ns = true := by
  subst ho; simp [heldFor, h]

end Sys2Proof.Machine
end

