-- ==== Sys2Proof/Laws/Regs.lean ====
section
/-!
SUPPORT. Read after write of registers, grains, sheaves and cores.
-/
namespace Sys2Proof.Machine

@[simp] theorem reg_setReg_same (s : State) (l : RegLoc) (v : Word) : reg (setReg s l v) l = v := by
  simp [reg, setReg]

theorem reg_setReg_other (s : State) {l m : RegLoc} (v : Word) (h : regKey m ≠ regKey l) : reg (setReg s l v) m = reg s m := by
  simp [reg, setReg, mapGet_set_other' _ _ _ _ h]

theorem reg_of_regs {s t : State} (h : t.regs = s.regs) (l : RegLoc) : reg t l = reg s l := by simp [reg, h]

@[simp] theorem grain_setGrain_same (s : State) (g : Nat) (x : Grain) : grain (setGrain s g x) g = x := by
  simp only [grain, setGrain]
  exact mapGet_set_same _ _ _ _

theorem grain_setGrain_other (s : State) {g h : Nat} (x : Grain) (n : h ≠ g) : grain (setGrain s g x) h = grain s h := by
  simp only [grain, setGrain]
  exact mapGet_set_other' _ _ _ _ n

@[simp] theorem grain_setSheaf (s : State) (sh g : Nat) (x : Sheaf) : grain (setSheaf s sh x) g = grain s g := rfl
@[simp] theorem grain_setReg (s : State) (l : RegLoc) (v : Word) (g : Nat) : grain (setReg s l v) g = grain s g := rfl
@[simp] theorem grain_incReg (s : State) (l : RegLoc) (n g : Nat) : grain (incReg s l n) g = grain s g := rfl

@[simp] theorem sheaf_setSheaf_same (s : State) (sh : Nat) (x : Sheaf) : sheaf (setSheaf s sh x) sh = x := by
  simp only [sheaf, setSheaf]
  exact mapGet_set_same _ _ _ _

theorem sheaf_setSheaf_other (s : State) {a b : Nat} (x : Sheaf) (n : b ≠ a) : sheaf (setSheaf s a x) b = sheaf s b := by
  simp only [sheaf, setSheaf]
  exact mapGet_set_other' _ _ _ _ n

@[simp] theorem sheaf_setGrain (s : State) (sh g : Nat) (x : Grain) : sheaf (setGrain s g x) sh = sheaf s sh := rfl
@[simp] theorem sheaf_setReg (s : State) (l : RegLoc) (v : Word) (sh : Nat) : sheaf (setReg s l v) sh = sheaf s sh := rfl
@[simp] theorem sheaf_incReg (s : State) (l : RegLoc) (n sh : Nat) : sheaf (incReg s l n) sh = sheaf s sh := rfl

@[simp] theorem core_setCore_same (s : State) (u : Issuer) (c : Core) : core (setCore s u c) u = c := by
  cases u <;> simp [core, setCore]

/-- A write to one unit's shared part leaves every other unit's. -/
theorem core_setCore_other (s : State) {u w : Issuer} (c : Core) (h : w ≠ u) : core (setCore s u c) w = core s w := by
  cases u with
  | grain g =>
    cases w with
    | grain k =>
      have hk : k.val ≠ g.val := fun e => h (by rw [Fin.ext e])
      simp [core, setCore, grain_setGrain_other s _ hk]
    | binder k => rfl
  | binder g =>
    cases w with
    | grain k => rfl
    | binder k =>
      have hk : k.val ≠ g.val := fun e => h (by rw [Fin.ext e])
      simp [core, setCore, sheaf_setSheaf_other s _ hk]

@[simp] theorem core_incReg (s : State) (l : RegLoc) (n : Nat) (u : Issuer) : core (incReg s l n) u = core s u := by
  cases u <;> rfl
@[simp] theorem core_setReg (s : State) (l : RegLoc) (v : Word) (u : Issuer) : core (setReg s l v) u = core s u := by
  cases u <;> rfl

/-- s0 reads as zero, whatever is written (R59). -/
@[simp] theorem sGet_zero (c : Core) : sGet c 0 = 0 := rfl
@[simp] theorem sSet_zero (c : Core) (v : Word) : sSet c 0 v = c := rfl
/-- p0 reads as one, whatever is written (R59). -/
@[simp] theorem pGet_zero (c : Core) : pGet c 0 = true := rfl
@[simp] theorem pSet_zero (c : Core) (b : Bool) : pSet c 0 b = c := rfl

end Sys2Proof.Machine
end

