-- ==== Sys2Proof/Laws/Issue.lean ====
section
/-!
SUPPORT. What the shared wrappers do: issue, verbs, register commands, packets.
-/
namespace Sys2Proof.Machine

/-- An instruction that issues takes its effect in the issued state. -/
theorem issue_of_issues {op : Op} {u : Issuer} {s : State} {i : Ins} (k : Ins → State → State) (h : issues op u s i = true) :
    issue op u s k = k i (issued u s) := by
  simp only [issues, Bool.and_eq_true, beq_iff_eq, decide_eq_true_eq, Bool.not_eq_true'] at h
  obtain ⟨⟨⟨⟨⟨⟨⟨h1, h2⟩, h3⟩, h4⟩, h5⟩, h6⟩, h7⟩, h8⟩ := h
  have h2' : ¬ (core s u).pc ≥ codeWords u := by omega
  unfold issue
  simp only [h1, ne_eq, not_true_eq_false, if_false, h2', h3, h5, h6, h7, Bool.false_eq_true]
  rw [if_neg (by simpa using h4)]
  cases u <;> simp [issued, guardOk, core] <;> intro h9 <;> simp [guardOk, core] at h8 <;> simp_all

/-- Every outcome of an issue: nothing happens, the unit faults, the guard is false, or the effect. -/
theorem issue_cases (op : Op) (u : Issuer) (s : State) (k : Ins → State → State) :
    issue op u s k = s ∨ issue op u s k = coreFault s u 0 ∨ issue op u s k = coreFault s u 1 ∨
    issue op u s k = setCore (issued u s) u (advance (core (issued u s) u) (insLen op)) ∨
    ∃ i, issues op u s i = true ∧ issue op u s k = k i (issued u s) := by
  by_cases hi : ∃ i, issues op u s i = true
  · obtain ⟨i, h⟩ := hi
    exact .inr (.inr (.inr (.inr ⟨i, h, issue_of_issues k h⟩)))
  · unfold issue
    dsimp only
    split
    · exact .inl rfl
    split
    · exact .inr (.inr (.inl rfl))
    split
    · exact .inr (.inl rfl)
    split
    · exact .inr (.inr (.inl rfl))
    split
    · exact .inr (.inl rfl)
    next i hd =>
      split
      · exact .inl rfl
      split
      · exact .inl rfl
      next h1 h2 h3 h4 h5 h6 =>
        by_cases hg : guardOk (core s u) i = true
        · exfalso
          apply hi
          refine ⟨i, ?_⟩
          simp_all [issues]
        · refine .inr (.inr (.inr (.inl ?_)))
          cases u <;> simp_all [issued, core, guardOk]

theorem verbStart_of_ready {s : State} {fn : FnId} {ring : Fin 8} {code : Nat} {v : Verb} (k : Verb → State → State)
    (h : verbReady s fn ring code v = true) : verbStart s fn ring code k = k (begun v) (started s v) := by
  simp only [verbReady, beq_iff_eq] at h
  simp [verbStart, h, begun, started]

theorem ownerVerb_of_ready {s : State} {fn : FnId} {ring : Fin 8} {code n : Nat} {v : Verb} (k : Verb → State → State)
    (h : ownerReady s fn ring code v = true) : ownerVerb s fn ring code n k = k (begun v) (started s v) := by
  simp only [ownerReady, Bool.and_eq_true, beq_iff_eq] at h
  simp [ownerVerb, verbStart_of_ready _ h.1, begun, h.2]

theorem regCommand_of_may {s : State} {i : Initiator} {l : RegLoc} (k : State → State) (h : mayWrite s i l = true) :
    regCommand i l s k = k s := by
  simp only [mayWrite, Bool.and_eq_true, bne_iff_ne, ne_eq] at h
  unfold regCommand
  split
  · simp_all
  · have h2 : unitGone s i l = false := by simpa using h.2
    simp [h.1.2, h2]

/-- A register command that reaches nothing: the standby Damper's is counted, one not permitted faults, one to a grain without
power does nothing; else its effect. -/
theorem regCommand_cases (s : State) (i : Initiator) (l : RegLoc) (k : State → State) :
    regCommand i l s k = k s ∨ regCommand i l s k = s ∨ regCommand i l s k = regFault s i (regAddr l) 3 ∨
    regCommand i l s k = { s with standbyWrites := s.standbyWrites + 1 } := by
  unfold regCommand
  split
  · exact .inr (.inr (.inr rfl))
  · split
    · exact .inr (.inr (.inl rfl))
    · split
      · exact .inr (.inl rfl)
      · exact .inl rfl

theorem arrive_of_arrived {ty : PktType} {f : Flight} {s : State} (k : State → State) (h : arrived ty f s = true) :
    arrive ty f s k = k (unlist s f) := by
  simp only [arrived] at h
  simp [arrive, h]

end Sys2Proof.Machine
end

