-- ==== Sys2Proof/Laws/Frame.lean ====
section
/-!
SUPPORT. What the shared operations leave unchanged: program counters, faults, events, scratchpad writes, issue.
-/
namespace Sys2Proof.Machine

/-! ### Program counter and loops -/

theorem loopEnd_frame (c : Core) (l n : Nat) :
    (∀ d, (loopEnd c l n).1 = some d → { d with loops := c.loops, pc := c.pc } = c) ∧
    { (loopEnd c l n).2 with loops := c.loops, pc := c.pc } = c := by
  simp only [loopEnd]
  repeat' split
  all_goals refine ⟨?_, rfl⟩
  all_goals intro d h
  all_goals simp at h
  subst h; rfl

/-- Moving past a word changes the loop levels and the program counter, nothing else of the unit. -/
theorem pcAfter_frame (c : Core) (n : Nat) : { pcAfter c n with loops := c.loops, pc := c.pc } = c := by
  obtain ⟨h1, h2⟩ := loopEnd_frame c (innerLevel c) n
  unfold pcAfter
  dsimp only
  split
  · next c1 _ e => exact h1 c1 (by rw [e])
  · next c1 e =>
    have h2' : { c1 with loops := c.loops, pc := c.pc } = c := by rw [e] at h2; exact h2
    obtain ⟨k1, k2⟩ := loopEnd_frame c1 (1 - innerLevel c) n
    split
    · next c2 _ e2 =>
      have := k1 c2 (by rw [e2])
      rw [← h2', ← this]
    · next c2 e2 =>
      have : { c2 with loops := c1.loops, pc := c1.pc } = c1 := by rw [e2] at k2; exact k2
      rw [← h2', ← this]

theorem pcAfter_fields (c : Core) (n : Nat) :
    (pcAfter c n).s = c.s ∧ (pcAfter c n).p = c.p ∧ (pcAfter c n).state = c.state ∧ (pcAfter c n).wait = c.wait ∧
    (pcAfter c n).lastPc = c.lastPc ∧ (pcAfter c n).dmaQ = c.dmaQ := by
  have h := pcAfter_frame c n
  refine ⟨?_, ?_, ?_, ?_, ?_, ?_⟩
  · have := congrArg Core.s h; simpa using this
  · have := congrArg Core.p h; simpa using this
  · have := congrArg Core.state h; simpa using this
  · have := congrArg Core.wait h; simpa using this
  · have := congrArg Core.lastPc h; simpa using this
  · have := congrArg Core.dmaQ h; simpa using this

@[simp] theorem advance_s (c : Core) (n : Nat) : (advance c n).s = c.s := (pcAfter_fields c _).1
@[simp] theorem advance_p (c : Core) (n : Nat) : (advance c n).p = c.p := (pcAfter_fields c _).2.1
@[simp] theorem sGet_advance (c : Core) (n k : Nat) : sGet (advance c n) k = sGet c k := by simp [sGet]
@[simp] theorem pGet_advance (c : Core) (n k : Nat) : pGet (advance c n) k = pGet c k := by simp [pGet]

theorem sGet_sSet_other (c : Core) {i k : Nat} (v : Word) (h : k ≠ i) : sGet (sSet c i v) k = sGet c k := by
  simp only [sGet, sSet]
  split
  · rfl
  split
  · rfl
  · simp [Vector.getD, Vector.set!, Array.getD_eq_getD_getElem?, Ne.symm h]

theorem pGet_pSet_other (c : Core) {i k : Nat} (b : Bool) (h : k ≠ i) : pGet (pSet c i b) k = pGet c k := by
  simp only [pGet, pSet]
  split
  · rfl
  split
  · rfl
  · simp [Vector.getD, Vector.set!, Array.getD_eq_getD_getElem?, Ne.symm h]

@[simp] theorem pGet_sSet (c : Core) (i k : Nat) (v : Word) : pGet (sSet c i v) k = pGet c k := by
  simp only [sSet]; split <;> rfl
@[simp] theorem sGet_pSet (c : Core) (i k : Nat) (b : Bool) : sGet (pSet c i b) k = sGet c k := by
  simp only [pSet]; split <;> rfl

/-! ### Units -/

theorem restKept_refl (s : State) : restKept s s := ⟨_, _, _, rfl⟩
theorem restKept_trans {a b c : State} (h : restKept a b) (k : restKept b c) : restKept a c := by
  obtain ⟨g, h, r, rfl⟩ := h
  obtain ⟨g', h', r', rfl⟩ := k
  exact ⟨g', h', r', rfl⟩
theorem restKept_setReg (s : State) (l : RegLoc) (v : Word) : restKept s (setReg s l v) := ⟨_, _, _, rfl⟩
theorem restKept_setGrain (s : State) (g : Nat) (x : Grain) : restKept s (setGrain s g x) := ⟨_, _, _, rfl⟩
theorem restKept_setSheaf (s : State) (h : Nat) (x : Sheaf) : restKept s (setSheaf s h x) := ⟨_, _, _, rfl⟩
theorem restKept_setCore (s : State) (u : Issuer) (c : Core) : restKept s (setCore s u c) := by
  cases u <;> exact ⟨_, _, _, rfl⟩
theorem restKept_issued (u : Issuer) (s : State) : restKept s (issued u s) := by
  unfold issued
  cases u with
  | grain g => exact restKept_trans (restKept_setReg s _ _) (restKept_setCore _ (.grain g) _)
  | binder h => exact restKept_setCore s (.binder h) _

/-- Replacing a unit's shared part changes nothing else of any unit. -/
theorem grain_setCore (s : State) (u : Issuer) (c : Core) (g : Nat) : { grain (setCore s u c) g with core := (grain s g).core } = grain s g := by
  cases u with
  | grain h =>
    by_cases e : g = h.val
    · subst e; simp [setCore]
    · simp [setCore, grain_setGrain_other _ _ e]
  | binder h => rfl
theorem sheaf_setCore (s : State) (u : Issuer) (c : Core) (h : Nat) : { sheaf (setCore s u c) h with core := (sheaf s h).core } = sheaf s h := by
  cases u with
  | binder k =>
    by_cases e : h = k.val
    · subst e; simp [setCore]
    · simp [setCore, sheaf_setSheaf_other _ _ e]
  | grain k => rfl

@[simp] theorem reg_setCore (s : State) (u : Issuer) (c : Core) (l : RegLoc) : reg (setCore s u c) l = reg s l := by
  cases u <;> rfl

/-- Issue keeps the unit but for the address it remembers. -/
theorem core_issued (u : Issuer) (s : State) : core (issued u s) u = { core s u with lastPc := (core s u).pc } := by
  cases u <;> simp [issued]
theorem core_issued_other {u w : Issuer} (s : State) (h : w ≠ u) : core (issued u s) w = core s w := by
  cases u <;> simp [issued, core_setCore_other _ _ h]
theorem grain_issued (u : Issuer) (s : State) (g : Nat) : { grain (issued u s) g with core := (grain s g).core } = grain s g := by
  cases u with
  | grain h => exact grain_setCore (incReg s (rGrain h 1 0x02C)) (.grain h) _ g
  | binder h => exact grain_setCore s (.binder h) _ g
theorem sheaf_issued (u : Issuer) (s : State) (h : Nat) : { sheaf (issued u s) h with core := (sheaf s h).core } = sheaf s h := by
  cases u with
  | grain k => exact sheaf_setCore (incReg s (rGrain k 1 0x02C)) (.grain k) _ h
  | binder k => exact sheaf_setCore s (.binder k) _ h
theorem regsKept_issued (u : Issuer) (s : State) : regsKept u s (issued u s) := by
  intro l h
  cases u with
  | grain g => simp only [issued, reg_setCore, incReg]; exact reg_setReg_other _ _ (h g rfl)
  | binder b => simp [issued]

/-! ### Events and faults -/

theorem logAdd_eq (s : State) (e : EventRec) : ∃ l, logAdd s e = { s with log := l } := by
  unfold logAdd
  split
  · exact ⟨_, rfl⟩
  · exact ⟨_, rfl⟩
theorem hold_eq (s : State) (e : EventRec) : ∃ r q, hold s e = { s with regs := r, evq := q } := by
  unfold hold incRegF
  dsimp only
  split
  · exact ⟨_, _, rfl⟩
  · exact ⟨_, _, rfl⟩
theorem countEvent_eq (s : State) (e : EventRec) : ∃ r, countEvent s e = { s with regs := r } := by
  unfold countEvent incRegF
  dsimp only
  split
  · exact ⟨_, rfl⟩
  split
  · exact ⟨_, rfl⟩
  · exact ⟨_, rfl⟩

/-- Raising an event writes the log, the functions' queues and registers, and nothing else. -/
theorem raise_eq (s : State) (ev : Ev) (part : Option Nat) (scope unit : Nat) (fields : List (Nat × Nat)) :
    ∃ l q r, raise s ev part scope unit fields = { s with log := l, evq := q, regs := r } := by
  unfold raise
  dsimp only
  generalize (⟨ev, part, scope, unit, s.time, BitVec.ofNat 128 (packFields fields)⟩ : EventRec) = e
  obtain ⟨l, h1⟩ := logAdd_eq s e
  rw [h1]
  obtain ⟨r, q, h2⟩ := hold_eq { s with log := l } e
  rw [h2]
  obtain ⟨r', h3⟩ := countEvent_eq { s with log := l, regs := r, evq := q } e
  exact ⟨l, q, r', h3⟩

/-- Raising an event touches no unit's own state. -/
theorem raise_units (s : State) (ev : Ev) (part : Option Nat) (scope unit : Nat) (fields : List (Nat × Nat)) :
    (raise s ev part scope unit fields).grains = s.grains ∧ (raise s ev part scope unit fields).sheaves = s.sheaves ∧
    (raise s ev part scope unit fields).halves = s.halves := by
  obtain ⟨l, q, r, h⟩ := raise_eq s ev part scope unit fields
  rw [h]
  exact ⟨rfl, rfl, rfl⟩

theorem grain_of_units {s t : State} (h : t.grains = s.grains) (k : t.halves = s.halves) (g : Nat) : grain t g = grain s g := by
  simp [grain, grain0, halfSt, h, k]
theorem sheaf_of_units {s t : State} (h : t.sheaves = s.sheaves) (k : t.halves = s.halves) (n : Nat) : sheaf t n = sheaf s n := by
  simp [sheaf, sheaf0, halfSt, h, k]

theorem setFault_eq (s : State) (u : Issuer) (m pc : Nat) : ∃ r, setFault s u m pc = { s with regs := r } := by
  unfold setFault orReg
  dsimp only
  split
  · exact ⟨_, rfl⟩
  · exact ⟨_, rfl⟩
theorem setFault_units (s : State) (u : Issuer) (m pc : Nat) :
    (setFault s u m pc).grains = s.grains ∧ (setFault s u m pc).sheaves = s.sheaves ∧ (setFault s u m pc).halves = s.halves := by
  obtain ⟨r, h⟩ := setFault_eq s u m pc
  rw [h]
  exact ⟨rfl, rfl, rfl⟩

theorem memsWf_of_units {s t : State} (h : t.grains = s.grains ∧ t.sheaves = s.sheaves ∧ t.halves = s.halves) (w : memsWf s) : memsWf t :=
  ⟨fun g => by rw [grain_of_units h.1 h.2.2]; exact w.1 g, fun n => by rw [sheaf_of_units h.2.1 h.2.2]; exact w.2 n⟩

theorem memsWf_setCore {s : State} (u : Issuer) (c : Core) (w : memsWf s) : memsWf (setCore s u c) :=
  ⟨fun g => by rw [show (grain (setCore s u c) g).mem = (grain s g).mem by rw [← grain_setCore s u c g]]; exact w.1 g,
   fun n => by rw [show (sheaf (setCore s u c) n).bmem = (sheaf s n).bmem by rw [← sheaf_setCore s u c n]]; exact w.2 n⟩

/-! ### Writes to memory -/

/-- A write within a word changes a scratchpad's bytes and marks, nothing else of its grain. -/
theorem spdPutIn_eq (x : Grain) (a n v : Nat) : ∃ m p d f, (m = memPut x.mem a v n ∨ m = x.mem) ∧
    spdPutIn x a n v = { x with mem := m, poison := p, told := d, scrubFix := f } := by
  unfold spdPutIn
  dsimp only
  by_cases h : n = 8
  · rw [if_pos h]
    exact ⟨memPut x.mem a v 8, _, _, _, .inl (by rw [h]), rfl⟩
  · rw [if_neg h]
    split
    · exact ⟨x.mem, _, _, x.scrubFix, .inr rfl, rfl⟩
    · exact ⟨memPut x.mem a v n, _, _, _, .inl rfl, rfl⟩

theorem spdPutIn_mem (x : Grain) (a n v : Nat) {b : Nat} (h : b < a ∨ a + n ≤ b) : memRead (spdPutIn x a n v).mem b = memRead x.mem b := by
  obtain ⟨m, p, d, f, hm, e⟩ := spdPutIn_eq x a n v
  rw [e]
  rcases hm with rfl | rfl
  · exact memRead_put_other _ _ _ _ h
  · rfl
theorem spdPutIn_wf (x : Grain) (a n v : Nat) (h : memWf x.mem = true) : memWf (spdPutIn x a n v).mem = true := by
  obtain ⟨m, p, d, f, hm, e⟩ := spdPutIn_eq x a n v
  rw [e]
  rcases hm with rfl | rfl
  · exact memWf_put _ _ _ _ h
  · exact h

/-- What a write to the scratchpad leaves of its grain. -/
theorem spdPutIn_frame (x : Grain) (a n v : Nat) : { spdPutIn x a n v with mem := x.mem, poison := x.poison, told := x.told, scrubFix := x.scrubFix } = x := by
  obtain ⟨m, p, d, f, hm, e⟩ := spdPutIn_eq x a n v
  rw [e]

theorem foldl_keeps {α β : Type} (P : β → Prop) (f : β → α → β) (h : ∀ x a, P x → P (f x a)) (l : List α) (x : β) (hx : P x) : P (l.foldl f x) := by
  induction l generalizing x with
  | nil => exact hx
  | cons a l ih => exact ih _ (h x a hx)

theorem spdPutRaw_wf (x : Grain) (a n v : Nat) (h : memWf x.mem = true) : memWf (spdPutRaw x a n v).mem = true := by
  simp only [spdPutRaw]
  split
  · exact spdPutIn_wf _ _ _ _ h
  · exact foldl_keeps (fun x : Grain => memWf x.mem = true) _ (fun _ _ k => spdPutIn_wf _ _ _ _ k) _ _ h

theorem spdPutRaw_mem (x : Grain) (a n v : Nat) {b : Nat} (h : b < a ∨ a + n ≤ b) :
    memRead (spdPutRaw x a n v).mem b = memRead x.mem b := by
  simp only [spdPutRaw]
  split
  · exact spdPutIn_mem _ _ _ _ h
  · next h8 =>
    suffices H : ∀ (l : List Nat) (x : Grain), (∀ k ∈ l, k < n / 8) →
        memRead (l.foldl (fun x k => spdPutIn x (a + 8 * k) 8 (v / 256 ^ (8 * k) % 256 ^ 8)) x).mem b = memRead x.mem b from
      H _ _ (fun k hk => List.mem_range.mp hk)
    intro l
    induction l with
    | nil => intro x _; rfl
    | cons k l ih =>
      intro x hk
      rw [List.foldl_cons, ih _ (fun j hj => hk j (List.mem_cons_of_mem _ hj))]
      have := hk k List.mem_cons_self
      exact spdPutIn_mem _ _ _ _ (by omega)

/-- The parts of a grain that writes to its scratchpad may change: x and y differ in nothing else. -/
def spdOnly (x y : Grain) : Prop := ∃ m p d q f, y = { x with mem := m, poison := p, told := d, mxuQ := q, scrubFix := f }

theorem spdOnly_trans {x y z : Grain} (h : spdOnly x y) (k : spdOnly y z) : spdOnly x z := by
  obtain ⟨_, _, _, _, _, rfl⟩ := h
  obtain ⟨_, _, _, _, _, rfl⟩ := k
  exact ⟨_, _, _, _, _, rfl⟩
theorem spdOnly_refl (x : Grain) : spdOnly x x := ⟨x.mem, x.poison, x.told, x.mxuQ, x.scrubFix, rfl⟩
theorem spdPutIn_only (x : Grain) (a n v : Nat) : spdOnly x (spdPutIn x a n v) := by
  obtain ⟨m, p, d, f, _, e⟩ := spdPutIn_eq x a n v
  exact ⟨m, p, d, x.mxuQ, f, e⟩
theorem spdPutRaw_only (x : Grain) (a n v : Nat) : spdOnly x (spdPutRaw x a n v) := by
  simp only [spdPutRaw]
  split
  · exact spdPutIn_only _ _ _ _
  · exact foldl_keeps (spdOnly x) _ (fun _ _ k => spdOnly_trans k (spdPutIn_only _ _ _ _)) _ _ (spdOnly_refl x)
theorem mxuKeep_only (x : Grain) (l : List Nat) : spdOnly x (mxuKeep x l) := ⟨x.mem, x.poison, x.told, _, x.scrubFix, rfl⟩

theorem spdPuts_wf (x : Grain) (n : Nat) (l : List (Nat × Nat)) (h : memWf x.mem = true) : memWf (spdPuts x n l).mem = true :=
  foldl_keeps (fun x : Grain => memWf x.mem = true) _ (fun _ _ k => spdPutRaw_wf _ _ _ _ k) l _ h

/-- An access changes no byte outside the pieces it writes. -/
theorem spdPuts_mem (x : Grain) (n : Nat) (l : List (Nat × Nat)) {b : Nat} (h : ∀ e ∈ l, b < e.1 ∨ e.1 + n ≤ b) :
    memRead (spdPuts x n l).mem b = memRead x.mem b := by
  suffices H : ∀ (l : List (Nat × Nat)) (x : Grain), (∀ e ∈ l, b < e.1 ∨ e.1 + n ≤ b) →
      memRead (l.foldl (fun y e => spdPutRaw y e.1 n e.2) x).mem b = memRead x.mem b from H l _ h
  intro l
  induction l with
  | nil => intro x _; rfl
  | cons e l ih =>
    intro x hl
    rw [List.foldl_cons, ih _ (fun j hj => hl j (List.mem_cons_of_mem _ hj))]
    exact spdPutRaw_mem _ _ _ _ (hl e List.mem_cons_self)

/-- An access to the scratchpad changes its bytes and marks and what the matrix unit keeps, nothing else of its grain. -/
theorem spdPuts_only (x : Grain) (n : Nat) (l : List (Nat × Nat)) : spdOnly x (spdPuts x n l) :=
  foldl_keeps (spdOnly x) _ (fun _ _ k => spdOnly_trans k (spdPutRaw_only _ _ _ _)) l _ (mxuKeep_only x _)

theorem spdPut_wf (x : Grain) (a n v : Nat) (h : memWf x.mem = true) : memWf (spdPut x a n v).mem = true := spdPuts_wf x n _ h

theorem spdPut_mem (x : Grain) (a n v : Nat) {b : Nat} (h : b < a ∨ a + n ≤ b) :
    memRead (spdPut x a n v).mem b = memRead x.mem b := spdPuts_mem x n _ (by simpa using h)

theorem spdPut_frame (x : Grain) (a n v : Nat) :
    ∃ m p d q f, spdPut x a n v = { x with mem := m, poison := p, told := d, mxuQ := q, scrubFix := f } := spdPuts_only x n _

/-- A write within a word changes the bytes and marks of binder memory, nothing else of its sheaf. -/
theorem bmemPutIn_eq (x : Sheaf) (a n v : Nat) : ∃ m p f, (m = memPut x.bmem a v n ∨ m = x.bmem) ∧
    bmemPutIn x a n v = { x with bmem := m, bpoison := p, scrubFix := f } := by
  unfold bmemPutIn
  dsimp only
  by_cases h : n = 8
  · rw [if_pos h]
    exact ⟨memPut x.bmem a v 8, _, _, .inl (by rw [h]), rfl⟩
  · rw [if_neg h]
    split
    · exact ⟨x.bmem, x.bpoison, x.scrubFix, .inr rfl, rfl⟩
    · exact ⟨memPut x.bmem a v n, x.bpoison, _, .inl rfl, rfl⟩
theorem bmemPutIn_wf (x : Sheaf) (a n v : Nat) (h : memWf x.bmem = true) : memWf (bmemPutIn x a n v).bmem = true := by
  obtain ⟨m, p, f, hm, e⟩ := bmemPutIn_eq x a n v
  rw [e]
  rcases hm with rfl | rfl
  · exact memWf_put _ _ _ _ h
  · exact h
theorem bmemPut_wf (x : Sheaf) (a n v : Nat) (h : memWf x.bmem = true) : memWf (bmemPut x a n v).bmem = true := by
  simp only [bmemPut]
  split
  · exact bmemPutIn_wf _ _ _ _ h
  · exact foldl_keeps (fun x : Sheaf => memWf x.bmem = true) _ (fun _ _ k => bmemPutIn_wf _ _ _ _ k) _ _ h
theorem bmemPutIn_mem (x : Sheaf) (a n v : Nat) {b : Nat} (h : b < a ∨ a + n ≤ b) : memRead (bmemPutIn x a n v).bmem b = memRead x.bmem b := by
  obtain ⟨m, p, f, hm, e⟩ := bmemPutIn_eq x a n v
  rw [e]
  rcases hm with rfl | rfl
  · exact memRead_put_other _ _ _ _ h
  · rfl
theorem bmemPutIn_frame (x : Sheaf) (a n v : Nat) : { bmemPutIn x a n v with bmem := x.bmem, bpoison := x.bpoison, scrubFix := x.scrubFix } = x := by
  obtain ⟨m, p, f, hm, e⟩ := bmemPutIn_eq x a n v
  rw [e]

theorem memsWf_setGrain {s : State} (g : Nat) (x : Grain) (w : memsWf s) (h : memWf x.mem = true) : memsWf (setGrain s g x) := by
  refine ⟨fun k => ?_, fun k => w.2 k⟩
  by_cases e : k = g
  · subst e; simpa using h
  · rw [grain_setGrain_other _ _ e]; exact w.1 k
theorem memsWf_setSheaf {s : State} (g : Nat) (x : Sheaf) (w : memsWf s) (h : memWf x.bmem = true) : memsWf (setSheaf s g x) := by
  refine ⟨fun k => w.1 k, fun k => ?_⟩
  by_cases e : k = g
  · subst e; simpa using h
  · rw [sheaf_setSheaf_other _ _ e]; exact w.2 k

theorem memsWf_leave {s : State} (u : Issuer) (w : memsWf s) : memsWf (leave s u) := by
  cases u with
  | binder h => exact w
  | grain g =>
    simp only [leave, earLeave]
    split
    · refine foldl_keeps memsWf _ ?_ _ _ w
      intro t h wt
      simp only [earAbandonOne]
      split
      · exact memsWf_of_units (setFault_units _ _ _ _) (memsWf_setGrain _ _ wt (wt.1 h))
      · exact wt
    · exact w

/-- A fault of a unit leaves every memory in canonical form. -/
theorem memsWf_coreFault {s : State} (u : Issuer) (b : Nat) (w : memsWf s) : memsWf (coreFault s u b) :=
  memsWf_leave u (memsWf_of_units (raise_units _ _ _ _ _ _) (memsWf_of_units (setFault_units _ _ _ _) (memsWf_setCore u _ w)))

theorem memsWf_issued {s : State} (u : Issuer) (w : memsWf s) : memsWf (issued u s) := by
  cases u with
  | grain g => exact memsWf_setCore (s := incReg s (rGrain g 1 0x02C)) (.grain g) _ (memsWf_of_units ⟨rfl, rfl, rfl⟩ w)
  | binder h => exact memsWf_setCore (.binder h) _ w

/-- An issue keeps the canonical form of the memories where its effect does. -/
theorem memsWf_issue (op : Op) (u : Issuer) (s : State) (k : Ins → State → State) (w : memsWf s)
    (h : ∀ i t, memsWf t → memsWf (k i t)) : memsWf (issue op u s k) := by
  rcases issue_cases op u s k with e | e | e | e | ⟨i, _, e⟩ <;> rw [e]
  · exact w
  · exact memsWf_coreFault u 0 w
  · exact memsWf_coreFault u 1 w
  · exact memsWf_setCore u _ (memsWf_issued u w)
  · exact h i _ (memsWf_issued u w)

theorem memsWf_localFault {s : State} (u : Issuer) (st : Bool) (a : Nat) (w : memsWf s) : memsWf (localFault s u st a) := by
  simp only [localFault, addrFault]
  refine memsWf_of_units (raise_units _ _ _ _ _ _) ?_
  split
  · exact memsWf_of_units (setFault_units _ _ _ _) w
  · exact w

end Sys2Proof.Machine
end

