-- ==== Sys2Proof/WellFormed.lean ====
section
/-!
DEFINITION. Which commands are well formed: the packet of an arrival has the type its command names, and a body of the
length its head gives (R276 to R278).
-/
namespace Sys2Proof

/-- The flight a packet command carries, and the packet type the command names (R278). -/
def flightOf : Instr → Option (PktType × Flight)
  | .write f => some (.write, f)
  | .readReq f _ => some (.readReq, f)
  | .lockReq f => some (.lockReq, f)
  | .creditReq f => some (.creditReq, f)
  | .regReq f => some (.regReq, f)
  | .notifyPacket f => some (.notify, f)
  | .ack f => some (.ack, f)
  | .gone f => some (.gone, f)
  | .readData f => some (.readData, f)
  | .writeCredited f => some (.writeCredited, f)
  | .lockResp f => some (.lockResp, f)
  | .creditGrant f => some (.creditGrant, f)
  | .regResp f => some (.regResp, f)
  | .creditRelease f => some (.creditRelease, f)
  | .flueGatewayWrite f => some (.write, f)
  | _ => none

/-- The body lengths a packet type may have (R278). -/
def bodyRange : PktType → Nat × Nat
  | .write | .readData | .writeCredited => (1, 4)
  | .regReq => (0, 1)
  | .regResp => (1, 1)
  | _ => (0, 0)

/-- A packet whose body has a length its type allows, named by LEN; the LEN of a READ_REQ is the rows it asks for
(R276, R277). -/
def Packet.wf (p : Packet) : Bool :=
  let r := bodyRange p.type
  r.1 ≤ p.body.length && p.body.length ≤ r.2 &&
    (if p.type = .readReq then 1 ≤ p.len.toNat && p.len.toNat ≤ 4 else p.len.toNat == p.body.length)

/-- A well-formed command. -/
def Instr.wf (i : Instr) : Bool :=
  match flightOf i with
  | some (t, f) => f.pkt.type == t && f.pkt.wf
  | none => true

end Sys2Proof
end

