-- ==== Sys2Proof/Tests/Slice0.lean ====
section
/-!
SUPPORT. The model's own tests: for every statement with hypotheses, a state and operands that meet them (each theorem test_<statement>,
at the ends of the ranges its clauses name); instruction words written out from the fields of R75, R90 and R192; the smoke test of
WellFormed; and a few single steps.
-/
open Sys2Proof Sys2Proof.Machine
namespace Sys2Proof.Tests

/-! ### Instruction words, written out from the fields of R75, R90 and R192 -/

/-- Grain 0, RUNNING at the first word of its code, which holds an instruction; and the binder of sheaf 0. -/
def gAt (n0 n1 : Nat) (x : Grain := {}) : State :=
  { grains := [(0, { x with core := { x.core with state := .running }, code := memPut {} 0 (n0 + 2 ^ 32 * n1) 8 })] }
def bAt (n0 n1 : Nat) (c : Core := {}) : State :=
  { sheaves := [(0, { core := { c with state := .running }, bmem := memPut {} 0 (n0 + 2 ^ 32 * n1) 8 })] }

/-- The word, or the two words, decode to an instruction of an operation, which issues there. -/
def gGo (op : Op) (n0 : Nat) (n1 : Nat := 0) (x : Grain := {}) : Bool :=
  (decodeIns false n0 n1).any (fun i => issues op (.grain 0) (gAt n0 n1 x) i)
def bGo (op : Op) (n0 : Nat) (n1 : Nat := 0) (c : Core := {}) : Bool :=
  (decodeIns true n0 n1).any (fun i => issues op (.binder 0) (bAt n0 n1 c) i)
def go (e : Op × Nat) : Bool := gGo e.1 e.2 && bGo e.1 e.2
/-- Partition 0 RUNNING on the first sheaf, whose first grain's port is open. -/
def own0 (s : State := {}) : State := setFence (setReg (setReg s (rPrt 0 4) 0x1040) (rPrt 0 8) 2) 0 false

theorem test_ScalarArithmetic : [(Op.add, 0b000001_000_0_11111_11110_11101_0000000), (.sub, 0b000001_000_0_00000_00001_00010_0000001), (.andd, 0b000001_000_0_00011_00011_00011_0000010),
    (.orr, 0b000001_000_0_00001_00010_00011_0000011), (.xor, 0b000001_000_0_00001_00010_00011_0000100), (.slt, 0b000001_000_0_00001_00010_00011_0001000), (.sltu, 0b000001_000_0_00001_00010_00011_0001001),
    (.mul, 0b000001_000_0_00001_00010_00011_0001100), (.mulh, 0b000001_000_0_00001_00010_00011_0001101), (.addi, 0b000010_000_0_00001_00010_100000000000), (.andi, 0b000011_000_0_00001_00010_111111111111),
    (.ori, 0b000100_000_0_00001_00010_111111111111), (.xori, 0b000101_000_0_00001_00010_111111111111), (.li, 0b000111_000_0_00001_10000000000000000), (.lih, 0b001000_000_0_00001_01111111111111111),
    (.shi, 0b000110_000_0_00001_00010_100000011111)].all go = true := by decide
theorem test_R785ScalarFunctions : [(Op.minS, 0b000001_000_0_00001_00010_00011_0001010), (.maxS, 0b000001_000_0_00001_00010_00011_0001011), (.sll, 0b000001_000_0_00001_00010_00011_0000101),
    (.srl, 0b000001_000_0_00001_00010_00011_0000110), (.sra, 0b000001_000_0_00001_00010_00011_0000111), (.clz, 0b000001_000_0_00001_00010_00000_0001110), (.popc, 0b000001_000_0_00001_00010_00000_0001111),
    (.rdcyc, 0b000000_000_0_00001_00000_00000_0000011), (.rdid, 0b000000_000_0_00001_00000_00000_0000100)].all go = true := by decide
theorem test_PredicateResults : [(Op.pcmp, 0b001001_000_0_00111_00010_00011_0000101), (.pcmpi, 0b001010_000_0_11001_00010_111111111111), (.pand, 0b001011_000_0_00001_00010_00011_0000000),
    (.por, 0b001011_000_0_00001_00010_00011_0000001), (.pxor, 0b001011_000_0_00001_00010_00000_0000010), (.pandn, 0b001011_000_0_00000_00111_00111_0000011), (.p2s, 0b001011_000_0_11111_00000_00000_0000100),
    (.s2p, 0b001011_000_0_00111_11111_00000_0000101)].all go = true := by decide
theorem test_BranchesAndLinks : [(Op.br, 0b001100_000_0_11111_00000_001111111111), (.jr, 0b001101_111_1_11111_00001_111111111111)].all go = true := by decide
theorem test_HaltBreakNop : [(Op.nop, 0b000000_000_0_00000_00000_00000_0000000), (.halt, 0b000000_000_0_00000_00000_00000_0000001), (.brk, 0b000000_000_0_00000_00000_00000_0000010)].all go = true ∧
    regBit (setRegF (gAt 0 0) (rCtrl (.grain 0)) 1 1 1) (rCtrl (.grain 0)) 1 = true ∧
    regBit (gAt 0 0) (rCtrl (.grain 0)) 1 = false := by decide
/-- Both counts, and the least end a body may have. -/
theorem test_HardwareLoops : go (.loop, 0b001110_000_0_1_0000_00001_00_1111111111) = true ∧ go (.loop, 0b001110_000_0_0_0000_00001_00_0000000001) = true ∧
    sGet { s := (Vector.replicate 32 0).set! 1 (1 : Word) } 1 ≠ 0 ∧ sGet ({} : Core) 1 = 0 := by decide
theorem test_ScalarLoads : [(Op.lw, 0b010000_000_0_00001_00010_000000000100), (.lhu, 0b010001_000_0_00001_00010_000000000010), (.lbu, 0b010010_000_0_00001_00010_000000000001),
    (.lh, 0b010011_000_0_00001_00010_000000000010), (.lb, 0b010100_000_0_00001_00010_000000000000)].all go = true := by decide
/-- The last word of the scratchpad lies in it, and the next does not. -/
theorem test_ScalarStores : [(Op.sw, 0b010101_000_0_00001_00010_000000000100), (.sh, 0b010110_000_0_00001_00010_000000000010), (.sb, 0b010111_000_0_00001_00010_000000000001)].all go = true ∧
    (let c : Core := { s := (Vector.replicate 32 0).set! 2 (0xBFFC : Word) }
     (decodeIns false 0b010101_000_0_00001_00010_000000000000 0).any (fun i => scalarAddr (.grain 0) c i 4 < spdSize) = true ∧
     (decodeIns false 0b010101_000_0_00001_00010_000000000100 0).any (fun i => scalarAddr (.grain 0) c i 4 < spdSize) = false) := by decide
theorem test_VectorMemory : gGo .vld 0b011000_000_0_11111_00010_000000000001 = true ∧ gGo .vst 0b011001_000_0_11111_00010_000000000001 = true ∧ gGo .vldt 0b011100_000_0_11110_00010_00000_0000001 = true ∧
    gGo .vlds 0b011010_000_0_00001_00010_00011_0000011 = true ∧ gGo .vsts 0b011011_000_0_00001_00010_00011_0000011 = true ∧
    (decodeIns false 0b011000_000_0_11111_00010_000000000001 0).any (fun i => firstBad (fourRows (vecAddr {} i)) == none) = true ∧
    (decodeIns false 0b011010_000_0_00001_00010_00011_0000011 0).any (fun i =>
      let offs := segOffs { s := (Vector.replicate 32 0).set! 3 (16 : Word) } i
      firstBad offs == none && (List.range 4).all (fun k => !segLost offs k)) = true := by decide
theorem test_VectorArithmetic : [(Op.vadd, 0b100000_000_0_11111_11110_11101_000_0000), (.vsub, 0b100000_000_0_00001_00010_00011_001_0001), (.vmul, 0b100000_000_0_00001_00010_00011_010_0010),
    (.vmin, 0b100000_000_0_00001_00010_00011_011_0011), (.vmax, 0b100000_000_0_00001_00010_00011_100_0100), (.vabs, 0b100000_000_0_00001_00010_00000_000_0101), (.vneg, 0b100000_000_0_00001_00010_00000_000_0110),
    (.vfma, 0b100001_000_0_00001_00010_00011_000_0000), (.vshl, 0b100010_000_0_00001_00010_00011_010_0011), (.vshr, 0b100010_000_0_00001_00010_00011_010_0100),
    (.vsar, 0b100010_000_0_00001_00010_00011_010_0101)].all (fun e => gGo e.1 e.2) = true := by decide
theorem test_VectorLogicAndFunctions : [(Op.vand, 0b100010_000_0_00001_00010_00011_000_0000), (.vor, 0b100010_000_0_00001_00010_00011_000_0001), (.vxor, 0b100010_000_0_00001_00010_00011_000_0010),
    (.vcmpeq, 0b100011_000_0_00001_00010_00011_000_0000), (.vcmplt, 0b100011_000_0_00001_00010_00011_000_0001), (.vcmple, 0b100011_000_0_00001_00010_00011_100_0010), (.vexp2, 0b100100_000_0_00001_00010_00000_000_0000),
    (.vlog2, 0b100100_000_0_00001_00010_00000_001_0001), (.vrcp, 0b100100_000_0_00001_00010_00000_000_0010), (.vrsqrt, 0b100100_000_0_00001_00010_00000_001_0011)].all (fun e => gGo e.1 e.2) = true := by decide
theorem test_VectorSelectionsAndReductions : [(Op.vsel, 0b100011_000_0_00001_00010_00011_000_0011), (.vbcst, 0b100110_000_0_00001_00010_00000_011_0000), (.vext, 0b100110_000_0_00001_00010_00011_100_0001),
    (.vperm, 0b100110_000_0_00001_00010_00011_001_0010), (.vrsum, 0b100101_000_0_00001_00010_00000_000_0000), (.vrmax, 0b100101_000_0_00001_00010_00000_001_0001), (.vrmin, 0b100101_000_0_00001_00010_00000_010_0010),
    (.vrdl, 0b101011_000_0_11000_00000_00000_001_0011)].all (fun e => gGo e.1 e.2) = true := by decide
theorem test_ConversionResults : [(Op.vqnt, 0b101000_000_0_00001_00010_00011_000_0111), (.vdq, 0b101001_000_0_00010_00001_00011_000_0000), (.vcvt, 0b101010_000_0_00001_00010_00011_000_0001),
    (.vacc, 0b100111_000_0_11100_00011_00000_000_0000), (.vaccz, 0b100111_000_0_00000_00000_00000_010_0001)].all (fun e => gGo e.1 e.2) = true := by decide
/-- A figure that is stated, and one that is not. -/
theorem test_ErgotResidual : gGo .ergres 0b101010_000_0_00000_00010_00011_000_1000 = true ∧ residFig (ofBits fp32 0x3f800000) = some 0xFFFF ∧
    isNan (ofBits fp32 0x3f800000) = false ∧ residFig (ofBits fp32 0xbf800000) = none := by decide
def mop (imm : Nat := 0) : MxuOp := { imm := imm, w1 := 0, sa := 0, sw := 0, sx := 0, sm := 0, issued := 0 }
theorem test_MatrixUnit : gGo .mxu 0b111110_000_0_11_0_0_0111_0110_00_00_0_11111 0 = true ∧
    mismatch (mop) ({} : Tile).ttype ({} : Tile).texp = false ∧ (mop).begun = false ∧ (mop).ready = false ∧ mxuTile (mop).imm < 4 ∧
    (let x : Grain := { mxuQ := [{ mop with begun := true, ready := true }, mop] }
     mismatch (mop) (tileNow x 0).1 (tileNow x 0).2 = false) := by decide

/-! ### Synchronisation, ears and DMA -/

theorem test_WaitOutcomes : go (.wait, 0b110000_000_0_0111_111_11111_11110_00000) = true ∧ gGo .wait 0b110000_000_0_1111_000_00000_00000_00000 = true ∧
    (Machine.core (gAt 0 0 { core := { wait := .tally 15 0 none 7 } }) (.grain 0)).wait = .tally 15 0 none 7 ∧
    0 ≤ (waitView (gAt 0 0) (.grain 0) 15).1 ∧
    (Machine.core { bAt 0 0 { wait := .tally 7 1 (some 9) 0 } with cycle := 9 } (.binder 0)).wait = .tally 7 1 (some 9) 0 := by decide
theorem test_TallyOperations : [(Op.tcRd, 0b110001_000_0_00001_00010_00111_0000000), (.tcSet, 0b110001_000_0_00001_00010_00111_0000001), (.tcSub, 0b110001_000_0_00001_00010_00111_0000010),
    (.tcAdd, 0b110001_000_0_00001_00010_00111_0000011), (.tcClrerr, 0b110001_000_0_00001_00010_00111_0000100)].all go = true ∧ gGo .tcRd 0b110001_000_0_00001_00010_01111_0000000 = true := by decide
theorem test_CreditOperations : [(Op.cwSet, 0b110010_000_0_00001_00010_00011_0000000), (.cwRet, 0b110010_000_0_00001_00010_00011_0000001), (.cwRd, 0b110010_000_0_00001_00000_00011_0000010),
    (.cwClose, 0b110010_000_0_00001_00000_00000_0000011)].all (fun e => gGo e.1 e.2) = true := by decide
/-- The handle 0 names lock word 0 of sheaf 0, of the partition of its grains; a back-off ends at its cycle, a time at its own. -/
theorem test_LockOperations : [(Op.lockTry, 0b110011_000_0_00001_00000_00000_0000000), (.lockAcq, 0b110011_000_0_00001_00000_00011_0000001), (.lockRel, 0b110011_000_0_00001_00000_00000_0000010)].all go = true ∧
    (let s := issued (.grain 0) (own0 (gAt 0 0))
     lockFault s (.grain 0) (xlatLock s (partOf s (.grain 0)) 0) = none) ∧
    ([(Op.lockTry, 0b110011_000_0_00010_00001_00000_0000000), (.lockAcq, 0b110011_000_0_00010_00001_00000_0000001), (.lockRel, 0b110011_000_0_00010_00001_00000_0000010)].all
        (fun e => gGo e.1 e.2 0 { core := sSet {} 1 64 }) = true ∧
      (let s := issued (.grain 0) (gAt 0b110011_000_0_00010_00001_00000_0000000 0 { core := sSet {} 1 64 })
       lockFault s (.grain 0) (xlatLock s (partOf s (.grain 0)) (sGet (Machine.core s (.grain 0)) 1)) = some 1)) ∧
    (let s := { gAt 0 0 { core := { wait := .lock 1 0 1 (some 5) (some 4) } } with cycle := 4 }
     (Machine.core s (.grain 0)).wait = .lock 1 0 1 (some 5) (some 4) ∧ 4 ≤ s.cycle ∧ s.cycle < 5 ∧ 5 ≤ { s with cycle := 5 }.cycle) := by decide
theorem test_FenceOperations : [(Op.fenceL, 0b110100_000_0_00000_00000_00000_0000000), (.fenceS, 0b110100_000_0_00000_00000_00000_0000001), (.fenceG, 0b110100_000_0_00000_00000_00000_0000010)].all go = true := by decide
/-- A unicast and a multicast handle without a fault; four rows may end at the scratchpad's end. -/
theorem test_PutAndNotify : gGo .put 0b110101_000_0_00001_00010_00011_0000010 = true ∧ gGo .notify 0b110110_000_0_00111_00000_00000_0000000 = true ∧
    (let s := issued (.grain 0) (own0 (gAt 0 0))
     putFault s 0 (xlatPut s (grainPart s 0) 0) 0xBFC0 64 = none ∧ bit (xlatPut s (grainPart s 0) 0) 27 = false ∧
     putFault s 0 0x8000000 0 16 = none ∧ bit (0x8000000 : Word) 27 = true) := by decide
theorem test_BinderInstructions : [(Op.beatw, 0b111001_000_0_00001_00000_00000_0000000), (.gsigStart, 0b111010_000_0_00000_00001_00010_0000000), (.gsigHalt, 0b111010_000_0_00000_00001_00010_0000001),
    (.stoke, 0b111000_000_0_00000_00001_00010_0000000), (.regwr, 0b111011_000_0_00001_00010_00011_0000000), (.regrd, 0b111100_000_0_00001_00010_00011_0000000)].all (fun e => bGo e.1 e.2) = true ∧
    (let s := issued (.binder 0) (bAt 0 0)
     regAddrFault s (.binder 0) (xlatAddr s (partOf s (.binder 0)) (regAddr (rSheaf 0 1 0xC))) = none) := by decide

/-- Ear 0 with its first two grains as participants, both waiting with EARSUM. -/
def earState : State :=
  let x : Grain := { core := { state := .waitEar, wait := .ear .sum 0 1 } }
  setReg { grains := [(0, x), (1, x)] } (rSheaf 0 1 0x40) 3
theorem test_EarOperationsAndPower : [(Op.earsum, 0b101100_000_0_00001_00010_00000_000_0000), (.earmax, 0b101100_000_0_00001_00010_00000_000_0001), (.earmin, 0b101100_000_0_00001_00010_00000_000_0010),
      (.earisum, 0b101100_000_0_00001_00010_00000_010_0011), (.earbar, 0b101100_000_0_00000_00000_00000_000_0100)].all (fun e => gGo e.1 e.2) = true ∧
    earAll earState (participants earState 0) = some [(0, .sum, 0, 1), (1, .sum, 0, 1)] ∧
    mayWrite (own0) (.host 0 0) (rSheaf 0 1 0x18) = true ∧
    (ear { ears := [(0, { goal := some .on })] } 0).goal = some .on ∧
    (ear { ears := [(3, { goal := some .off })] } 3).goal = some .off := by decide +kernel

def desc : Desc := { id := 0, read := true, cw := 0, remote := 0, hiBad := false, rows := 1, stride := 0, lrow := 0, ctally := 1, dtally := 0, rowLen := 1, pc := 0 }
/-- Binder 0 whose stream ring of 2 is enabled and holds one descriptor, and a stream of it. -/
def ringOn : State := { sheaves := [(0, { bmem := memPut {} 0x3FFC0 (2 ^ 28 + 2 ^ 64 + 2 ^ 127) 16 })] }
def stRun : StreamRun := { id := 1, index := 0, row0 := 0, row1 := 0 }
theorem test_DmaAndStreams : go (.dmaRead, 0b111111_000_0_000_11_00001_00010_11111_00) = true ∧ go (.dmaWrite, 0b111111_000_0_001_00_00001_00010_00011_00) = true ∧
    ([desc].find? (fun d => d.reason.isNone && d.nextRow < d.rows)) = some desc ∧
    ([{ desc with nextRow := 1 }].find? dmaEnded).isSome = true ∧ ([{ desc with reason := some 2 }].find? dmaEnded).isSome = true ∧
    (window (gAt 0 0 { cw := (Vector.replicate 4 {}).set! 3 { avail := 4, queue := [(4, .remote { type := .creditReq, mc := false, tag := 0, dst := 0, src := 0, epoch := 0, part := 0, len := 0, tally := 0, cw := 3, status := 0, addr := 4, body := [] })] } }) 0 3).queue.length = 1 := by decide
theorem test_Streams : (stWord ringOn 0 3).testBit 31 = true ∧ ((sheaf ringOn 0).streams.filter (fun q => !q.ended)).length < 4 ∧
    (sheaf ringOn 0).streams.length < (stWord ringOn 0 2 % 2 ^ 16 % stSize ringOn 0 + stSize ringOn 0 - stWord ringOn 0 1 % 2 ^ 16 % stSize ringOn 0) % stSize ringOn 0 ∧
    ([stRun].find? (fun q => !q.ended && q.left == 0)) = some stRun ∧
    (let s : State := { ringOn with grains := [], sheaves := [(0, { streams := [stRun] })] }
     (s.sheaves.flatMap (fun e => e.2.streams.filter (stReady s 0))) = [stRun] ∧
     (earOn s ((256 * 0 + (stFirst stRun + stRun.next)) / 16) && !fenced (setFence s 0 false) (256 * 0 + (stFirst stRun + stRun.next))) = true) := by decide
/-- With no READ before it and no place left over, a descriptor joins the queue as it is. -/
theorem test_dmaPut : (desc.read = false ∨ ∀ e ∈ ([] : List Desc), e.read = false) ∧ desc.laps = [] := by decide

/-! ### Units, packets, upkeep -/

theorem test_UnitAndRouterControl : mayWrite (own0) (.host 0 0) (rCtrl (.grain 0)) = true ∧ mayWrite (own0) (.host 0 0) (rCtrl (.binder 0)) = true ∧ bit (1 : Word) 0 = true ∧ bit (2 : Word) 0 = false ∧
    mayWrite (own0) (.host 0 0) (rGrain 0 1 0x1C) = true ∧ loadBad {} 0 0 1024 = false ∧ loadBad {} 0 1 1024 = true ∧
    mayWrite State.reset (.host 0 0) (rGrain 5 3 0) = true ∧ mayWrite State.reset (.host 0 0) (rTag 5 63) = true ∧ ownsPorts (.host 0 0) = true := by decide

/-- A packet of a type for grain 0, and its flight at grain 0's local port. -/
def pk (ty : PktType) (a : BitVec 48 := 0) (b : List (BitVec 128 × Bool) := []) : Packet :=
  { type := ty, mc := false, tag := 0, dst := 0, src := 0, epoch := 0, part := 0, len := 0, tally := 0, cw := 0, status := 0, addr := a, body := b }
def fl (ty : PktType) (a : BitVec 48 := 0) (b : List (BitVec 128 × Bool) := []) : Flight := ⟨pk ty a b, 0, 4⟩
/-- Grain 0's port open. -/
def open0 : State := setFence State.reset 0 false
theorem test_RequestsArrive : [PktType.write, .writeCredited, .readReq, .lockReq, .creditReq, .creditRelease, .notify, .regReq].all
      (fun ty => arrived ty (fl ty) open0) = true ∧
    granaryWaits open0 0 (pk .readReq) = false ∧ lockAbsent open0 (pk .lockReq) = false ∧
    targetDrains open0 0 (pk .readReq) = false ∧ (readRows open0 0 { pk .readReq with len := 1 } []).isSome = true ∧
    drains open0 (.sheaf 0) = false ∧ closedTo open0 0 (pk .creditReq) = false ∧ fenced open0 0 = false ∧
    drains open0 (.grain 0) = false ∧ unitGone open0 (.binder 0) (locOf (regAddr (rGrain 0 1 4))) = false := by decide
theorem test_ResponsesArrive : [PktType.ack, .gone, .readData, .lockResp, .creditGrant, .regResp].all (fun ty => arrived ty (fl ty) open0) = true ∧
    [Requester.put 0 true, .dma (.grain 0) 0 0 0 true, .lock (.grain 0) true true, .lock (.grain 0) true false, .reg 0 (some 1)].all (fun w =>
      let s := { open0 with reqs := [⟨0, 0, w⟩] }
      (answers s 0 (pk .ack)).any (fun q => q.who == w) && !orphaned s (reqPort w) (pk .ack)) = true ∧
    (let w : Requester := .flue 0 0 0 0 0
     let s := { open0 with reqs := [⟨0, 0, w⟩] }
     (answers s 0 (pk .creditGrant)).any (fun q => q.who == w) = true ∧ orphaned s (reqPort w) (pk .creditGrant) = false) ∧
    arrived .ack ⟨{ pk .ack with mc := true }, 0, 3⟩ open0 = true := by decide
theorem test_WriteBuffer : ([fl .write].find? (fun f => isCredited State.reset 0 f == false)) = some (fl .write) ∧
    ([fl .writeCredited].find? (fun f => isCredited State.reset 0 f == true)) = some (fl .writeCredited) ∧
    ([⟨fl .write, false, [], [], 0, none, 0⟩] : List WbEntry)[0]? = some ⟨fl .write, false, [], [], 0, none, 0⟩ := by decide
/-- The gateway of half 0 is the Flue port of its last column; an entry of it that wants credit. -/
theorem test_MeshFaultsAndFlue : fluePort 0 1 = false ∧ regBit (orReg (losePkt State.reset (fl .write)) (rGrain 0 3 4) 2) (rGrain 0 3 4) 0 = false ∧
    (inFlight { mesh := [fl .write] } (fl .write)).isSome = true ∧ regBit (orReg State.reset (rGrain 0 3 4) 1) (rGrain 0 3 4) 0 = true ∧
    atGateway ⟨{ pk .write with src := 0x100000 }, Fin.ofNat 1474560 (grainAt 0 959 0), 1⟩ = true ∧
    flueWants { valid := true, chunk := 1 } = true ∧ flueWants { valid := true, chunk := 1, backoff := true } = true ∧
    mayWrite State.reset (.host 0 0) (rFlue 7 0xC) = true ∧ mayWrite State.reset (.host 0 0) (rFlue 0 0x10) = true := by decide
theorem test_GrainUpkeep : mayWrite (own0) (.host 0 0) (rGrain 0 2 0xB8) = true ∧ mayWrite (own0) (.host 0 0) (rGrain 0 2 0xBC) = true ∧
    noticed { notices := [(3, [7])] } 3 [7] = [7] ∧
    cwSetOk (window State.reset 0 3) = true ∧ bits (0xf0000 : Word) 21 20 = 0 ∧ bits (0x1f0000 : Word) 21 20 = 1 ∧ bits (0xc0000000 : Word) 29 28 = 0 ∧
    bits (0xd0000000 : Word) 29 28 = 1 ∧ bits (0xe0000000 : Word) 29 28 = 2 ∧
    regF State.reset (rGrain 0 2 0xAC) 15 0 ≠ 0 ∧ earOn State.reset (earOfGrain 0) = true ∧ (grain State.reset 0).poison = [] ∧
    ([⟨0, 63, 0, {}, none⟩] : List ErgotPost).find? (fun q => q.part == 63) = some ⟨0, 63, 0, {}, none⟩ ∧
    mayWrite State.reset (.host 0 0) (rErg 63 8) = true := by decide

/-! ### Attention, bins, registers -/

def job : WJob := { id := 1, row0 := 0, row1 := 0 }
def wst (w : Winnow) : State := { sheaves := [(0, { wnw := w })] }
theorem test_AttentionJobs : (framePop (setReg (setReg State.reset (rWnw 0 0x2C) 0x10000000) (rWnw 0 0x34) 1) 0).isSome = true ∧
    framePop State.reset 0 = none ∧ ([{ job with wait := some 2 }].find? (fun j => j.wait.isSome)) = some { job with wait := some 2 } ∧
    (let j : WJob := { job with begun := true, done := true }
     jobOf (pagesRun [] 0 1 65537 (wst { jobs := [j] })) 0 1 = some j) ∧
    (mayWrite (own0) (.host 0 0) (rWnw 0 0xE4) = true ∧ glnMode State.reset 0 = true ∧ bits (0x40000000 : Word) 31 30 = 1 ∧ bits (0x80000000 : Word) 31 30 = 2) ∧
    (wnw State.reset 0).jobs.any (fun j => j.begun) = false ∧ mayWrite (own0) (.host 0 0) (rGln 0 8) = true := by decide
/-- A Winnow with one sound layer, whose job ring of two holds one job, in its own mode and in a Gleaner's with a valid directory entry for
slot 0. -/
def jobRing (gln : Bool) : State :=
  let s : State := { sheaves := [(0, { bmem := memPut {} 0x1000 (2 ^ 127) 16 })] }
  let s1 := setReg (setReg (setReg (setReg s (rWnw 0 8) 0x10000000) (rWnw 0 0x10) 1) (rWnw 0 0x24) 0x400000) (rWnw 0 0x40) 0x80410800
  setReg (setReg (setReg s1 (rWnw 0 0) (if gln then 0x80000000 else 0xC0000000)) (rGln 0 0) 1) (rGln 0 4) 0x1000
theorem test_jobStart : [false, true].all (fun gln =>
    let s := jobRing gln
    winTakes s 0 && (wnw s 0).jobs.isEmpty && decide (0 < (regF s (rWnw 0 0x10) 15 0 + 2 - regF s (rWnw 0 0xC) 15 0 % 2) % 2) &&
      (winMem s 0 0 32 []).2.isSome && glnMode s 0 == gln &&
      (let j : WJob := { id := 0, row0 := 0, row1 := 0 }
       let s2 := setWnw { s with nextTag := 1 } 0 { wnw s 0 with jobs := [j] }
       jobOf s2 0 0 == some j && !layerBad s2 0 (layer s2 0 (jLayer j)) j && !jExited j &&
         decide (jSlot j < 2 ^ regF s2 (rGln 0 4) 31 28) && (winMem s2 0 (dirAddr s2 0 0 0) 16 []).2.any (fun e =>
           !gln || (bit (BitVec.ofNat 128 e) 127 && !bit (BitVec.ofNat 128 e) 126)))) = true := by decide
/-- A window of the whole bin fits, one unit more does not. -/
theorem test_BinsAndAllocations : regBit State.reset (rBin 15 4) 5 = false ∧ regBit State.reset (rBin 15 4) 7 = false ∧
    regBit (setReg State.reset (rBin 15 0) 1) (rBin 15 0) 0 = true ∧ (binSt State.reset 15).poison.contains (binSt State.reset 15).cursor = false ∧
    (binSt { bins := [(15, { fix := some 3 })] } 15).fix = some 3 ∧ mayWrite State.reset (.host 0 0) (rBin 15 0x44) = true ∧
    mayWrite State.reset (.host 0 0) (rCrb 0x20) = true ∧ mayWrite State.reset (.host 0 0) (rCrb 0x18) = true ∧
    (winValid 0x800000ff = true ∧ binEnd 0x800000ff = 256 ∧ binEnd 0x800001ff = 257) ∧
    cribState (setRegF State.reset (rCrb 0xC 0) 31 30 2) 0 = 2 := by decide
/-- GRN_CTRL of grain 0, read and written by the owner at port 0. -/
theorem test_RegisterAccesses : (let a := regAddr (rGrain 0 1 4)
    accessTo (own0) (.host 0 0) a = .reg a ∧ regAddrFault (own0) (.host 0 0) (accessAddr (own0) (.host 0 0) a) = none ∧
    unitGone (own0) (.host 0 0) (locOf (accessAddr (own0) (.host 0 0) a)) = false) ∧ Initiator.host 0 0 ≠ .damper true := by decide

/-! ### The host's verbs -/

/-- A verb of the owner's first ring, and the state in which it waits. -/
def vb (code : Nat) (op0 : BitVec 128 := 0) : Verb :=
  { id := 0, fn := 0, ring := 0, code := code, tag := 0, irq := false, order := false, op0 := op0, op1 := 0, res := 0 }
def hv (code : Nat) (op0 : BitVec 128 := 0) (s : State := {}) : State := { s with host := { verbs := [vb code op0] } }
/-- The same verb started, and the state in which it takes its effect. -/
def vs (code : Nat) (op0 : BitVec 128 := 0) : Verb := begun (vb code op0)
def hs (code : Nat) (op0 : BitVec 128 := 0) (s : State := {}) : State := started (hv code op0 s) (vb code op0)

/-- Every verb of the statements may start; those of the owner do. -/
theorem test_verbs_start : [0x00, 0x01, 0x02, 0x30, 0x31, 0x32, 0x33, 0x40, 0x41, 0x42, 0x43, 0x44, 0x50, 0x51, 0x52, 0x53, 0x54, 0x55, 0x56, 0x57,
    0x58, 0x59, 0x60, 0x61, 0x62, 0x63, 0x64, 0x65, 0x66, 0x67, 0x68, 0x70, 0x71, 0x72, 0x73, 0x74, 0x80, 0x81, 0x82, 0x88, 0x90, 0x91, 0x92,
    0x93, 0x94, 0x95, 0x96, 0x97, 0x98, 0x99].all (fun k => ownerReady (hv k) 0 0 k (vb k)) = true := by decide

/-- The owner's first ring enabled at an UP port 0, of 2 entries; and its event ring. -/
def hostOn (s : State := {}) : State :=
  setReg (setReg (setReg (setRegF s (rPortSt 0) 31 31 1) (rHst 0 0xC 0) 0x80100000) (rHst 0 0) 0x80000000) (rHst 0 0x34) 0x80000010
def cpl : Cpl := ⟨0, 0, 0, 0, 0, false, 0, 0⟩
theorem test_HostCommands : ringSize (hostOn) 0 0 = 2 ∧ (1 : BitVec 16).toNat < ringSize (hostOn) 0 0 ∧
    (regBit (hostOn) (rHst 0 0xC 0) 31 = true ∧ portUp (hostOn) (ringPort (hostOn) 0 0) = true ∧
      regF (hostOn) (rHst 0 0x20 0) 15 0 ≠ mapGet 0 [((0 : Nat), (1 : Nat))] 0 ∧ verbBad (mkVerb 0 0 0 0) 0 = none) ∧
    (let v := { vs 1 with op0 := BitVec.ofNat 128 (16 * 2 ^ 48) }
     (List.range 128).any (fun k => !dmaBad State.reset { v with op0 := BitVec.ofNat 128 (16 * 2 ^ k) } false &&
       !dmaBad State.reset { v with op0 := BitVec.ofNat 128 (16 * 2 ^ k) } true) = true) ∧
    (regF (hostOn) (rHst 0 0x24 0) 15 0 + 1 < ringSize (hostOn) 0 0 ∧
      regF (hostOn) (rHst 0 0x24 0) 15 0 + 1 ≠ regF (hostOn) (rHst 0 0x28 0) 15 0 % ringSize (hostOn) 0 0) ∧
    dmaWaits (hv 2) 0 0 = false ∧ evtReady (hostOn) 0 = true ∧ (mapGet {} [(0, (⟨true, false, 0⟩ : IrqSt))] 0).gap = true := by decide +kernel

/-- Link 0 of port 0 UP to a module. -/
def upL (s : State := {}) : State := setLinkSt s 0 0 3
/-- Send ring 0 of port 0 enabled with one descriptor of 16 bytes at row 0 of bin 0. -/
def sendOn : State :=
  { setReg (setReg (setReg State.reset (rDrt 0 0x84 0) 0x10000000) (rDrt 0 0x88 0) 0x80000000) (rDrt 0 0x90 0) 1 with sheaves := [(0, {})] }
theorem test_SendsAndRoles : (sheafCodeOk (regF sendOn (rDrt 0 0x88 0) 13 0) = true ∧ regBit sendOn (rDrt 0 0x88 0) 31 = true ∧
      regF sendOn (rDrt 0 0x8C 0) 15 0 % sendSize sendOn 0 0 ≠ regF sendOn (rDrt 0 0x90 0) 15 0 % sendSize sendOn 0 0 ∧
      bmemPoisoned (bmemRead sendOn 0 (sendSlot sendOn 0 0 0) 32 [] 5).2 0 (sendSlot sendOn 0 0 0) 32 = false ∧
      nbits (sdSrc { id := 0, die := 0, ring := 0, index := 0, sh := 0, row0 := 0, row1 := 0 }) 47 44 ≤ 2) ∧
    linkUp (upL) 0 0 = true ∧ posOwn (upL) 5 = true ∧
    (let t := upL (hs 0x30 0x60)
     bits (vs 0x30 0x60).op0 2 0 ≤ 5 ∧ (lk t 0 0).ask = none ∧ linkUp t 0 0 = true ∧ linkCrib t 0 0 = false ∧
     (if !bit (vb 0x30 0x60).op0 5 then cadUp t 0 0 else isCoord t) = !bit (vb 0x30 0x60).op0 6) ∧
    (lk { links := [(0, { ask := some ⟨0, true, true, 0, 0, false, false, false⟩ })] } 0 0).ask = some ⟨0, true, true, 0, 0, false, false, false⟩ := by decide
/-- A module at position 0 of two, linked by link 0 of port 0 with the module at position 1. -/
def twoMods : State :=
  setReg (setReg (upL { rick := { topo := some ⟨1, [(0, Config.moduleSerial), (1, Config.moduleSerial + 1)], 0, [0, 1]⟩ } })
    (rDrt 0 0xC 0) (word ((Config.moduleSerial + 1).toNat % 2 ^ 32))) (rDrt 0 0x10 0) (word ((Config.moduleSerial + 1).toNat / 2 ^ 32))
theorem halves_join (m : BitVec 64) : BitVec.ofNat 64 ((word (m.toNat % 2 ^ 32)).toNat + (word (m.toNat / 2 ^ 32)).toNat * 2 ^ 32) = m := by
  have h := m.isLt
  apply BitVec.eq_of_toNat_eq
  rw [word, word, BitVec.toNat_ofNat, BitVec.toNat_ofNat, BitVec.toNat_ofNat]
  omega
theorem twoMods_peer : peerSerial twoMods 0 0 = Config.moduleSerial + 1 := by
  have a : reg twoMods (rDrt 0 0xC 0) = word ((Config.moduleSerial + 1).toNat % 2 ^ 32) := by
    unfold twoMods; rw [reg_setReg_other _ _ (by decide), reg_setReg_same]
  have b : reg twoMods (rDrt 0 0x10 0) = word ((Config.moduleSerial + 1).toNat / 2 ^ 32) := by
    unfold twoMods; rw [reg_setReg_same]
  rw [peerSerial, a, b]; exact halves_join _
theorem twoMods_links : modLinks twoMods = [(0, 0)] := by
  have e : ∀ x ∈ allLinks, reg twoMods (rDrt x.1 8 x.2) = reg (upL) (rDrt x.1 8 x.2) := by
    intro x hx
    have k : ∀ x ∈ allLinks, regKey (rDrt x.1 8 x.2) ≠ regKey (rDrt 0 0x10 0) ∧ regKey (rDrt x.1 8 x.2) ≠ regKey (rDrt 0 0xC 0) := by decide
    unfold twoMods; rw [reg_setReg_other _ _ (k x hx).1, reg_setReg_other _ _ (k x hx).2]; rfl
  have f : modLinks twoMods = modLinks (upL) := by
    unfold modLinks
    apply List.filter_congr
    intro x hx
    simp only [linkUp, linkSt, linkCrib, regF, regBit, e x hx]
  rw [f]; decide
theorem test_relay : linkUp twoMods 0 0 = true ∧ posOwn twoMods 1 = false ∧ posHeld twoMods 1 = true ∧ nextHop twoMods 1 = some (0, 0) := by
  refine ⟨?_, ?_, ?_, ?_⟩
  · have h : (0, 0) ∈ modLinks twoMods := by rw [twoMods_links]; simp
    unfold modLinks at h; simp at h; exact h.2.1
  · simp [posOwn, ownPos, twoMods, upL, setLinkSt, setRegF, setReg]
  · simp [posHeld, serialAt, twoMods, upL, setLinkSt, setRegF, setReg]
  · have t : twoMods.rick.topo = some ⟨1, [(0, Config.moduleSerial), (1, Config.moduleSerial + 1)], 0, [0, 1]⟩ := rfl
    simp [nextHop, t, twoMods_links, twoMods_peer, nextHopIn]

/-! ### Loads, the Hopper, the Granary -/

/-- The Granary ready, with namespace 0 of 10 blocks. -/
def gry (g : Granary := { spaces := [(0, ⟨10, 1, 2⟩)] }) : State := { setReg State.reset (rGry 4) 1 with granary := g }
def load : LoadRun := { id := 1, ring := none, index := 0, verb := none, row0 := 0, row1 := 0, nsid := 0, part := 0 }
def model : Model := { commit := 3, nsid := 0, handle := 0, st := .open_, base := 0, blocks := 1, place := [(0, 1)] }
def gryM (m : Model) : State := gry { spaces := [(0, ⟨10, 1, 2⟩)], models := [m] }
theorem test_GranaryLoads : (let s := gry { regions := [(7, { queue := [load], turn := 8 })] }
      gryReady s = true ∧ (region s 7).runs.length < 4 ∧ (region s 7).queue = [load] ∧ (region s 7).turn = 8) ∧
    (region { granary := { regions := [(7, { runs := [{ load with fault := some 2 }, load] })] } } 7).runs.find? ldEnded = some { load with fault := some 2 } ∧
    ldEnded load = true ∧
    (let t := hs 0x59 0 (gryM model)
     gryReady t = true ∧ nsPermits t 0 0 = true ∧ (mapFind t.granary.spaces 0).isSome = true ∧ bits (vs 0x59 0).op0 23 8 ≠ 0xFFFF ∧
     byHandle (gryM { model with st := .sealed }) 0 0 = some { model with st := .sealed } ∧ pendingSt { model with st := .sealed } = false ∧
     (srcBytes t 0 false 0 0 (some [])).isSome = true) := by decide

/-- A Hopper of one entry, with model 0 in row 0 for 16 tokens. -/
def hop (e : HEntry := {}) : State :=
  { setReg (setReg (setReg (setReg (setReg State.reset (rHop 0 0) 0x80000000) (rHop 0 4) 1) (rHop 0 8) 0x10000) (rHop 0 0x64 0) 0x40000000) (rHop 0 0x70 0) 16
      with hop := { entries := [(0, e)] } }
def subm (n : Nat) : Verb := { vs 0x40 with op1 := BitVec.ofNat 128 (n * 2 ^ 40 + 2 ^ 34) }
def queued : HEntry := { st := .queued, stream := true, maxLen := 8 }
theorem test_HopperCommands : (hopEnabled (hop) 0 = true ∧ submitBad (hop) (subm 16) = false ∧ (entAt (hop) 0 0).st = .free ∧ hopSize (hop) 0 = 1 ∧
      submitWhy (submitPut (hop) (subm 16) 0) 0 (newEntry (hop) (subm 16) 0) 0 = none ∧
      submitWhy (submitPut (hop) (subm 17) 0) 0 (newEntry (hop) (subm 17) 0) 0 = some 4) ∧
    (named (hop queued) 0 0 = some 0 ∧ (entAt (hop queued) 0 0).st = .queued ∧ modelRow (hop queued) 0 0 = some 0 ∧
      0 ≤ bits (0 : BitVec 128) 63 44 ∧ 0 + queued.maxLen ≤ rowContext (hop queued) 0 0) ∧
    terminal (entAt (hop { st := .done }) 0 0).st = true ∧
    ((hpart { hop := { parts := [(5, { cut := 3, cutTold := true })] } } 5).cut ≠ 0) ∧
    (let s := own0 (setReg { hop := { parts := [(0, { disp := [(0, 0)] })] } } (rHop 0 0x14) 0x10000000)
     hopFault s 0 (reg s (rHop 0 0x10)) = none ∧ drains s (.sheaf ((locSheaf s 0 (reg s (rHop 0 0x10))).getD 0)) = false ∧
     (0 + 1) % 2 ≠ memGet (sheaf s 0).bmem (regF s (rHop 0 0x14) 17 0 / 32 * 32) 4 % 2) := by decide

/-- A report of a kind on ring 0 for entry 0, in hand, with the entry in a state. -/
def rep (kind : Nat) (low : Nat := 0) : BitVec 128 := BitVec.ofNat 128 (kind * 2 ^ 124 + low)
def inHand (kind low : Nat) (e : HEntry) : State :=
  let s := hop e
  { s with hop := { s.hop with rings := [(0, { hand := some (rep kind low, 0) })] } }
def handOk (kind low : Nat) (e : HEntry) : Bool :=
  let s := inHand kind low e
  (repRing s 0 0).hand == some (rep kind low, 0) && rpKind (rep kind low) == kind && rpNamed (setRep s 0 0 {}) 0 (rep kind low) == some 0 &&
    !(entAt (setRep s 0 0 {}) 0 0).quar
theorem test_ReportsAndOutputs :
    (let s := own0 (setReg (setReg (hop) (rHop 0 0x1C 0) 0x80000000) (rHop 0 0x20 0) 0x20000000)
     bit (reg s (rHop 0 0x1C 0)) 31 = true ∧ (repRing s 0 0).hand = none ∧ hopFault s 0 (reg s (rHop 0 0x1C 0)) = none ∧
     drains s (.sheaf 0) = false ∧ bmemPoisoned (bmemRead s 0 32 32 [] 4).2 0 32 32 = false ∧
     bit (BitVec.ofNat 128 (2 ^ 100)) 100 = !(repRing s 0 0).pass ∧ 0 + 1 < 2 ^ regF s (rHop 0 0x20 0) 31 28 ∧
     rpBad s 0 (rep 2 0) = false) ∧
    handOk 1 0 { st := .decode } = true ∧ handOk 2 0 { st := .prefill } = true ∧
    (handOk 3 (15 * 2 ^ 68) { st := .decode, eager := true, specK := 4, maxLen := 9 } = true ∧ leadOnes (bits (rep 3 (15 * 2 ^ 68)) 75 68) 8 0 = 4) ∧
    handOk 5 (5 * 2 ^ 96) {} = true ∧ handOk 6 (8 * 2 ^ 96) {} = true ∧ handOk 7 0 {} = true ∧
    (rpKind (rep 4) = 4 ∧ regBit (setReg State.reset (rMoe 0 0) 0x80000000) (rMoe 0 0) 31 = true) ∧
    (let s := hostOn (setReg State.reset (rHop 0 0x2C) 4)
     portUp s (homePort s 0) = true ∧ regBit s (rHst 0 0) 31 = true ∧ regF s (rHop 0 0x34) 19 0 + 1 < 2 ^ min 20 (regF s (rHop 0 0x2C) 4 0) ∧
     regF s (rHop 0 0x34) 19 0 + 1 ≠ regF s (rHop 0 0x30) 19 0 % 2 ^ min 20 (regF s (rHop 0 0x2C) 4 0)) := by decide

/-- Commits: a placement of one block, of a handle with no model; a repair of a degraded model; and the other verbs on a commit. -/
theorem test_GranaryCommits :
    (let t := gry {}
     gryReady t = true ∧ mapFind t.granary.spaces 0 = none ∧ (t.granary.spaces.map (fun e => nsQuota t e.1)).sum + 1048576 ≤ 1048576) ∧
    (let t := gry
     (t.granary.models.filter (fun m => m.nsid == 0)) = [] ∧ (srcBytes t 0 false 0 4 (some [1, 0, 0, 0])).isSome = true ∧
     (placeEntry 1).isSome = true ∧ roHalf t [0] = false ∧ byHandle t 0 0 = none ∧ commitLimit t 0 = false ∧ nsAlloc t 0 + 10 ≤ nsQuota t 0 ∧
     noRoom t [(0, 1)] = false ∧ (nsBase t 0 1).isSome = true) ∧
    (let t := gryM { model with st := .degraded, done := [(0, 0, 0, 0)] }
     (byHandle t 0 0).isSome = true ∧ t.granary.models.any (fun r => r.repair && r.nsid == 0 && r.handle == 0 && pendingSt r) = false ∧
     roHalf t [0] = false ∧ noRoom t [(0, 1)] = false) ∧
    (let t := gryM model
     modelOf t 3 = some model ∧ nsPermits t 0 model.nsid = true ∧ 0 < model.blocks ∧ blkRegion model 0 = some 0 ∧ mapFind model.done 0 = none ∧
     (region t 0).jobs.any (fun j => j.commit == 3 && j.mblock == 0) = false ∧ pendingSt model = true) ∧
    ({ model with done := [(0, 0, 0, 5)] }.blocks ≤ { model with done := [(0, 0, 0, 5)] }.done.length) := by decide
def pjob : ProgJob := { verb := 0, commit := 3, mblock := 0, bytes := {}, len := 16384, phys := some 0 }
theorem test_commitDataDone : (let s := gryM model
    0 ≤ regF (incReg s (rGryF 0 0x20) 1) (rGryF 0 0xC) 7 0 ∧ 0 ≤ regF s (rGry 0x14) 7 0 ∧
    modelOf (modBlk (incReg s (rGryF 0 0x20) 1) 0 0 (fun k => { k with len := 5 })) 3 = some model ∧ pjob.held = false ∧ pjob.phys = some 0) := by
  decide
theorem test_GranaryUpkeep : gryReady State.reset = false ∧
    (let s := { gryM { model with st := .suspended } with time := 2 ^ 16 * 1000000000 }
     modelOf s 3 = some { model with st := .suspended } ∧ gryReady s = true ∧ 0 + regF s (rGry 0) 15 0 * 1000000000 ≤ s.time) ∧
    (let r : Region := { blocks := [(6, { st := .used, len := 1, marked := true }), (7, { erased := false })] }
     let s := gry { regions := [(0, r)] }
     (((dataBlks r).filter (fun e => e.2.st == .used && e.2.len != 0)).flatMap
        (fun e => (List.range ((e.2.len + 16383) / 16384)).map (fun p => 1024 * e.1 + p))).find? (fun k => k ≥ r.scrub) = some 6144 ∧
     ((dataBlks (region s 0)).filter (fun e => e.2.st == .used && e.2.marked)).length = 1 ∧ (pickBlk (region s 0)).isSome = true ∧ gryHeld s 0 = false ∧
     ((dataBlks (region s 0)).find? (fun e => e.2.st == .free && !e.2.erased)).isSome = true) ∧
    gryHeld (setRegF (gry) (rGryF 0 0) 2 2 1) 0 = true := by decide +kernel

/-! ### Links, the Rick, cadence -/

def idn : Ident := { certOk := true, crib := false, serial := 5, version := 1, port := 3, link := 1, creditReq := 8, creditRsp := 8, capacity := 0
                     rickId := 7, coord := false, cadUp := true, position := none, members := 1 }
theorem test_LinkBringUp : (let s := setRegF (setRegF State.reset (rDrt 5 0) 31 31 1) (rDrt 5 0) 1 0 3
     regBit s (rDrt 5 0) 31 = true ∧ laneLink s 5 15 = 2 ∧ linkSt s 5 2 ≠ 4) ∧
    (let s := setLinkSt (setRegF State.reset (rDrt 0 0) 31 31 1) 0 0 4; regBit s (rDrt 0 0) 31 = true ∧ laneLink s 0 15 = 0 ∧ linkSt s 0 0 = 4) ∧
    (regF (setReg State.reset (rDrt 0 0x18 0) 0x8001) (rDrt 0 0x18 0) 15 0 = 0x8001 ∧ 0x8001 / 2 ^ 15 % 2 = 1 ∧ (0x8001 : Nat) ≠ 2 ^ 15) ∧
    ((0xffff &&& BitVec.ofNat 16 (lk { links := [(0, { signal := 1 })] } 0 0).signal).toNat ≠ 0 ∧ linkSt (setLinkSt State.reset 0 0 1) 0 0 = 1) ∧
    linkSt (setLinkSt State.reset 0 0 2) 0 0 = 2 ∧ regBit State.reset (rDrt 0 0x14 0) 0 = !idn.cadUp ∧ (lk State.reset 0 0).tries < 2 ∧
    linkSt (setLinkSt State.reset 5 3 5) 5 3 = 5 ∧ linkUp (upL) 0 0 = true ∧ bits (vs 0x33 5).op0 2 0 ≤ 5 := by decide
def txn : Txn := { op := .read, len := 1, dest := 0, src := 0, tag := 0, part := 0, status := 0, addr := 0, body := [] }
def head : FrameHead := { tagOk := true, keyPhase := false, seq := 0, ack := 0, nak := false, creditReq := 0, creditRsp := 0 }
def ctx : CribTx := { tag := 9, slot := 0, pkt := pk .readReq, at_ := 0 }
theorem test_LinkFrames : linkUp (upL) 0 0 = true ∧ (lk (headTake (upL) 0 0 head) 0 0).unacked < 63 ∧ (lk (headTake (upL) 0 0 head) 0 0).rxSeq = none ∧
    2 ^ 40 ≤ (lk (upL { links := [(0, { frames := 2 ^ 40 })] }) 0 0).frames ∧
    linkSlot (setRegF (upL) (rCrb 0xC 7) 31 30 1) 0 0 = some 7 ∧ [ctx].find? (fun x => x.tag == 9) = some ctx ∧
    ctx.tries < regF (setRegF State.reset (rCrb 0) 15 12 1) (rCrb 0) 15 12 ∧
    regF (setRegF State.reset (rCrb 0) 15 12 1) (rCrb 0) 15 12 ≤ { ctx with tries := 1 }.tries := by decide
def tok : SweepTok := { seq := 1, present := 1, recs := [], rev := false, path := [], back := true, start := 0 }
theorem test_RickRecordsAndSweeps : (∀ o, (upL).rick.topo = some o → o.version < 1) ∧
    (let s := setRick State.reset { topo := some ⟨1, [(0, Config.moduleSerial)], 0, [0]⟩ }
     isCoord s = true ∧ s.rick.sweep.running = none) ∧
    (let s := upL (setRick State.reset { topo := some ⟨1, [(1, Config.moduleSerial)], 0, [0, 1]⟩ })
     isCoord s = false ∧ (s.rick.topo.bind ownPos) = some 1 ∧
       (ctlSend s 0 0 (.tokenAck 1)).rick.sweep.seen.contains (1, false, true, 0) = false) ∧
    regF (setReg State.reset (rDrt 0 0x100) 1) (rDrt 0 0x100) 15 0 ≠ 0 ∧
    (upL { rick := { sweep := { kept := some (tok, 0, 0), running := some { tok with rev := true } } } }).rick.sweep.kept = some (tok, 0, 0) := by
  refine ⟨by simp [upL, setLinkSt, setRegF, setReg], ⟨by simp [isCoord, ownPos, setRick, State.reset], by decide⟩,
    ⟨by simp [isCoord, ownPos, upL, setLinkSt, setRegF, setReg, setRick, State.reset],
     by simp [ownPos, upL, setLinkSt, setRegF, setReg, setRick, State.reset], by decide⟩, by decide +kernel, by decide +kernel⟩
/-- Cadence in a state, with DRAUGHT on link 0 of port 0 as its source. -/
def cad (st : Nat) (s : State := {}) : State := setReg (setCadState s st) (rCad 0x30) (word (100 * 2 ^ 16 + 50))
theorem test_CadenceTime : (999999000 ≤ 1000001000 ∧ State.reset.cad.ppsBad = 0) ∧
    regBit (setRegF State.reset (rCad 4) 8 8 1) (rCad 4) 8 = true ∧
    (let s := { cad 1 with time := 10000000000, cad := { nearAt := some 0 } }
     cadState s = 1 ∧ s.cad.nearAt = some 0 ∧ 0 + 10000000000 ≤ s.time) ∧
    (let s := { cad 2 with time := 1000000005, cad := { farAt := some 5 } }
     cadState s = 2 ∧ s.cad.farAt = some 5 ∧ 5 + 1000000000 ≤ s.time) ∧
    (let s := { cad 3 with time := 2 ^ 16 * 1000000000 }
     cadState s = 3 ∧ s.cad.holdFrom + regF s (rCad 0) 15 0 * 1000000000 ≤ s.time) ∧
    (let s := setRegF (setRegF { cad 1 with time := 2 ^ 16 * 1000000000, cad := { quals := (Vector.replicate 4 false).set! 1 true } } (rCad 0) 31 30 1) (rCad 4) 5 4 2
     cadState s = 1 ∧ cadInUse s ≠ cadPrimary s ∧ cadNamed s (cadPrimary s) = true ∧ qualified s (cadPrimary s) = true ∧
     s.cad.qualAt.getD (cadPrimary s) 0 + regF s (rCad 0x34) 15 0 * 1000000000 ≤ s.time) ∧
    (cadUp (setRegF (upL (cad 2)) (rDrt 0 8 0) 18 18 1) 0 0 = true ∧ linkCrib (upL) 0 0 = false) ∧
    (cadLink (ctlSend (upL) 0 0 .delay) = (0, 0) ∧ (⟨0, 2, 15, 250⟩ : CadWord).hops ≤ 15) ∧
    (regF (setReg State.reset (rCad 0x2C) 0x5000000) (rCad 0x2C) 31 24 = 5 ∧ 10 % 5 = 0) ∧
    ((hs 0x70 (2 ^ 64)).cad.step = none ∧ (hs 0x70 (2 ^ 64)).cad.first = none ∧ bit (vs 0x70 (2 ^ 64)).op0 64 = true) ∧
    ((hs 0x71 50).cad.beta = none ∧ bits (vs 0x71 50).op0 13 0 = 50 ∧ bits (vs 0x71 10000).op0 13 0 = 10000 ∧ regF (hs 0x71 50) (rImg 0) 3 0 = 0) := by
  decide +kernel
def calr : CalRun := { num := 1, verb := 0, op := 4, beat := 0, left := [(2, 193)] }
theorem test_Calibration : ((hs 0x72 4).cal.run = none ∧ calAbsent (hs 0x72 4) 4 = false ∧ nbits 4 1 1 = 0 ∧ nbits 4 4 0 ≠ 0) ∧
    calInputs (setCal (hs 0x72 4) { run := some calr, figs := [] }) calr 2500 = none ∧
    calInputs State.reset calr (-2500) = none ∧ chanInterval State.reset 193 < 2 ∧ calInputs State.reset calr 2501 = some 0x40 ∧
    calPoor (setReg State.reset (rCal 0x14) 0x00100000) 2 16 0 = false ∧ nbits calr.op 31 20 = 0 ∧ calr.left ≠ [] ∧
    ((hs 0x73).cal.run = none ∧ bits (vs 0x74 4).op0 4 0 ≤ 4) ∧ linkUp (upL) 0 0 = true := by decide

/-! ### Power, heat, images -/

def pst (p : Power) (s : State := {}) : State := { s with pwr := p }
def pw0 (x : FieldPw) (s : State := {}) : State := { s with pwr := { fields := [(0, x)] } }
def sample : SenseSample := { held := false, core := 700, sram := 800, gry := 900, drop := 0, sramA := 0, phases := [], limited := 0, parked := 0 }
theorem test_PowerSupply : State.reset.pwr.use.getD 1 false = true ∧ ((Vector.replicate 2 true).set! 1 false).getD 1 false = false ∧ State.reset.pwr.outTold.getD 1 false = false ∧ nbits State.reset.pwr.conv 3 3 = 1 ∧
    (let s := { pst { cap := 64, capSince := some 0, meter := ⟨8000, 0, 8000, 0, 30000, 5400, 0, 48000, 9002⟩ } with time := 10000000 }
     s.pwr.cap = 64 ∧ effCap s < s.pwr.meter.watts ∧ s.pwr.capTold = false ∧ heldFor s s.pwr.capSince 10000000 = true) ∧
    (railsUp { halves := [(1, { kindled := true })] } 1 = true ∧ sample.held = false) ∧
    (let s := setReg (pw0 { setpoint := 700 }) (rPwr 0) 0x80000000
     regBit s (rPwr 0) 31 = true ∧ s.cad.gap = false ∧ prePlaced s 0 = false ∧ (fieldPw s 0).moved = none ∧ (fieldPw s 0).setpoint = 700) ∧
    bGo .stoke 0b111000_000_0_00000_00001_00010_0000000 = true ∧
    (let n : Notice := { at_ := 2200, step := 1, sheaf := 0 }
     [n].any (fun n => decide (0 ≤ n.at_) && decide (n.at_ ≤ 0 + 2200) && !n.placed) = true) ∧
    (List.range 160).filter (fun f => thermalDuty State.reset f < 256) = [] ∧
    (bits (vs 0x80 0x9f).op0 7 1 < 80 ∧ (fieldPw (hs 0x80) 79).fenced = false ∧ bit (vs 0x81 0x19f).op0 8 = true) := by decide
theorem test_EmberStore : (let s := pst { due := true }
      testDue s = true ∧ flying s = 0 ∧ s.pwr.test = none ∧ s.pwr.bus = true) ∧
    (40000 < 48000 ∧ permit State.reset ≤ emberEv (min 65535 (2000000000 * 3666 / (48000 * 48000 - 1600000000))) 48000) ∧
    (pst { test := some 48000 }).pwr.test.isSome = true ∧
    ((pst { bus := false, use := Vector.replicate 2 false }).pwr.use.toList.any id = false) := by decide
theorem test_ThermalControl : (sgn 16 (bits (reg (setChan State.reset 160 { reading := -640 }) (rThm 0x14 160)) 15 0) ≥ -640 ∧ (chan State.reset 160).fault = false) ∧
    (chan { thm := { chans := [(193, { calm := true })] } } 193).calm = true ∧ State.reset.thm.latched = false ∧
    (List.range 176).find? (fun c => (chan (setChan State.reset 0 { hot := 3 }) c).hot ≥ 4) = none ∧
    (let t : Thermal := { trip := some (3, 1900), present := true, chans := [(3, { reading := 1119 })] }
     t.chans.any (fun e => e.2.reading ≥ deg 70) = false) ∧
    regF (setReg State.reset (rThm 0x24) 0x640000) (rThm 0x24) 31 16 = 100 ∧ ({ present := true } : Thermal).present = true ∧
    (let t : Thermal := { loop := 3799 }
     t.loop + 200 < t.demand) ∧ State.reset.thm.demand ≤ State.reset.thm.loop + 200 := by decide

/-- The smallest FULL image: an empty PARTITIONS and an empty RESERVE section; and a patch of partition 3 with an empty REGS. -/
def sec (kind part glob : Nat) : Nat :=
  kind * 2 ^ 120 + part * 2 ^ 114 + glob * 2 ^ 113 + 128 * 2 ^ 64
def imgHead (patch id base n part : Nat) : Nat :=
  (0xB61C0D2E * 2 ^ 96 + 2 ^ 80 + (1 + patch) * 2 ^ 72) + (id % 2 ^ 8) + (base * 2 ^ 64 + 256 * 2 ^ 32 + n * 2 ^ 16 + part * 2 ^ 10) * 2 ^ 128
def fullImg : List Byte := toBytes (imgHead 0 9 0 2 0 + (sec 1 0 1 + sec 2 0 1 * 2 ^ 256) * 2 ^ 512) 256
def patchImg : List Byte := toBytes (imgHead 1 4 9 1 3 + sec 3 3 0 * 2 ^ 512) 256
/-- The halves kindled and the journal replayed. -/
def ready (s : State := {}) : State := { setReg s (rGry 4) 1 with halves := [(0, { kindled := true }), (1, { kindled := true })] }
/-- An image with partition 3 RUNNING. -/
def imaged : State :=
  { setReg (setReg (ready) (rPrt 3 8) 2) (rPrt 3 0x14) 0x80000001 with
    img := { image := some { patch := false, slot := 0, id := 9, base := 0, part := 0, secs := [] },
             slots := [(2, (0, { patch := true, slot := 0, id := 4, base := 9, part := 3, secs := [] }))] } }
theorem test_checkFull : (checkImage (hs 0x60 0 (ready)) 0 false fullImg true (fullPerm (hs 0x60 0 (ready)))).isOk = true := by decide +kernel
theorem test_checkPatch : (checkImage imaged 0 true patchImg true (fun _ => none)).isOk = true := by decide +kernel
theorem test_ImagesAndKeys : (imgReady (hv 0x60 0 (ready)) = true ∧ imgBusy (hs 0x60 0 (ready)) = false ∧
      (imgBytes (ready) (vs 0x60 (256 * 2 ^ 32)) 256 (some fullImg)) = some fullImg) ∧
    (let o : ImgOp := { verb := none, part := 3, beat := 0, phase := .act }
     loadsLeft imaged 3 = false ∧ o.phase = .act) ∧
    ((List.range 8).find? (fun k => (mapFind imaged.img.slots k).isNone) = some 0 ∧ (mapFind imaged.img.slots 2).isSome = true ∧ prtState imaged 3 = 2) ∧
    (sheafFailed imaged 5 = false) ∧ (0 + 2 + quiesceBeats imaged 3 ≤ 9) ∧
    ((hs 0x66 1).store.locked = false ∧ bits (vs 0x66 7).op0 2 0 ≠ 0 ∧ (srcBytes (hs 0x66 1) 0 false 0 96 (some [])).isSome = true) ∧
    bit (vb 0x68 1).op0 0 = true ∧ bit (vb 0x68 0).op0 0 = false := by decide +kernel
/-- A move of sheaf (0, 0) of partition 0 to reserve (1, 0). -/
def moving : State :=
  { setReg (setReg (setReg (ready) (rPrt 0 4) (word (4 * 2 ^ 12 + 1 * 2 ^ 6))) (rPrt 0 8) 2) (rPrt 0 0x28) 0x100 with
    img := { reserves := [(0, { sh := sheafAt 8 0 })], image := some { patch := false, slot := 0, id := 9, base := 0, part := 0, secs := [] } } }
theorem test_move : moveRefusal moving (vs 0x65 (BitVec.ofNat 128 (8 * 2 ^ 19))) = none := by decide

/-! ### Resets, kindling, Dampers -/

theorem test_ResetsAndFences : (opSheaf (vs 0x90 (BitVec.ofNat 128 (2 ^ 22))) = some 0 ∧ bits (vb 0x90 (BitVec.ofNat 128 (2 ^ 22))).op0 23 22 = 1 ∧
      bits (vb 0x90 (BitVec.ofNat 128 (2 ^ 23))).op0 23 22 = 2) ∧
    (opField (vs 0x90 (BitVec.ofNat 128 (3 * 2 ^ 22))) = some 0 ∧ bits (vb 0x90 (BitVec.ofNat 128 (3 * 2 ^ 22))).op0 23 22 = 3) ∧
    (prtState imaged 3 ≠ 0 ∧ resetting imaged (.part 3) = false ∧ [0, 1].any (fun h => partInHalf imaged 3 h && halfDown imaged h) = false) ∧
    ((halfSt (ready) 1).lost = false ∧ halfDown (ready) 1 = false) ∧ (halfSt { halves := [(1, { draining := true })] } 1).draining = true ∧ heldIn State.reset 1 = [] ∧
    (let r : ResetRun := { id := 2, dom := .grain 7, at_ := 0 }
     [r].find? (fun r => r.id == 2) = some r ∧ r.drained = false) ∧
    (bit (vs 0x94).op0 14 = false ∧ opSheaf (vs 0x94) = some 0 ∧ sheafFailed (ready) 0 = false) ∧
    ((partsOn (ready) ((List.range 36).map (fun k => 36 * 0 + k))).isEmpty = true ∧
      (ready).img.reserves.any (fun e => ((List.range 36).map (fun k => 36 * 0 + k)).contains e.2.sh) = false) ∧
    (let s := { ready with store := { failed := [(0, 1)] } }
     s.store.failed.any (fun e => e.1 == 0) = true ∧ ownerOf s 0 = none) := by decide
theorem test_KindlingAndDampers : (mayKindle State.reset 1 = true ∧ mapFind State.reset.flt.kindling 1 = none) ∧
    candidates2 State.reset 0 { tested := [] } ≠ [] ∧
    (let k : Kindling := { tested := (List.range 80).map (fun j => (j, (1, 0, 0, {}))) }
     candidates2 State.reset 0 k = []) ∧
    (let s := (List.range 8).foldl (fun s b => setRegF s (rBin (8 + b) 4) 5 5 1) State.reset
     (List.range 8).all (fun b => regBit s (rBin (8 * 1 + b) 4) 5 || regBit s (rBin (8 * 1 + b) 4) 7) = true) ∧
    ({ moduleDue := true } : Faults).moduleDue = true ∧ (pst { bus := false }).pwr.lostRec = [] ∧
    (let t : Thermal := { trip := some (3, 1900), latched := true, present := true, chans := [(3, { reading := 879 })] }
     t.chans.any (fun e => e.2.reading ≥ deg 55) = false) ∧
    (State.reset.flt.damper.standby = true ∧ State.reset.flt.damper.lost = false) ∧ (hs 0x99).flt.damper.standby = true ∧
    (mapGet {} State.reset.flt.inputs 3).raw ≠ true ∧ (mapGet {} State.reset.flt.inputs 3).chatter = false ∧
    (let x : SideIn := { raw := true }
     x.raw = true ∧ x.chatter = false ∧ x.inForce ≠ true) ∧
    (match execHostPortDown 0 true State.reset with | .next _ => true | _ => false) = true ∧
    (let x : SideIn := { chatter := true, raw := false, inForce := true, stuck := false }
     x.chatter = true ∧ x.raw = false ∧ x.inForce = true ∧ x.stuck = false) ∧
    regF State.reset (rFlt 0x14) 15 0 ≠ 0 := by decide +kernel

/-! ### Cycles, frames, the canonical form, encodings -/

theorem test_BeatsAndCycles : State.reset.pending = [] ∧ State.reset.grains = [] ∧ State.reset.sheaves = [] ∧ State.reset.flueWait = [] ∧
    (let x : Grain := { core := { state := .waitFence } }
     waiting x.core = true ∧ x.arriving = [] ∧ x.wb = [] ∧ x.mxuQ = []) := by decide
theorem test_R59HardwiredRegisters : go (.add, 0b000001_000_0_00000_00001_00010_0000000) = true ∧ go (.li, 0b000111_000_0_00000_00000000000000101) = true ∧ go (.pand, 0b001011_000_0_00000_00001_00010_0000000) = true := by decide
/-- What a test reads of an outcome. -/
def next? (o : Host.Outcome State Fault Refusal) : Option State := match o with | .next t => some t | _ => none
theorem test_ScalarFrame : (next? (exec (.add (.grain 0)) (gAt 0b000001_000_0_00001_00000_00000_0000000 0))).isSome = true ∧ go (.add, 0b000001_000_0_00001_00000_00000_0000000) = true := by decide
theorem test_VectorFrame : (next? (exec (.vadd (.grain 0)) (gAt 0b100000_000_0_00001_00010_00011_010_0000 0))).isSome = true := by decide
theorem test_StoreFrame : (next? (exec (.sw (.grain 0)) (gAt 0b010101_000_0_00001_00010_000000000100 0))).isSome = true ∧
    (next? (exec (.vst (.grain 0)) (gAt 0b011001_000_0_00001_00010_000000000001 0))).isSome = true ∧
    (next? (exec (.sb (.binder 0)) (bAt 0b010111_000_0_00001_00010_000000000100 0))).isSome = true := by decide
theorem test_MemoriesStayCanonical : memsWf State.reset := by
  constructor <;> intro k <;> rfl
theorem test_InstructionEncoding : insOk false ⟨.add, 7, true, 31, 30, 29, 0, 0, 0⟩ = true ∧ insOk true ⟨.li, 0, false, 31, 0, 0, 0, 0x1ffff, 0⟩ = true ∧
    (decodeIns false 0b111110_000_0_11_0_0_0111_0110_00_00_0_11111 0).isSome = true ∧ decodeIns false 0b000001_000_0_00000_00000_00000_0010000 0 = none ∧ decodeIns true 0b100000_000_0_00001_00010_00011_010_0000 0 = none ∧
    decodeIns false 0b111001_000_0_00001_00000_00000_0000000 0 = none ∧ decodeIns false 0b001110_000_0_0_0000_00001_00_0000000001 0 = some ⟨.loop, 0, false, 0, 1, 0, 0, 1, 0⟩ := by decide

/-! ### Well-formed commands, and single steps -/

/-- A well-formed packet of each length rule, and one ill-formed packet for each check: its type, a body too short, one too long, LEN
that is not the body's length, and a READ_REQ for no rows and for five. -/
theorem test_wf : (Instr.write (fl .write 0 [(0, false)])).wf = false ∧
    (Instr.write ⟨{ pk .write 0 [(0, false)] with len := 1 }, 0, 4⟩).wf = true ∧ (Instr.readReq ⟨{ pk .readReq with len := 4 }, 0, 4⟩ []).wf = true := by decide
theorem test_wf_type : (Instr.write (fl .ack)).wf = false ∧ (Instr.ack (fl .ack)).wf = true := by decide
theorem test_wf_short : (Instr.write (fl .write)).wf = false := by decide
theorem test_wf_long : (Instr.ack ⟨{ pk .ack 0 [(0, false)] with len := 1 }, 0, 4⟩).wf = false ∧
    (Instr.write ⟨{ pk .write 0 (List.replicate 5 (0, false)) with len := 5 }, 0, 4⟩).wf = false := by decide
theorem test_wf_len : (Instr.regReq ⟨{ pk .regReq 0 [(0, false)] with len := 0 }, 0, 4⟩).wf = false := by decide
theorem test_wf_rows : (Instr.readReq (fl .readReq) []).wf = false ∧ (Instr.readReq ⟨{ pk .readReq with len := 5 }, 0, 4⟩ []).wf = false := by decide

/-- The scalar registers of a unit: s1 and s2. -/
def regs2 (a b : Word) : Grain := { core := { s := ((Vector.replicate 32 0).set! 1 a).set! 2 b } }
/-- s3 of grain 0 after an instruction on s1 and s2; expected values worked by hand from the rule named. -/
def s3 (c : Instr) (n0 : Nat) (a b : Word) : Option Word :=
  (next? (exec c (gAt n0 0 (regs2 a b)))).map (fun t => sGet (Machine.core t (.grain 0)) 3)
/-- R77: ADD wraps modulo 2^32. -/
theorem test_add_wraps : s3 (.add (.grain 0)) 0b000001_000_0_00011_00001_00010_0000000 0xffffffff 2 = some 1 := by decide
/-- R77: the high half of a signed product. -/
theorem test_mulh_signed : s3 (.mulh (.grain 0)) 0b000001_000_0_00011_00001_00010_0001101 0xffffffff 2 = some 0xffffffff := by decide
/-- R785: a shift amount is taken modulo 32; SRA keeps the sign. -/
theorem test_sra_mod : s3 (.sra (.grain 0)) 0b000001_000_0_00011_00001_00010_0000111 0x80000000 33 = some 0xc0000000 := by decide
/-- R785: CLZ of 0 is 32. -/
theorem test_clz_zero : s3 (.clz (.grain 0)) 0b000001_000_0_00011_00001_00000_0001110 0 0 = some 32 := by decide
/-- R783: ANDI zero-extends its immediate, ADDI sign-extends it. -/
theorem test_imm_extend : s3 (.andi (.grain 0)) 0b000011_000_0_00011_00001_111111111111 0xffffffff 0 = some 0xfff ∧
    s3 (.addi (.grain 0)) 0b000010_000_0_00011_00001_111111111111 5 0 = some 4 := by decide
/-- R69: an instruction whose guard is false has no effect but to move on. -/
theorem test_guard_false : (next? (exec (.add (.grain 0)) (gAt 0b000001_001_0_00011_00001_00010_0000000 0 (regs2 4 5)))).map
    (fun t => (sGet (Machine.core t (.grain 0)) 3, (Machine.core t (.grain 0)).pc)) = some (0, 1) := by decide
/-- R67, R76: an illegal encoding faults its grain, with no effect. -/
theorem test_illegal : (next? (exec (.nop (.grain 0)) (gAt 0b000000_000_0_00000_00000_00000_0000101 0))).map (fun t => ((Machine.core t (.grain 0)).state, regF t (rFault (.grain 0)) 0 0)) =
    some (.faulted, 1) := by decide
/-- R78: little-endian bytes, and what SW leaves LH and LBU read. -/
theorem test_store_load : (next? (exec (.sw (.grain 0)) (gAt 0b010101_000_0_00001_00000_000000001000 0 (regs2 0x8091a2b3 0)))).map
    (fun t => (memGet (grain t 0).mem 8 1, memGet (grain t 0).mem 11 1, memGet (grain t 0).mem 12 4)) = some (0xb3, 0x80, 0) := by decide
/-- One step takes the first command of the queue. -/
theorem test_step_front : (next? (Machine.step { pending := [.ref10mLock, .journalReplay] })).map (fun t => (t.pending, regBit t (rCad 4) 8, gryReady t)) =
    some ([.journalReplay], true, false) := by decide
/-- The reset state idles to a next state. -/
theorem test_reset_idles : (match Machine.step Machine.State.reset with | .next t => t.cycle | _ => 0) = 1 := by decide

end Sys2Proof.Tests
end

section
/-!
PROOFS. The scope chapter: register accesses that reach their register, and the state after a module reset.
-/
namespace Sys2Proof.Machine

/-! ### Register accesses (R12, R17 to R19, R51 to R57) -/

section Reaching

variable {s : State} {ini : Initiator} {a0 a : Nat}
  (hto : accessTo s ini a0 = .reg a) (hfault : regAddrFault s ini (accessAddr s ini a) = none)
  (hgone : unitGone s ini (locOf (accessAddr s ini a)) = false)
include hto hfault hgone

/-- A read that reaches its register has the read's effect there and answers the bytes addressed (R14, R17, R18). -/
theorem readAt_of_reached (be : BitVec 4) (hw : Word) :
    readAt s ini a0 be hw =
      answerRead (readReg s ini (locOf (accessAddr s ini a / 4 * 4)) hw).2 ini
        ((readReg s ini (locOf (accessAddr s ini a / 4 * 4)) hw).1 &&& byteMask be) := by
  simp [readAt, hto, hfault, hgone]

/-- A write of all four bytes that reaches its register is made there, but the standby Damper's (R12, R17, R51). -/
theorem writeAt_of_reached (hini : ini ≠ .damper true) (v hw : Word) :
    writeAt s ini a0 15 v hw = writeReg s ini (locOf (accessAddr s ini a / 4 * 4)) v hw := by
  unfold writeAt
  split
  next => exact absurd rfl hini
  next => simp [hto, hfault, hgone]

end Reaching

/-- Settles O34. Every access is one readAt or one writeAt, and the words of a pair go where a full word does. -/
theorem registerAccesses : Obligations.RegisterAccesses := by
  unfold Obligations.RegisterAccesses
  intro reaches bytes
  refine ⟨?fieldRead, ?lowRead, ?fullWrite, ?lowWrite, ?highWrite⟩
  case fieldRead =>
    rintro ini addr be hw s _ ⟨a, hto, hfault, hgone, rfl⟩
    exact congrArg Host.Outcome.next (readAt_of_reached hto hfault hgone be hw)
  case lowRead =>
    rintro ini addr be s _ ⟨a, hto, hfault, hgone, rfl⟩
    exact congrArg Host.Outcome.next (readAt_of_reached hto hfault hgone be 0)
  case fullWrite =>
    rintro ini addr v hw s _ ⟨a, hto, hfault, hgone, rfl⟩ hini
    exact congrArg Host.Outcome.next (writeAt_of_reached hto hfault hgone hini v hw)
  case lowWrite =>
    rintro ini addr v s _ ⟨a, hto, hfault, hgone, rfl⟩ hini
    exact congrArg Host.Outcome.next (writeAt_of_reached hto hfault hgone hini v 0)
  case highWrite =>
    rintro ini addr v s _ ⟨a, hto, hfault, hgone, rfl⟩ hini
    exact congrArg Host.Outcome.next (writeAt_of_reached hto hfault hgone hini v 0)

/-! ### What a state reads where nothing has been written (R20, R26, R730) -/

theorem reg_of_regs_nil {s : State} (h : s.regs = []) (l : RegLoc) : reg s l = regReset l := by
  rw [reg, h, mapGet_nil]

theorem grain_of_grains_nil {s : State} (h : s.grains = []) (g : Nat) : grain s g = grain0 s g := by
  rw [grain, h, mapGet_nil]

theorem sheaf_of_sheaves_nil {s : State} (h : s.sheaves = []) (sh : Nat) : sheaf s sh = sheaf0 s sh := by
  rw [sheaf, h, mapGet_nil]

theorem core_state_of_units_nil {s : State} (hg : s.grains = []) (hs : s.sheaves = []) (u : Issuer) :
    (core s u).state = .halted := by
  cases u with
  | grain g => rw [core, grain_of_grains_nil hg]; rfl
  | binder sh => rw [core, sheaf_of_sheaves_nil hs]; rfl

/-- A memory that its half's last reset left is in canonical form, whether a draw fills it or nothing has (log 74). -/
@[simp] theorem memWf_halfMem (x : HalfSt) (k : Nat) : memWf (halfMem x k) = true := by
  unfold halfMem
  split
  · exact memWf_empty
  · rfl

theorem memsWf_of_units_nil {s : State} (hg : s.grains = []) (hs : s.sheaves = []) : memsWf s := by
  refine ⟨fun g => ?_, fun sh => ?_⟩
  · rw [grain_of_grains_nil hg]
    exact memWf_halfMem _ _
  · rw [sheaf_of_sheaves_nil hs]
    exact memWf_halfMem _ _

/-- Settles O60. The reset state holds no record of a register or unit, so each reads what it has before the first write. -/
theorem resetState : Obligations.ResetState := by
  unfold Obligations.ResetState
  exact ⟨rfl, reg_of_regs_nil rfl, rfl, rfl, rfl, core_state_of_units_nil rfl rfl, rfl, rfl, memsWf_of_units_nil rfl rfl⟩

end Sys2Proof.Machine
end

section
/-!
PROOFS. The organisation chapter: the stores and the memories' canonical form, the beat boundary and the idle cycle.
-/
namespace Sys2Proof.Machine

/-! ### Stores keep the memories' canonical form (R42, R78, R112, R226) -/

theorem memsWf_next1 {s : State} (u : Issuer) (n : Nat) (w : memsWf s) : memsWf (next1 s u n) :=
  memsWf_setCore u _ w

theorem memsWf_bmemWrite {s : State} (sh a n v : Nat) (w : memsWf s) : memsWf (bmemWrite s sh a n v) :=
  memsWf_setSheaf sh _ w (bmemPut_wf _ a n v (w.2 sh))

/-- A scalar store faults, or writes the scratchpad or the binder memory of its issuer. -/
theorem memsWf_storeOp {s : State} (op : Op) (n : Nat) (u : Issuer) (w : memsWf s) : memsWf (storeOp op n u s) := by
  refine memsWf_issue op u s _ w fun i t wt => ?_
  cases u with
  | grain g =>
    dsimp only
    split
    next => exact memsWf_next1 _ _ (memsWf_localFault _ _ _ wt)
    next => exact memsWf_next1 _ _ (memsWf_setGrain _ _ wt (spdPut_wf _ _ _ _ (wt.1 g)))
  | binder sh => exact memsWf_next1 _ _ (memsWf_bmemWrite _ _ _ _ wt)

theorem memsWf_faultAny {s : State} (u : Issuer) (store : Bool) (offs : List Nat) (w : memsWf s) :
    memsWf (faultAny s u store offs) := by
  unfold faultAny
  split
  next => exact w
  next => exact memsWf_localFault _ _ _ w

theorem memsWf_strideFlag {s : State} (g : Nat) (offs : List Nat) (w : memsWf s) : memsWf (strideFlag s g offs) := by
  unfold strideFlag
  split
  next => exact memsWf_of_units ⟨rfl, rfl, rfl⟩ w
  next => exact w

/-- A grain that writes pieces to its own scratchpad and moves on. -/
theorem memsWf_next1_writePieces {s : State} (u : Issuer) (g n : Nat) (l : List (Nat × Nat)) (w : memsWf s) :
    memsWf (next1 (setGrain s g (writePieces (grain s g) n l)) u) :=
  memsWf_next1 _ _ (memsWf_setGrain _ _ w (spdPuts_wf _ _ _ (w.1 g)))

/-- Settles O58. Each store is an issue whose effect writes, in the state its faults leave, memory of its own issuer. -/
theorem memoriesStayCanonical : Obligations.MemoriesStayCanonical := by
  unfold Obligations.MemoriesStayCanonical
  refine ⟨?sw, ?sh, ?sb, ?vst, ?vsts⟩
  case sw => rintro u s _ w ⟨⟩; exact memsWf_storeOp .sw 4 u w
  case sh => rintro u s _ w ⟨⟩; exact memsWf_storeOp .sh 2 u w
  case sb => rintro u s _ w ⟨⟩; exact memsWf_storeOp .sb 1 u w
  case vst =>
    rintro u s _ w ⟨⟩
    refine memsWf_issue .vst u s _ w fun i t wt => ?_
    cases u with
    | grain g => exact memsWf_next1_writePieces _ _ _ _ (memsWf_faultAny _ _ _ wt)
    | binder sh => exact wt
  case vsts =>
    rintro u s _ w ⟨⟩
    refine memsWf_issue .vsts u s _ w fun i t wt => ?_
    cases u with
    | grain g => exact memsWf_next1_writePieces _ _ _ _ (memsWf_strideFlag _ _ (memsWf_faultAny _ _ _ wt))
    | binder sh => exact wt

/-! ### The parts of an idle cycle where nothing waits (R31, R124, R232, R307, R373) -/

/-- A key that a map lists is listed at the value the map reads there. -/
theorem mem_mapGet_of_mem_keys {α : Type} (d : α) {m : SMap α} {k : Nat} (h : k ∈ m.map Prod.fst) : (k, mapGet d m k) ∈ m := by
  induction m with
  | nil => simp at h
  | cons e r ih =>
    obtain ⟨j, v⟩ := e
    by_cases hj : j = k
    · simp [mapGet, hj]
    · have hk : k ∈ r.map Prod.fst := by simpa [Ne.symm hj] using h
      simp [mapGet, hj, ih hk]

theorem foldl_fixed_of_mem {α β : Type} {f : β → α → β} {x : β} {l : List α} (h : ∀ a ∈ l, f x a = x) : l.foldl f x = x := by
  induction l with
  | nil => rfl
  | cons a l ih =>
    rw [List.foldl_cons, h a List.mem_cons_self]
    exact ih fun b hb => h b (List.mem_cons_of_mem a hb)

theorem ug_val (g : GrainId) : ug g.val = .grain g := congrArg Issuer.grain (Fin.ofNat_val_eq_self g)

theorem stallTick_of_issuing {s : State} {g : Nat} (hw : waiting (grain s g).core = false) (hb : issueBlocked s (ug g) = false) :
    stallTick s g = s := by
  simp [stallTick, hw, hb]

theorem stallTick_of_held {s : State} {g : Nat} (h : waiting (grain s g).core = true ∨ issueBlocked s (ug g) = true) :
    stallTick s g = incReg s (rGrain g 1 0x030) := by
  simp [stallTick, h]

theorem fullTick_of_arriving_nil {s : State} {g : Nat} (h : (grain s g).arriving = []) : fullTick s g = s := by
  simp [fullTick, h]

theorem wbDrain_of_wb_nil {s : State} {g : Nat} (h : (grain s g).wb = []) : wbDrain s g = s := by
  simp [wbDrain, h]

theorem flueTick_of_flueWait_nil {s : State} (h : s.flueWait = []) : flueTick s = s := by
  simp [flueTick, h]

theorem farTick_of_jobs_nil {s : State} {sh : Nat} (h : (wnw s sh).jobs = []) : farTick s sh = s := by
  simp [farTick, h]

/-- Where no packet, write buffer, matrix unit, job or landing buffer waits, an idle cycle counts its stalls and the clocks run. -/
theorem tick_of_stalls {s t : State} (ht : (s.grains.map Prod.fst).foldl stallTick s = t)
    (hg : ∀ g ∈ s.grains.map Prod.fst, (grain t g).arriving = [] ∧ (grain t g).wb = [] ∧ (grain t g).mxuQ = [])
    (hj : ∀ sh ∈ s.sheaves.map Prod.fst, (wnw t sh).jobs = []) (hf : t.flueWait = []) :
    tick s = { t with cycle := s.cycle + 1, time := tickTime s } := by
  have full : (s.grains.map Prod.fst).foldl fullTick t = t :=
    foldl_fixed_of_mem fun g m =>
      have ⟨harr, _, _⟩ := hg g m
      fullTick_of_arriving_nil harr
  have far : (s.sheaves.map Prod.fst).foldl farTick t = t :=
    foldl_fixed_of_mem fun sh m => farTick_of_jobs_nil (hj sh m)
  have drain : (s.grains.map Prod.fst).foldl wbDrain t = t :=
    foldl_fixed_of_mem fun g m =>
      have ⟨_, hwb, _⟩ := hg g m
      wbDrain_of_wb_nil hwb
  have mxu : (s.grains.map Prod.fst).filter (fun g => (grain t g).mxuQ.any (fun o => o.begun)) = [] :=
    List.filter_eq_nil_iff.mpr fun g m => by
      obtain ⟨_, _, hmxu⟩ := hg g m
      simp [hmxu]
  simp only [tick, ht, full, flueTick_of_flueWait_nil hf, far, drain, mxu, List.foldl_nil]

/-- Settles O53. The boundary and the clocks are the model's own terms; in the idle cycle every part whose unit has nothing
waiting keeps the state, so that what is left is the stalls that stallTick counts. -/
theorem beatsAndCycles : Obligations.BeatsAndCycles := by
  unfold Obligations.BeatsAndCycles
  refine ⟨?boundary, ?idle, ?clocks, ?quiet, ?held⟩
  case boundary => rintro s _ rfl; rfl
  case idle => intro s h; simp only [step, h]
  case clocks => exact fun s => ⟨rfl, rfl⟩
  case quiet =>
    intro s hg hs hf
    have hgrain (g : Nat) (m : g ∈ s.grains.map Prod.fst) := hg _ (mem_mapGet_of_mem_keys (grain0 s g) m)
    have stalls : (s.grains.map Prod.fst).foldl stallTick s = s := foldl_fixed_of_mem fun g m =>
      have ⟨hwait, hblocked, _⟩ := hgrain g m
      stallTick_of_issuing hwait hblocked
    have empty : ∀ g ∈ s.grains.map Prod.fst, (grain s g).arriving = [] ∧ (grain s g).wb = [] ∧ (grain s g).mxuQ = [] :=
      fun g m =>
        have ⟨_, _, hempty⟩ := hgrain g m
        hempty
    exact tick_of_stalls stalls empty (fun sh m => hs _ (mem_mapGet_of_mem_keys (sheaf0 s sh) m)) hf
  case held =>
    intro s g x hgs hheld harr hwb hmxu hsh hf
    have hx : grain s g = x := by simp [grain, hgs, mapGet]
    have stalls : (s.grains.map Prod.fst).foldl stallTick s = incReg s (rGrain g 1 0x030) := by
      rw [hgs]
      exact stallTick_of_held (by rwa [hx, ug_val])
    refine tick_of_stalls stalls (fun k m => ?_) (fun sh m => ?_) hf
    · obtain rfl : k = g := by simpa [hgs] using m
      simp [hx, harr, hwb, hmxu]
    · simp [hsh] at m

end Sys2Proof.Machine
end

section
/-!
PROOFS. The formats chapter: conversions, residual figures, and a grain's upkeep.
-/
namespace Sys2Proof.Machine

/-! ### Conversions (R137, R138, R199) -/

/-- A conversion that issues sets the current tag, then takes its effect on the grain and the counts, and moves on (R138). -/
theorem convIns_of_issues {op : Op} {g : GrainId} {s : State} {i : Ins} (f : Ins → Word → Nat → Grain → Conv × Grain)
    (h : issues op (.grain g) s i = true) :
    convIns op (.grain g) s f = .next (
      let fc := sGet (core (issued (.grain g) s) (.grain g)) i.rb
      let t := ergTag (issued (.grain g) s) g (fcTag fc)
      let r := f i fc g (grain t g)
      next1 (countConv (setGrain t g r.2) g r.1) (.grain g)) :=
  congrArg Host.Outcome.next (issue_of_issues _ h)

theorem append_ite_nil {α : Type} (c : Prop) [Decidable c] (a b : List α) :
    a ++ (if c then b else []) = if c then a ++ b else a := by
  split <;> simp

/-- Settles O14. VQNT, VDQ and VCVT are one shared conversion; VACC and VACCZ are one read of a tile. -/
theorem conversionResults : Obligations.ConversionResults := by
  unfold Obligations.ConversionResults
  intro conv
  have shared (op : Op) (mk : Issuer → Instr) (f : Ins → Word → Nat → Grain → Conv × Grain)
      (hexec : ∀ u s, exec (mk u) s = convIns op u s f) : conv op mk f := fun g s i h =>
    (hexec (.grain g) s).trans (convIns_of_issues f h)
  clear_value conv
  refine ⟨?vqnt, ?vdq, ?vcvt, ?vacc, ?vaccz⟩
  case vqnt =>
    refine shared .vqnt .vqnt _ fun u s => ?_
    change execVqnt u s = _
    simp only [execVqnt, gensOf, fcSr]
    rfl
  case vdq => exact shared .vdq .vdq _ fun _ _ => rfl
  case vcvt =>
    refine shared .vcvt .vcvt _ fun u s => ?_
    change execVcvt u s = _
    simp only [execVcvt, append_ite_nil]
  case vacc => exact fun g s i h => congrArg Host.Outcome.next (issue_of_issues _ h)
  case vaccz => exact fun g s i h => congrArg Host.Outcome.next (issue_of_issues _ h)

/-! ### Residual figures (R172, R174) -/

theorem vGet_issued (u : Issuer) (s : State) (g k : Nat) : vGet (grain (issued u s) g) k = vGet (grain s g) k := by
  rw [← grain_issued u s g]; rfl

theorem sGet_issued (u : Issuer) (s : State) (k : Nat) : sGet (core (issued u s) u) k = sGet (core s u) k := by
  rw [core_issued]; rfl

theorem fresh_issued (u : Issuer) (s : State) : (issued u s).fresh = s.fresh := by
  obtain ⟨_, _, _, h⟩ := restKept_issued u s
  rw [h]

/-- A NaN's figure is stated (R172). -/
theorem isNan_eq_false_of_residFig_none {v : Val} (h : residFig v = none) : isNan v = false := by
  cases v with
  | nan => simp [residFig] at h
  | inf _ => rfl
  | num _ _ _ => rfl

/-- Settles O15. An issue keeps the registers the figure and its tag come from; a figure that is not stated is no NaN's, so that
nothing is counted before the draw. -/
theorem ergotResidual : Obligations.ErgotResidual := by
  unfold Obligations.ErgotResidual
  refine ⟨?stated, ?free⟩
  case stated =>
    intro g s i k h hfig hnan
    refine congrArg Host.Outcome.next ((issue_of_issues _ h).trans ?_)
    simp only [vGet_issued, sGet_issued, hfig, hnan, fcTag, Bool.false_eq_true, if_false]
  case free =>
    intro g s i h hfig
    refine congrArg Host.Outcome.next ((issue_of_issues _ h).trans ?_)
    simp only [vGet_issued, sGet_issued, fresh_issued, hfig, isNan_eq_false_of_residFig_none hfig, fcTag,
      Bool.false_eq_true, if_false]

/-! ### Command registers of tallies and windows (R270, R271) -/

section Permitted

variable {s : State} {ini : Initiator} {g op : Nat} {v : Word}

theorem tlyCmd_of_may (k : Nat → State → State) (h : mayWrite s ini (rGrain g 2 0xB8) = true) (hop : bits v 21 20 = op) :
    tlyCmd ini g v op s k = k (bits v 19 16) s := by
  rw [tlyCmd, regCommand_of_may _ h, if_pos hop]

theorem cwCmd_of_may (k : Nat → Nat → State → State) (h : mayWrite s ini (rGrain g 2 0xBC) = true) (hop : bits v 29 28 = op) :
    cwCmd ini g v op s k = k (bits v 31 30) (bits v 11 0) s := by
  rw [cwCmd, regCommand_of_may _ h, if_pos hop]

end Permitted

/-! ### Sound rows (R261, R263) -/

theorem finding_of_all_ok {fs : EccFinds} (h : ∀ e ∈ fs, e.2 = .ok) (w : Nat) : finding fs w = .ok := by
  unfold finding
  split
  next e he => exact h e (List.mem_of_find?_eq_some he)
  next => rfl

/-- A check of a sound word changes nothing. -/
theorem spdCheck_of_sound {fs : EccFinds} {s : State} {g : Nat} (reader w : Nat) (hp : (grain s g).poison = [])
    (hf : finding fs w = .ok) : spdCheck fs reader g s w = s := by
  simp [spdCheck, hp, hf]

/-- The scrubber passes over a sound row (R262). -/
theorem execScrubRead_of_sound {s : State} {g : GrainId} (hrate : regF s (rGrain g 2 0xAC) 15 0 ≠ 0)
    (hear : earOn s (earOfGrain g) = true) (hp : (grain s g).poison = []) :
    execScrubRead g .ok .ok s = .next (setGrain s g { grain s g with scrubRow := ((grain s g).scrubRow + 1) % 3072 }) := by
  have hok (r : Nat) := finding_of_all_ok (fs := [(2 * r, .ok), (2 * r + 1, .ok)]) (by simp)
  simp [execScrubRead, hrate, hear, spdCheck_of_sound, hp, hok]

/-! ### Notices and posts (R168, R242) -/

theorem execAbandonNotice_of_noticed {p : PartId} {shs : List SheafId} {s : State}
    (h : noticed s p (shs.map (fun sh => sh.val)) ≠ []) :
    execAbandonNotice p shs s = .next (
      let l := noticed s p (shs.map (fun sh => sh.val))
      let t := { s with notices := s.notices.erase (p.val, shs.map (fun sh => sh.val)) }
      flueAbandon (abandonLocks ((watchers t p l).foldl (fun s e => tallyErr s e.1 e.2) t) p l) l) :=
  congrArg Host.Outcome.next (if_neg (by simpa using h))

theorem applyPost_of_find {s : State} {p : Nat} {q : ErgotPost} (h : s.posts.find? (fun q => q.part == p) = some q) :
    applyPost s p = ergApply { s with posts := s.posts.erase q } q := by
  simp only [applyPost, h]

/-- Settles O31. A permitted command has its register's effect; each other clause is its unit's own operation. -/
theorem grainUpkeep : Obligations.GrainUpkeep := by
  unfold Obligations.GrainUpkeep
  refine ⟨?tlySet, ?tlyClrerr, ?cwSet, ?cwRet, ?cwClose, ?scrubRead, ?writeback, ?notice, ?post, ?reseed⟩
  case tlySet => exact fun ini g v s hw hop => congrArg Host.Outcome.next (tlyCmd_of_may _ hw hop)
  case tlyClrerr => exact fun ini g v s hw hop => congrArg Host.Outcome.next (tlyCmd_of_may _ hw hop)
  case cwSet =>
    exact fun ini g v s hw hop hset => congrArg Host.Outcome.next ((cwCmd_of_may _ hw hop).trans (if_pos hset))
  case cwRet => exact fun ini g v s hw hop => congrArg Host.Outcome.next (cwCmd_of_may _ hw hop)
  case cwClose => exact fun ini g v s hw hop => congrArg Host.Outcome.next (cwCmd_of_may _ hw hop)
  case scrubRead => exact fun g s => execScrubRead_of_sound
  case writeback => exact fun g s => rfl
  case notice =>
    rintro p shs s _ _ rfl rfl h
    exact execAbandonNotice_of_noticed h
  case post => exact fun p s q h => congrArg Host.Outcome.next (applyPost_of_find h)
  case reseed =>
    exact fun ini p v s hw hgo => congrArg Host.Outcome.next ((regCommand_of_may _ hw).trans (if_pos hgo))

end Sys2Proof.Machine
end

section
/-!
PROOFS. The matrix unit chapter: an operation joins the queue, begins, and completes.
-/
namespace Sys2Proof.Machine

/-! ### The first of a queue (R202) -/

section First

variable {α : Type} {p : α → Bool} {a b : List α} {o : α} (ha : ∀ x ∈ a, p x = false) (ho : p o = true)
include ha ho

theorem findIdx?_append_first : (a ++ o :: b).findIdx? p = some a.length := by
  have absent : a.findIdx? p = none := List.findIdx?_eq_none_iff.mpr ha
  simp [List.findIdx?_append, absent, List.findIdx?_cons, ho]

theorem find?_append_first : (a ++ o :: b).find? p = some o := by
  have absent : a.find? p = none := List.find?_eq_none.mpr fun x m => by simp [ha x m]
  simp [List.find?_append, absent, ho]

end First

/-! ### A tile is prepared for the first operation begun on it (R197, R203) -/

theorem begunOn_eq_false {q : MxuOp} {t : Nat} : (q.begun && mxuTile q.imm == t) = false ↔ (q.begun = true → mxuTile q.imm ≠ t) := by
  cases q.begun <;> simp

/-- A tile that nothing begun works on shows its own type and exponent (R203). -/
theorem tileNow_of_idle {x : Grain} {t : Nat} (h : ∀ q ∈ x.mxuQ, q.begun = true → mxuTile q.imm ≠ t) :
    tileNow x t = ((tile x t).ttype, (tile x t).texp) := by
  have absent : x.mxuQ.filter (fun q => q.begun && mxuTile q.imm == t) = [] :=
    List.filter_eq_nil_iff.mpr fun q m => by simp [begunOn_eq_false.mpr (h q m)]
  rw [tileNow, absent, List.foldl_nil]

/-- A tile that nothing begun works on is left as it is. -/
theorem prepTile_of_idle {x : Grain} {t : Nat} (h : ∀ q ∈ x.mxuQ, q.begun = true → mxuTile q.imm ≠ t) : prepTile x t = x := by
  have absent : x.mxuQ.findIdx? (fun q => q.begun && mxuTile q.imm == t) = none :=
    List.findIdx?_eq_none_iff.mpr fun q m => begunOn_eq_false.mpr (h q m)
  simp only [prepTile, absent]

/-- The first operation begun on a tile finds it prepared, unless it already was. -/
theorem prepTile_of_first {x : Grain} {q : MxuOp} {a b : List MxuOp} {t : Nat} (hx : x.mxuQ = a ++ q :: b)
    (ha : ∀ p ∈ a, p.begun = true → mxuTile p.imm ≠ t) (hq : q.begun = true) (ht : mxuTile q.imm = t) :
    prepTile x t = if q.ready then x
      else { x with acc := x.acc.set! t (startTile q (tile x t)), mxuQ := a ++ { q with ready := true } :: b } := by
  have first := findIdx?_append_first (b := b) (fun p m => begunOn_eq_false.mpr (ha p m)) (o := q) (by simp [hq, ht])
  simp [prepTile, hx, first]

/-! ### The begin of an operation (R202) -/

/-- The first operation that has not begun begins; it and its tile agree, and its reads find sound words. -/
theorem execMxuOpStart_of_match {g : GrainId} {s : State} {o : MxuOp} {a b : List MxuOp} (hx : (grain s g).mxuQ = a ++ o :: b)
    (ha : ∀ q ∈ a, q.begun = true) (ho : o.begun = false)
    (hm : mismatch o (tileNow (grain s g) (mxuTile o.imm)).1 (tileNow (grain s g) (mxuTile o.imm)).2 = false) :
    execMxuOpStart g [] s = .next (incReg
      (setGrain s g (prepTile { grain s g with mxuQ := a ++ { o with begun := true } :: b } (mxuTile o.imm))) (rMxu g 0x40)) := by
  have begun : ∀ q ∈ a, (!q.begun) = false := fun q m => by simp [ha q m]
  have waits : (!o.begun) = true := by simp [ho]
  simp [execMxuOpStart, hx, findIdx?_append_first begun waits, find?_append_first begun waits, hm]

/-! ### What the faults and counts of a completion leave (R191, R206, R261) -/

@[simp] theorem grain_orReg (s : State) (l : RegLoc) (m g : Nat) : grain (orReg s l m) g = grain s g := rfl

@[simp] theorem grain_showTile (s : State) (h t : Nat) (y : Tile) (g : Nat) : grain (showTile s h t y) g = grain s g := rfl

@[simp] theorem grain_raise (s : State) (ev : Ev) (part : Option Nat) (scope unit : Nat) (fields : List (Nat × Nat)) (g : Nat) :
    grain (raise s ev part scope unit fields) g = grain s g :=
  have ⟨hgrains, _, hhalves⟩ := raise_units s ev part scope unit fields
  grain_of_units hgrains hhalves g

@[simp] theorem grain_spdSay (s : State) (h w reader g : Nat) : grain (spdSay s h w reader) g = grain s g := by
  rw [spdSay, grain_raise]
  split <;> rfl

/-- The queue and the tiles of a grain's matrix unit are in the second state as in the first. -/
def mxuKept (g : Nat) (s t : State) : Prop := (grain t g).mxuQ = (grain s g).mxuQ ∧ (grain t g).acc = (grain s g).acc

section Kept

variable {g : Nat} {r s t : State}

theorem mxuKept_trans : mxuKept g r s → mxuKept g s t → mxuKept g r t :=
  fun ⟨hq, ha⟩ ⟨kq, ka⟩ => ⟨kq.trans hq, ka.trans ha⟩

theorem mxuKept_of_grain (h : grain t g = grain s g) : mxuKept g s t := by simp [mxuKept, h]

theorem mxuKept_of_fields {x : Grain} (ht : grain t g = x) (hq : x.mxuQ = (grain s g).mxuQ) (ha : x.acc = (grain s g).acc) :
    mxuKept g s t := by
  simp [mxuKept, ht, hq, ha]

theorem mxuKept_spdTell (w reader : Nat) : mxuKept g s (spdTell s g w reader) := by
  simp only [spdTell]
  split
  next => exact mxuKept_of_grain rfl
  next => exact mxuKept_of_fields ((grain_spdSay _ _ _ _ _).trans (grain_setGrain_same _ _ _)) rfl rfl

theorem mxuKept_mxuReads (y : Grain) (l : List (Nat × Nat)) : mxuKept g s (mxuReads s g y l) := by
  refine foldl_keeps (mxuKept g s) _ (fun t w ht => mxuKept_trans ht ?tell) _ _ ?fault
  case tell =>
    split
    next => exact mxuKept_spdTell w 2
    next => exact mxuKept_of_grain (grain_spdSay _ _ _ _ _)
  case fault =>
    split
    next => exact mxuKept_of_grain rfl
    next => exact mxuKept_of_grain (grain_raise _ _ _ _ _ _ _)

theorem mxuKept_mxuIndex (a : Option Nat) : mxuKept g s (mxuIndex s g a) := by
  unfold mxuIndex raiseOnce raiseOnceAt
  split
  next => exact mxuKept_of_grain rfl
  next =>
    split
    next => exact mxuKept_of_grain rfl
    next => exact mxuKept_of_grain (grain_raise _ _ _ _ _ _ _)

theorem mxuKept_ergPost : mxuKept g s (ergPost s g) := by
  simp only [ergPost]
  split
  next => exact mxuKept_of_grain rfl
  next => exact mxuKept_of_fields (grain_setGrain_same _ _ _) rfl rfl

theorem mxuKept_ergCount (k : ErgKind) (n : Nat) : mxuKept g s (ergCount s g k n) := by
  have bumped (e : ErgotAcc) : mxuKept g s (setGrain s g { grain s g with ergot := e }) :=
    mxuKept_of_fields (grain_setGrain_same _ _ _) rfl rfl
  simp only [ergCount]
  split
  next => exact mxuKept_of_grain rfl
  next =>
    split
    next => exact mxuKept_trans (bumped _) mxuKept_ergPost
    next => exact bumped _

theorem mxuKept_ergCounts (sat clamp nan poison : Nat) : mxuKept g s (ergCounts s g sat clamp nan poison) :=
  mxuKept_trans (mxuKept_trans (mxuKept_trans (mxuKept_ergCount .sat sat) (mxuKept_ergCount .clamp clamp))
    (mxuKept_ergCount .nan nan)) (mxuKept_ergCount .poison poison)

end Kept

/-! ### The completion of an operation (R202, R203) -/

/-- The tile an operation leaves that completes: the new elements, with the type and exponent the tile has. -/
def doneTile (s : State) (g : Nat) (o : MxuOp) : Tile :=
  { tile (grain s g) (mxuTile o.imm) with
    elems := Vector.ofFn (fun (k : Fin 64) => BitVec.ofNat 32 ((mxuRun (opView (grain s g) o s.fresh) o
      ((tile (grain s g) (mxuTile o.imm)).elems.toList.map BitVec.toNat)).elems.getD k.val 0)) }

/-- A grain whose first operation has completed: it has left the queue, and its tile has the new elements. -/
def doneGrain (s : State) (g : Nat) (o : MxuOp) (rest : List MxuOp) : Grain :=
  { grain s g with acc := (grain s g).acc.set! (mxuTile o.imm) (doneTile s g o), mxuQ := rest }

theorem tile_doneGrain {s : State} {g : Nat} {o : MxuOp} {rest : List MxuOp} (h : mxuTile o.imm < 4) :
    tile (doneGrain s g o rest) (mxuTile o.imm) = doneTile s g o := by
  simp [tile, doneGrain, Vector.getD, Vector.set!, h]

theorem set!_doneGrain (s : State) (g : Nat) (o : MxuOp) (rest : List MxuOp) (y : Tile) :
    (doneGrain s g o rest).acc.set! (mxuTile o.imm) y = (grain s g).acc.set! (mxuTile o.imm) y := by
  simp [doneGrain, Vector.set!]

/-- The operation that began first completes; the next begun on its tile finds it prepared. The faults, events and counts that
follow leave the queue and the tiles. -/
theorem execMxuOpComplete_of_begun {g : GrainId} {s : State} {o : MxuOp} {rest : List MxuOp} (hx : (grain s g).mxuQ = o :: rest)
    (ho : o.begun = true) : ∃ t, execMxuOpComplete g s = .next t ∧
      (grain t g).mxuQ = (prepTile (doneGrain s g o rest) (mxuTile o.imm)).mxuQ ∧
      (grain t g).acc = (prepTile (doneGrain s g o rest) (mxuTile o.imm)).acc := by
  have kept {s1 : State} (y : Grain) (l : List (Nat × Nat)) (i : Option Nat) (sat clamp nan poison : Nat) :
      mxuKept g s1 (ergCounts (mxuIndex (mxuReads s1 g y l) g i) g sat clamp nan poison) :=
    mxuKept_trans (mxuKept_trans (mxuKept_mxuReads y l) (mxuKept_mxuIndex i)) (mxuKept_ergCounts sat clamp nan poison)
  simp only [execMxuOpComplete, hx, ho, draw, Bool.not_true, Bool.false_eq_true, if_false]
  refine ⟨_, rfl, ?_⟩
  simp only [grain_showTile, grain_incReg]
  obtain ⟨hq, ha⟩ := kept _ _ _ _ _ _ _
  rw [hq, ha, grain_setGrain_same]
  exact ⟨rfl, rfl⟩

/-- Settles O16. An MXU's whole effect is its entry in the queue; an operation that begins or completes changes its tile as the
first begun on it then asks, and what else a completion does leaves the queue and the tiles. -/
theorem matrixUnit : Obligations.MatrixUnit := by
  unfold Obligations.MatrixUnit
  refine ⟨?takes, ?begins, ?chains, ?completes, ?hands⟩
  case takes => exact fun g s i h => congrArg Host.Outcome.next (issue_of_issues _ h)
  case begins =>
    intro g s o a b hx ha ho hother hb hready t hm
    have idle : ∀ q ∈ (grain s g).mxuQ, q.begun = true → mxuTile q.imm ≠ mxuTile o.imm := by
      simp only [hx, List.forall_mem_append, List.forall_mem_cons]
      exact ⟨fun q m _ => hother q m, by simp [ho], fun q m hq => absurd hq (by simp [hb q m])⟩
    have agrees : mismatch o (tileNow (grain s g) (mxuTile o.imm)).1 (tileNow (grain s g) (mxuTile o.imm)).2 = false := by
      rwa [tileNow_of_idle idle]
    refine (execMxuOpStart_of_match hx ha ho agrees).trans ?_
    rw [prepTile_of_first (q := { o with begun := true }) rfl (fun p m _ => hother p m) rfl rfl, if_neg (by simp [hready])]
    rfl
  case chains =>
    intro g s o q a c b hx hbegun ho hother ht hready hm
    refine (execMxuOpStart_of_match hx hbegun ho hm).trans ?_
    have hq : q.begun = true := hbegun q (by simp)
    rw [prepTile_of_first (a := a) (q := q) (List.append_assoc _ _ _) (fun p m _ => hother p m) hq ht, if_pos hready]
  case completes =>
    intro g s o rest hx ho hother
    obtain ⟨t, ht, hqueue, htiles⟩ := execMxuOpComplete_of_begun hx ho
    rw [prepTile_of_idle (x := doneGrain s g o rest) hother] at hqueue htiles
    exact ⟨t, ht, hqueue, htiles⟩
  case hands =>
    intro g s o q a b hx ho hother hq htile hready hlt
    obtain ⟨t, ht, hqueue, htiles⟩ := execMxuOpComplete_of_begun hx ho
    rw [prepTile_of_first (x := doneGrain s g o (a ++ q :: b)) rfl hother hq htile, if_neg (by simp [hready])] at hqueue htiles
    rw [tile_doneGrain hlt, set!_doneGrain] at htiles
    exact ⟨t, ht, hqueue, htiles⟩

end Sys2Proof.Machine
end

section
/-!
PROOFS. The scratchpad chapter: tallies, credit windows, and the remote write buffer.
-/
namespace Sys2Proof.Machine

/-! ### Tallies and credit windows (R239, R240, R249, R250) -/

theorem bits_zero_eq_mod {w : Nat} (x : BitVec w) (hi : Nat) : bits x hi 0 = x.toNat % 2 ^ (hi + 1) := by
  simp [bits, nbits]

/-- A tally operation that issues takes its effect with the low 16 bits of s[ra], and s[rd] the state word from before (R239). -/
theorem tallyOp_of_issues {op : Op} {u : Issuer} {s : State} {i : Ins} (f : State → Nat → BitVec 16 → State)
    (h : issues op u s i = true) :
    tallyOp op u s f = .next (
      let t := f (issued u s) i.rb (BitVec.ofNat 16 ((sGet (core (issued u s) u) i.ra).toNat % 2 ^ 16))
      setCore t u (advance (sSet (core t u) i.rd (tcWord (issued u s) u i.rb)) 1)) := by
  rw [tallyOp, issue_of_issues _ h, bits_zero_eq_mod]

/-- A credit operation that issues in a grain takes its effect with the low 12 bits of s[ra], and s[rd] its answer (R249). -/
theorem creditOp_of_issues {op : Op} {g : GrainId} {s : State} {i : Ins} (f : State → Nat → Nat → Nat → State × Word)
    (h : issues op (.grain g) s i = true) :
    creditOp op (.grain g) s f = .next (
      let r := f (issued (.grain g) s) g i.rb ((sGet (core (issued (.grain g) s) (.grain g)) i.ra).toNat % 2 ^ 12)
      setCore r.1 (.grain g) (advance (sSet (core r.1 (.grain g)) i.rd r.2) 1)) := by
  rw [creditOp, issue_of_issues _ h, bits_zero_eq_mod]

/-- Settles O18. The five operations are one shared tally operation, each with its own effect on the counter. -/
theorem tallyOperations : Obligations.TallyOperations := by
  unfold Obligations.TallyOperations
  intro op
  have shared (o : Op) (mk : Issuer → Instr) (f : Issuer → State → Nat → BitVec 16 → State)
      (hexec : ∀ u s, exec (mk u) s = tallyOp o u s (f u)) : op o mk f := fun u s i h =>
    (hexec u s).trans (tallyOp_of_issues (f u) h)
  clear_value op
  refine ⟨?rd, ?set, ?sub, ?add, ?clrerr⟩
  case rd => exact shared .tcRd .tcRd _ fun _ _ => rfl
  case set => exact shared .tcSet .tcSet _ fun _ _ => rfl
  case sub => exact shared .tcSub .tcSub _ fun _ _ => rfl
  case add => exact shared .tcAdd .tcAdd _ fun _ _ => rfl
  case clrerr => exact shared .tcClrerr .tcClrerr _ fun _ _ => rfl

/-- Settles O19. The four operations are one shared credit operation, each with its own effect on the window and its own answer. -/
theorem creditOperations : Obligations.CreditOperations := by
  unfold Obligations.CreditOperations
  intro op
  have shared (o : Op) (mk : Issuer → Instr) (f : State → Nat → Nat → Nat → State × Word)
      (hexec : ∀ u s, exec (mk u) s = creditOp o u s f) : op o mk (fun g s => f s g) := fun g s i h =>
    (hexec (.grain g) s).trans (creditOp_of_issues f h)
  clear_value op
  refine ⟨?set, ?ret, ?rd, ?close⟩
  case set => exact shared .cwSet .cwSet _ fun u s => show execCwSet u s = _ from rfl
  case ret => exact shared .cwRet .cwRet _ fun u s => show execCwRet u s = _ from rfl
  case rd => exact shared .cwRd .cwRd _ fun u s => show execCwRd u s = _ from rfl
  case close => exact shared .cwClose .cwClose _ fun u s => show execCwClose u s = _ from rfl

/-! ### The remote write buffer (R231, R233, R248) -/

theorem wbRoom_iff {x : Grain} {credited : Bool} :
    wbRoom x credited = true ↔ x.wb.length < 8 ∧ (credited = true ∨ (x.wb.filter (fun e => !e.credited)).length < 6) := by
  simp [wbRoom]

/-- The descriptor whose READ a packet in the buffer answers. -/
def wbDesc (s : State) (g : Nat) (f : Flight) : Option Nat :=
  match f.pkt.type, whoAwaits s g f.pkt with
  | .readData, some (.dma _ id _ _ _) => some id
  | _, _ => none

/-- What the window of a packet's rows makes of their arrival: the state after it, and which rows are dropped (R248). -/
def wbArrivals (s : State) (g : Nat) (f : Flight) (credited : Bool) : State × List Bool :=
  if credited then cwArrivals s g f.pkt.cw.toNat f.pkt.src f.pkt.body.length
  else (s, List.replicate f.pkt.body.length false)

/-- The first waiting packet of a class that has room leaves the port and becomes the youngest entry (R231). -/
theorem execWriteBufferAccept_of_room {g : GrainId} {credited : Bool} {s : State} {f : Flight}
    (hf : (grain s g).arriving.find? (fun f => isCredited s g f == credited) = some f) (hroom : wbRoom (grain s g) credited = true) :
    execWriteBufferAccept g credited s = .next (
      let r := wbArrivals s g f credited
      let t := (draw r.1).2
      setGrain t g { grain t g with
        arriving := (grain t g).arriving.erase f
        wb := (grain t g).wb ++ [⟨f, credited, r.2, List.replicate f.pkt.body.length false, s.cycle, wbDesc s g f, r.1.fresh⟩] }) := by
  simp only [execWriteBufferAccept, hf, hroom, Bool.not_true, Bool.false_eq_true, if_false]
  rfl

/-- An entry in the oldest slot completes after no other: its own rows are written, and its packet ends (R232, R233). -/
theorem execPacketComplete_of_oldest {g : GrainId} {slot : Fin 8} {s : State} {e : WbEntry}
    (he : (grain s g).wb[slot.val]? = some e) (hslot : slot.val = 0) :
    execPacketComplete g slot s = .next (
      let x := (List.range e.flight.pkt.body.length).foldl (fun x k => wbWrite x e k) (grain s g)
      wbDone (setGrain s g { x with wb := x.wb.eraseIdx 0 }) g e) := by
  simp only [execPacketComplete, he]
  rw [hslot, List.range_zero, List.foldl_nil]

/-- Settles O29. Room and the class's first packet decide an acceptance; the oldest entry has none before it to write first. -/
theorem writeBuffer : Obligations.WriteBuffer := by
  unfold Obligations.WriteBuffer
  refine ⟨?uncredited, ?credited, ?oldest⟩
  case uncredited =>
    intro g s f hf hlen hordinary
    exact execWriteBufferAccept_of_room hf (wbRoom_iff.mpr ⟨hlen, .inr hordinary⟩)
  case credited =>
    intro g s f hf hlen
    exact execWriteBufferAccept_of_room hf (wbRoom_iff.mpr ⟨hlen, .inl rfl⟩)
  case oldest => exact fun g slot s e => execPacketComplete_of_oldest

end Sys2Proof.Machine
end

section
/-!
PROOFS. The mesh chapter: faults of links and FIFOs, and the Flue's commands.
-/
namespace Sys2Proof.Machine

/-! ### Faults of links and FIFOs (R275, R285, R286) -/

/-- A push is dropped where it finds the FIFO full (R285). -/
theorem fifoStep_push_drops (n : Nat) : (fifoStep n true false).2 = decide (4 ≤ n) := Bool.true_and _

/-- A head lost on a link of the mesh itself takes its packet with it and is told by the router (R275). -/
theorem execMeshLinkUe_head_of_mesh {f : Flight} {s : State} (hport : fluePort f.at_ f.port = false) (hf : (inFlight s f).isSome = true) :
    execMeshLinkUe f .head s = .next (raise (orReg (losePkt s f) (rGrain f.at_ 3 4) (2 ^ 4)) .meshLinkUe none 4 (grainUnit f.at_)
      [(22, coordOf f.at_), (3, f.port.val)]) := by
  simp only [execMeshLinkUe, Option.isNone_eq_false_iff.mpr hf, hport, Bool.false_eq_true, if_false]

/-- A push into a FIFO with room is no violation (R285). -/
theorem execCreditViolation_of_room {f : Flight} {n : Fin 5} (flit : Option (Fin 4)) {s : State} (hn : n.val < 4) :
    execCreditViolation f n flit s = .next s := by
  simp [execCreditViolation, fifoStep_push_drops, hn]

/-- A head pushed into a full FIFO is lost with its packet, a body flit becomes a poisoned row of zeros; the first offence leaves
its channel and port, and each is told once a beat (R285, R286). -/
theorem execCreditViolation_of_full (f : Flight) (flit : Option (Fin 4)) (s : State) :
    execCreditViolation f 4 flit s = .next (
      let l := rGrain f.at_ 3 4
      let vc := bnat (isResponse f.pkt.type)
      let t := flit.elim (orReg (losePkt s f) l 2) (fun i => markRow s f i true)
      let u := if regBit t l 0 then t else setRegF (setRegF t l 11 11 vc) l 10 8 f.port.val
      raiseOnce (orReg u l 1) .creditViolation none 4 (grainUnit f.at_)
        [(21, coordOf f.at_), (3, f.port.val), (1, vc), (1, bnat flit.isNone)]) := by
  cases flit with
  | none => rfl
  | some i => rfl

/-! ### Credit of the Flue (R305, R306, R310) -/

theorem execFlueCreditRequest_of_wants {b : BridgeId} {dir : Bool} {i : Fin 512} {s : State}
    (hwants : flueWants (flueEntry s b (bnat dir) i) = true) (hnew : (flueEntry s b (bnat dir) i).backoff = false) :
    execFlueCreditRequest b dir i s = .next (flueAsk s b (bnat dir) i) := by
  simp [execFlueCreditRequest, hwants, hnew]

theorem execFlueCreditRetry_of_wants {b : BridgeId} {dir : Bool} {i : Fin 512} {s : State}
    (hwants : flueWants (flueEntry s b (bnat dir) i) = true) (hback : (flueEntry s b (bnat dir) i).backoff = true) :
    execFlueCreditRetry b dir i s = .next (flueAsk s b (bnat dir) i) := by
  simp [execFlueCreditRetry, hwants, hback]

/-- Settles O30. A dropped head or body flit is one offence with its own loss; each other clause is the branch of its command that
the hypotheses leave. -/
theorem meshFaultsAndFlue : Obligations.MeshFaultsAndFlue := by
  unfold Obligations.MeshFaultsAndFlue
  refine ⟨⟨?corrected, ?body, ?head, ?headDropped, ?bodyDropped, ?room⟩, ?gateway, ?request, ?retry, ?route⟩
  case corrected => exact fun f s => rfl
  case body => exact fun f s i => rfl
  case head => exact fun f s => execMeshLinkUe_head_of_mesh
  case headDropped =>
    rintro f s _ _ rfl rfl hfirst
    refine (execCreditViolation_of_full f none s).trans ?_
    simp only [Option.elim_none, hfirst, Bool.false_eq_true, if_false]
    rfl
  case bodyDropped =>
    rintro f i s _ rfl hlater
    refine (execCreditViolation_of_full f (some i) s).trans ?_
    simp only [Option.elim_some, hlater, if_true]
    rfl
  case room => exact fun f n flit s => execCreditViolation_of_room flit
  case gateway => exact fun f s hat => congrArg Host.Outcome.next (if_pos hat)
  case request => exact fun b dir i s => execFlueCreditRequest_of_wants
  case retry => exact fun b dir i s => execFlueCreditRetry_of_wants
  case route => exact fun ini b second v s hw => congrArg Host.Outcome.next (regCommand_of_may _ hw)

end Sys2Proof.Machine
end

section
/-!
PROOFS. The faults and resets chapter: resets and their steps, failing and retiring units, the reads of the map and the log.
-/
namespace Sys2Proof.Machine

/-! ### RESET_UNIT (R746) -/

section Unit

variable {s : State} {fn : FnId} {ring : Fin 8} {v : Verb}

theorem verbNext_of_ready {code : Nat} (h : verbReady s fn ring code v = true) : verbNext s fn ring code = some v :=
  beq_iff_eq.mp h

theorem begun_fn (v : Verb) : (begun v).fn = v.fn := rfl

theorem begun_op0 (v : Verb) : (begun v).op0 = v.op0 := rfl

variable (h : verbReady s fn ring 0x90 v = true) (hfn : v.fn = 0)
include h hfn

/-- The owner's reset of a grain or a sheaf: its domain, within the sheaf and the field of the operand. -/
theorem resetUnit_of_sheaf {scope sh : Nat} (hsh : opSheaf (begun v) = some sh) (hscope : bits v.op0 23 22 = scope)
    (hs : scope = 1 ∨ scope = 2) :
    resetUnit scope fn ring s = .next (unitReset (started s v) (begun v)
      (if scope = 1 then .grain (256 * sh + bits v.op0 21 14) else .sheaf sh) [.sheaf sh, .field (fieldOfSheaf sh)] [sh]
      (sheafFailed (started s v) sh)) := by
  simp only [resetUnit, verbNext_of_ready h, verbStart_of_ready _ h, begun_fn, begun_op0, hscope, hsh, hfn]
  rcases hs with rfl | rfl
  · simp
  · simp

/-- The owner's reset of a field: its 36 sheaves. -/
theorem resetUnit_of_field {f : Nat} (hf : opField (begun v) = some f) (hscope : bits v.op0 23 22 = 3) :
    resetUnit 3 fn ring s = .next (unitReset (started s v) (begun v) (.field f) [] ((List.range 36).map (fun k => 36 * f + k))
      (((List.range 36).map (fun k => 36 * f + k)).all (sheafFailed (started s v)))) := by
  simp [resetUnit, verbNext_of_ready h, verbStart_of_ready _ h, begun_fn, hscope, hf, hfn]

end Unit

/-! ### The drain of a half (R317) -/

/-- A half's drain ends once nothing is held there, and that of a lost half at once. -/
theorem execHalfDrainEnd_of_empty {h : HalfId} {s : State} (hdrain : (halfSt s h).draining = true)
    (hempty : heldIn s h = [] ∨ (halfSt s h).lost = true) : execHalfDrainEnd h s = .next (halfEmpty s h) := by
  have ends : ((!(heldIn s h).isEmpty) && !(halfSt s h).lost) = false := by
    rcases hempty with hnone | hlost
    · simp [hnone]
    · simp [hlost]
  simp [execHalfDrainEnd, hdrain, ends]

theorem execDrainTimeout_of_draining {h : HalfId} {s : State} (hdrain : (halfSt s h).draining = true) :
    execDrainTimeout h s = .next (halfEmpty (raise ((List.range 8).foldl (fun s b => orReg s (rFlue b 4) (2 ^ 4)) s)
      .drainTimeout none 1 (halfUnit h) [(1, h.val), (16, ((heldIn s h).map (fun f => flits f.pkt)).sum)]) h) := by
  simp only [execDrainTimeout, hdrain, Bool.not_true, Bool.false_eq_true, if_false]

/-! ### The steps of a reset (R732) -/

section Run

variable {s : State} {id : Nat} {r : ResetRun} (hr : s.flt.resets.find? (fun r => r.id == id) = some r)
include hr

/-- A reset that has nothing left to inject reinitialises its domain, and the longest drain is kept (R732 steps 4 and 5). -/
theorem execResetDrainDone_of_undrained (hdom : ∀ h, r.dom ≠ .half h) (hd : r.drained = false) :
    execResetDrainDone id s = .next (
      let t := modReset (reinit s r.dom) id (fun r => { r with drained := true })
      setReg t (rModule 0x17 0xC) (word (max (reg t (rModule 0x17 0xC)).toNat (min (s.cycle - r.at_) (2 ^ 32 - 1))))) := by
  simp only [execResetDrainDone, hr]
  cases hcase : r.dom with
  | half h => exact absurd hcase (hdom h)
  | grain g => simp [hd]
  | sheaf sh => simp [hd]
  | field f => simp [hd]
  | part p => simp [hd]

/-- A grain's reset releases its port and ends the verbs that asked for it, with its epoch (R732 step 6). -/
theorem execResetRelease_of_grain {g : Nat} (hdom : r.dom = .grain g) (hd : r.drained = true) (hat : r.at_ + 2000 ≤ s.cycle) :
    execResetRelease id s = .next (r.verbs.foldl (fun t v => verbEnd t v 0 (epochOf s (.grain g)))
      (sayReset (releaseGrain (dropReset s id) g) (.grain g))) := by
  simp [execResetRelease, hr, hdom, hd, Nat.not_lt.mpr hat]

end Run

/-- Settles O51. A ready verb takes its effect in the state in which it has started; each clause is then the branch that its
hypotheses leave. -/
theorem resetsAndFences : Obligations.ResetsAndFences := by
  unfold Obligations.ResetsAndFences
  refine ⟨?unit, ?field, ?part, ?half, ?drainEnd, ?drainTimeout, ?drainDone, ?release, ?check, ?fence, ?retire, ?retest, ?map, ?log⟩
  case unit =>
    rintro fn ring s _ v _ sh h hfn rfl rfl hsh
    exact ⟨fun hscope => resetUnit_of_sheaf h hfn hsh hscope (.inl rfl), fun hscope => resetUnit_of_sheaf h hfn hsh hscope (.inr rfl)⟩
  case field =>
    rintro fn ring s _ v _ f h hfn rfl rfl hf hscope
    exact resetUnit_of_field h hfn hf hscope
  case part =>
    rintro fn ring s _ v _ _ h rfl rfl rfl hmay hloaded hidle hup
    have allowed : ¬ ((begun v).fn ≠ 0 ∧ (begun v).fn ≠ bits (begun v).op0 5 0) := fun ⟨hne, hnp⟩ => hmay.elim hne hnp
    refine congrArg Host.Outcome.next ((verbStart_of_ready _ h).trans ?_)
    simp only [if_neg allowed, hloaded, hidle, hup, Bool.false_eq_true, if_false]
  case half =>
    rintro fn ring s _ v _ _ h rfl rfl rfl hlost hup
    refine congrArg Host.Outcome.next ((ownerVerb_of_ready _ h).trans ?_)
    simp [hlost, hup]
  case drainEnd => exact fun h s => execHalfDrainEnd_of_empty
  case drainTimeout =>
    rintro h s _ hdrain rfl
    exact execDrainTimeout_of_draining hdrain
  case drainDone =>
    rintro id s _ r hr hdom hd rfl
    exact execResetDrainDone_of_undrained hr hdom hd
  case release => exact fun id g s r hr => execResetRelease_of_grain hr
  case check => exact fun sh s => rfl
  case fence =>
    rintro fn ring s _ v _ sh h rfl rfl hsheaf hsh hup hsound
    refine congrArg Host.Outcome.next ((ownerVerb_of_ready _ h).trans ?_)
    simp only [hsheaf, hsh, hup, hsound, Bool.false_eq_true, if_false]
  case retire =>
    rintro fn ring s _ v _ f h rfl rfl hf hup hparts hreserves
    refine congrArg Host.Outcome.next ((ownerVerb_of_ready _ h).trans ?_)
    simp only [hf, hup, hparts, hreserves, Bool.not_true, Bool.or_self, Bool.false_eq_true, if_false]
  case retest =>
    rintro fn ring s _ v _ sh h rfl rfl hsh hup hfailed howner hreserves
    refine congrArg Host.Outcome.next ((ownerVerb_of_ready _ h).trans ?_)
    simp only [hsh, hup, hfailed, howner, hreserves, Option.isSome_none, Bool.not_true, Bool.or_self, Bool.false_eq_true, if_false]
  case map =>
    rintro fn ring ok s _ v _ h rfl rfl
    exact congrArg Host.Outcome.next (ownerVerb_of_ready _ h)
  case log =>
    rintro fn ring ok s _ v _ _ h rfl rfl rfl
    exact congrArg Host.Outcome.next (ownerVerb_of_ready _ h)

end Sys2Proof.Machine
end

section
/-!
PROOFS. The attention chapter: how the Winnow takes and completes a job, and the chaff commands.
-/
namespace Sys2Proof.Machine

/-! ### The intake of a job (R349, R354) -/

section Intake

variable {s : State} {sh id : Nat} {j : WJob} (ecc : EccFinds)
  (hj : jobOf s sh id = some j) (hlayer : layerBad s sh (layer s sh (jLayer j)) j = false) (hlive : jExited j = false)
include hj hlayer hlive

/-- In descriptor mode a sound job has no directory to pass, and goes on to its vectors. -/
theorem jobIntake_of_descriptor (hmode : glnMode s sh = false) : jobIntake ecc sh id s = jobVectors ecc sh id s := by
  simp [jobIntake, hj, hlayer, hmode, hlive]

/-- In a Gleaner's mode a sound job keeps its slot's directory entry, VALID and not LOST, and goes on to its vectors. -/
theorem jobIntake_of_directory {s1 : State} {e : Nat} (hmode : glnMode s sh = true)
    (hslot : jSlot j < 2 ^ regF s (rGln sh 4) 31 28) (hread : winMem s sh (dirAddr s sh (jLayer j) (jSlot j)) 16 ecc = (s1, some e))
    (hvalid : bit (BitVec.ofNat 128 e) 127 = true) (hfound : bit (BitVec.ofNat 128 e) 126 = false) :
    jobIntake ecc sh id s = jobVectors ecc sh id (modJob s1 sh id (fun j => { j with dir := BitVec.ofNat 128 e })) := by
  simp [jobIntake, hj, hlayer, hmode, hlive, Nat.not_le.mpr hslot, hread, hvalid, hfound]

end Intake

/-! ### The start of a job, and its wait for a frame (R348, R361) -/

section Start

variable {sh : SheafId} {s : State} {j : WJob}

/-- A job that waits for a frame goes on to its write when the ring has one and the Gleaner runs. -/
theorem execJobStart_of_waiting (ecc : EccFinds) (hwait : (wnw s sh).jobs.find? (fun j => j.wait.isSome) = some j)
    (hframe : (framePop s sh).isSome = true) (hrun : glnMode s sh = false ∨ regBit s (rGln sh 0) 0 = true) :
    execJobStart sh ecc s = .next (jobTail ecc sh j.id s (fun p s => kvWrite ecc sh j.id (jPos j / 16) p s)) := by
  have goes : ((framePop s sh).isNone || (glnMode s sh && !regBit s (rGln sh 0) 0)) = false := by
    rcases hrun with hdesc | hgln
    · simp [Option.isNone_eq_false_iff.mpr hframe, hdesc]
    · simp [Option.isNone_eq_false_iff.mpr hframe, hgln]
  simp [execJobStart, hwait, goes]

/-- With room, and every job before it past its write, the next job of the ring is read, listed and taken in. -/
theorem execJobStart_of_ring {ecc : EccFinds} {s1 : State} {n d : Nat} (hn : n = 2 ^ bits (reg s (rWnw sh 8)) 31 28)
    (hnone : (wnw s sh).jobs.find? (fun j => j.wait.isSome) = none)
    (htakes : winTakes s sh = true) (hroom : (wnw s sh).jobs.length < 2)
    (hring : (wnw s sh).jobs.length < (regF s (rWnw sh 0x10) 15 0 + n - regF s (rWnw sh 0xC) 15 0 % n) % n)
    (hpast : (wnw s sh).jobs.all (jobPast s sh) = true)
    (hread : winMem s sh (bits (reg s (rWnw sh 8)) 17 0 / 32 * 32 +
      32 * ((regF s (rWnw sh 0xC) 15 0 + (wnw s sh).jobs.length) % n)) 32 ecc = (s1, some d))
    (hj : j = { id := s1.nextTag, row0 := BitVec.ofNat 128 d, row1 := BitVec.ofNat 128 (d / 2 ^ 128) }) :
    execJobStart sh ecc s = .next (jobIntake ecc sh j.id
      (setWnw { s1 with nextTag := s1.nextTag + 1 } sh { wnw s1 sh with jobs := (wnw s1 sh).jobs ++ [j] })) := by
  subst hn hj
  simp only [execJobStart, hnone, htakes, hpast, hread, Nat.not_le.mpr hroom, Nat.not_le.mpr hring, decide_false, Bool.not_true,
    Bool.or_self, Bool.false_eq_true, if_false, Option.getD_some, Option.isNone_some]

theorem execFramePoolTimeout_of_late {n : Nat} (hfind : (wnw s sh).jobs.find? (fun j => j.wait.isSome) = some j)
    (hwait : j.wait = some n) (hlate : 2 ≤ n) (hempty : framePop s sh = none) :
    execFramePoolTimeout sh s = .next (jobFail s sh j.id 4) := by
  simp [execFramePoolTimeout, hfind, hwait, hlate, hempty]

end Start

/-! ### The end of a job, and chaff (R348, R362) -/

/-- The job in hand ends once its pages are done and nothing of it is on its way. -/
theorem execJobComplete_of_done {sh : SheafId} {ecc : EccFinds} {s : State} {j j1 : WJob} {rest : List WJob}
    (hjobs : (wnw s sh).jobs = j :: rest) (hwait : j.wait = none) (hbegun : j.begun = true)
    (hj1 : jobOf (pagesRun ecc sh j.id 65537 s) sh j.id = some j1) (hfail : j1.fail = none) (hdone : j1.done = true) (hleft : j1.left = 0) :
    execJobComplete sh ecc s = .next (jobEnd (pagesRun ecc sh j.id 65537 s) sh j1) := by
  simp [execJobComplete, hjobs, hwait, hbegun, hj1, hfail, hdone, hleft]

/-- A permitted write of a chaff command joins the list, with the slot of its register, in a Gleaner's mode. -/
theorem chaffCmd_of_may {ini : Initiator} {sh op : Nat} {v : Word} {s : State} (hw : mayWrite s ini (rWnw sh 0xE4) = true)
    (hop : bits v 31 30 = op) (hmode : glnMode s sh = true) :
    chaffCmd ini sh v op s = setWnw s sh { wnw s sh with chaff := (wnw s sh).chaff ++ [(regF s (rWnw sh 0xE0) 15 0, v)] } := by
  simp [chaffCmd, regCommand_of_may _ hw, hop, hmode]

/-- Settles O32. An intake is one start from the ring, which each mode then takes to the vectors; each other clause is the branch of
its command that its hypotheses leave. -/
theorem attentionJobs : Obligations.AttentionJobs := by
  unfold Obligations.AttentionJobs
  intro newJob
  have taken : ∀ (sh : SheafId) (ecc : EccFinds) (s s1 s2 : State) (d : Nat) (j : WJob), newJob sh ecc s s1 d j s2 →
      exec (.jobStart sh ecc) s = .next (jobIntake ecc sh j.id s2) := by
    rintro sh ecc s s1 _ d j ⟨hnone, htakes, hroom, hring, hpast, hread, hj, rfl⟩
    exact execJobStart_of_ring rfl hnone htakes hroom hring hpast hread hj
  refine ⟨?waiting, taken, ?descriptor, ?directory, ?timeout, ?complete, ?commit, ?rollback, ?apply, ?labInv⟩
  case waiting => exact fun sh ecc s j => execJobStart_of_waiting ecc
  case descriptor =>
    intro sh ecc s s1 s2 d j hnew hj hlayer hlive hmode
    exact (taken sh ecc s s1 s2 d j hnew).trans (congrArg Host.Outcome.next (jobIntake_of_descriptor ecc hj hlayer hlive hmode))
  case directory =>
    intro sh ecc s s1 s2 s3 d e j hnew hj hlayer hlive hmode hslot hread hvalid hfound
    exact (taken sh ecc s s1 s2 d j hnew).trans
      (congrArg Host.Outcome.next (jobIntake_of_directory ecc hj hlayer hlive hmode hslot hread hvalid hfound))
  case timeout => exact fun sh s j n => execFramePoolTimeout_of_late
  case complete => exact fun sh ecc s j j1 rest => execJobComplete_of_done
  case commit => exact fun ini sh v s hw hop hmode => congrArg Host.Outcome.next (chaffCmd_of_may hw hop hmode)
  case rollback => exact fun ini sh v s hw hop hmode => congrArg Host.Outcome.next (chaffCmd_of_may hw hop hmode)
  case apply =>
    intro sh s hidle
    exact congrArg Host.Outcome.next (if_neg (by simp [hidle]))
  case labInv => exact fun ini sh v s hw => congrArg Host.Outcome.next (regCommand_of_may _ hw)

end Sys2Proof.Machine
end

section
/-!
PROOFS. The serving chapter: the Hopper's verbs, its dispatch ring, its report rings and its output records.
-/
namespace Sys2Proof.Machine

/-! ### The serving verbs (R381, R385 to R390) -/

theorem hopSize_ne_zero_of_hopEnabled {s : State} {p : Nat} (h : hopEnabled s p = true) : hopSize s p ≠ 0 := by
  simp only [hopEnabled, Bool.and_eq_true, bne_iff_ne] at h
  exact h.2

section Verbs

variable {s t : State} {fn : FnId} {ring : Fin 8} {v w : Verb} (ht : t = started s v) (hw : w = begun v)
include ht hw

/-- A ready verb on a current entry has its effect on it, where its partition serves or the verb needs only a segment (R385). -/
theorem entryVerb_of_named {code i : Nat} {always : Bool} (k : Verb → Nat → State → State) (h : verbReady s fn ring code v = true)
    (hsize : hopSize t w.fn ≠ 0) (hserves : always = true ∨ hopEnabled t w.fn = true) (hnamed : named t w.fn w.op0 = some i) :
    entryVerb code always fn ring s k = k w i t := by
  subst ht hw
  rcases hserves with halways | henabled
  · simp [entryVerb, verbStart_of_ready _ h, hsize, halways, hnamed]
  · simp [entryVerb, verbStart_of_ready _ h, hsize, henabled, hnamed]

/-- A sound SUBMIT takes the lowest free entry; a reason against it ends the entry at once, and the name is answered either way
(R386, R387). -/
theorem execSubmit_of_free {i : Nat} {why : Option Nat} (h : verbReady s fn ring 0x40 v = true) (henabled : hopEnabled t w.fn = true)
    (hsound : submitBad t w = false) (hfree : (List.range (hopSize t w.fn)).find? (fun i => (entAt t w.fn i).st == .free) = some i)
    (hwhy : submitWhy (submitPut t w i) w.fn (newEntry t w (entAt t w.fn i).gen) (activeCount t w.fn) = why) :
    execSubmit fn ring s = .next (verbDone (why.elim (submitPut t w i) (entEnd (submitPut t w i) w.fn i .refused)) w 0
      (i * 256 + (entAt t w.fn i).gen.toNat)) := by
  subst ht hw
  simp only [execSubmit, verbStart_of_ready _ h, henabled, hsound, hfree, hwhy, Bool.not_true, Bool.false_eq_true, if_false]
  cases why with
  | none => rfl
  | some reason => rfl

/-- EXTEND of a queued stream within its model's context changes its input, with no dispatch record (R388). -/
theorem execExtend_of_queued {i m : Nat} {e : HEntry} (h : verbReady s fn ring 0x41 v = true) (henabled : hopEnabled t w.fn = true)
    (hnamed : named t w.fn w.op0 = some i) (he : e = entAt t w.fn i) (hstream : e.stream = true) (hqueued : e.st = .queued)
    (hrow : modelRow t w.fn e.model = some m) (hgrows : e.inputLen ≤ bits w.op0 63 44)
    (hfits : bits w.op0 63 44 + e.maxLen ≤ rowContext t w.fn m) :
    execExtend fn ring s = .next (verbDone (setEnt t w.fn i
      { e with inputLen := bits w.op0 63 44, stream := bit w.op0 43, deadline := bits w.op0 127 64 }) w 0) := by
  refine congrArg Host.Outcome.next
    ((entryVerb_of_named ht hw _ h (hopSize_ne_zero_of_hopEnabled henabled) (.inr henabled) hnamed).trans ?_)
  simp [← he, hstream, hqueued, hrow, Nat.not_lt.mpr hgrows, Nat.not_lt.mpr hfits]

end Verbs

/-! ### The dispatch ring (R400) -/

/-- With space in a ring that the partition holds and that does not drain, the oldest record is written and its binder notified. -/
theorem execDispatchRecordWrite_of_space {part : PartId} {s : State} {r0 r1 : BitVec 128} {rest : List (BitVec 128 × BitVec 128)}
    {loc : Word} {base n tail sh : Nat} (hdisp : (hpart s part).disp = (r0, r1) :: rest) (hloc : loc = reg s (rHop part 0x10))
    (hbase : base = regF s (rHop part 0x14) 17 0 / 32 * 32) (hn : n = 2 ^ regF s (rHop part 0x14) 31 28)
    (hheld : hopFault s part loc = none) (hsh : sh = (locSheaf s part loc).getD 0) (hup : drains s (.sheaf sh) = false)
    (htail : tail = (hpart s part).dispTail % n) (hspace : (tail + 1) % n ≠ memGet (sheaf s sh).bmem base 4 % n) {s1 : State}
    (hs1 : s1 = bmemWrite (bmemWrite (setHpart s part { hpart s part with disp := rest }) sh (base + 32 + 32 * tail) 16 r0.toNat) sh
      (base + 32 + 32 * tail + 16) 16 r1.toNat) :
    execDispatchRecordWrite part s = .next (sendPkt (setHpart s1 part { hpart s1 part with dispTail := (tail + 1) % n })
      (hopNotify s1 part sh (bits loc 18 16))) := by
  subst hloc hbase hn hsh htail hs1
  simp only [execDispatchRecordWrite, hdisp, hheld, hup, if_neg hspace, Bool.false_eq_true, if_false]

/-- Settles O38. A verb on an entry is one look at its name; each clause is then the branch that its hypotheses leave. -/
theorem hopperCommands : Obligations.HopperCommands := by
  unfold Obligations.HopperCommands
  refine ⟨?queued, ?refused, ?extend, ?cancel, ?release, ?query, ?cut, ?dispatch⟩
  case queued =>
    intro fn ring s t v w i h ht hw
    exact execSubmit_of_free (why := none) ht hw h
  case refused =>
    intro fn ring s t v w i why h ht hw
    exact execSubmit_of_free (why := some why) ht hw h
  case extend =>
    intro fn ring s t v w i m e h ht hw
    exact execExtend_of_queued ht hw h
  case cancel =>
    intro fn ring s t v w i h ht hw henabled hnamed hqueued
    refine congrArg Host.Outcome.next
      ((entryVerb_of_named ht hw _ h (hopSize_ne_zero_of_hopEnabled henabled) (.inr henabled) hnamed).trans ?_)
    simp only [hqueued]
  case release =>
    intro fn ring s t v w i h ht hw hsize hnamed hended
    exact congrArg Host.Outcome.next ((entryVerb_of_named ht hw _ h hsize (.inl rfl) hnamed).trans (if_pos hended))
  case query =>
    intro fn ring ok s t v w i h ht hw hsize hnamed
    exact congrArg Host.Outcome.next (entryVerb_of_named ht hw _ h hsize (.inl rfl) hnamed)
  case cut =>
    rintro part s _ _ rfl hcut htold rfl
    exact congrArg Host.Outcome.next ((if_neg hcut).trans (if_pos htold))
  case dispatch =>
    rintro part s _ r0 r1 rest loc base n tail sh rfl hdisp hloc hbase hn hheld hsh hup htail hspace
    exact ⟨_, rfl, execDispatchRecordWrite_of_space hdisp hloc hbase hn hheld hsh hup htail hspace rfl⟩

/-! ### The report rings (R402, R405) -/

@[simp] theorem repRing_setRep_same (s : State) (p k : Nat) (x : RepRing) : repRing (setRep s p k x) p k = x :=
  mapGet_set_same _ _ _ _

/-- A new sound report is taken in hand; below the ring's last row and before the eighth since HEAD was written, PHASE and HEAD's
copy stay as they are (R402). -/
theorem execReportPoll_of_new {part : PartId} {ring : Fin 16} {ecc : EccFinds} {s s1 : State} {x y : RepRing} {loc : Word}
    {base n sh d : Nat} (hx : x = repRing s part ring) (hloc : loc = reg s (rHop part 0x1C ring)) (hon : bit loc 31 = true)
    (hfree : x.hand = none) (hout : (hpart s part).out.length < 4096) (hheld : hopFault s part loc = none)
    (hsh : sh = (locSheaf s part loc).getD 0) (hup : drains s (.sheaf sh) = false)
    (hbase : base = regF s (rHop part 0x20 ring) 17 0 / 32 * 32) (hn : n = 2 ^ regF s (rHop part 0x20 ring) 31 28)
    (hread : bmemRead s sh (base + 32 + 32 * (x.head % n)) 32 ecc 4 = (d, s1))
    (hclean : bmemPoisoned s1 sh (base + 32 + 32 * (x.head % n)) 32 = false) (hphase : bit (BitVec.ofNat 128 d) 100 = !x.pass)
    (hpass : x.head % n + 1 < n) (hsince : x.since + 1 < 8)
    (hy : y = { x with head := (x.head % n + 1) % n, since := x.since + 1 })
    (hsound : rpBad (setRep s1 part ring y) part (BitVec.ofNat 128 d) = false) :
    execReportPoll part ring ecc s = .next (setRep (setRep s1 part ring y) part ring
      { y with hand := some (BitVec.ofNat 128 d, BitVec.ofNat 128 (d / 2 ^ 128)) }) := by
  subst hx hloc hsh hbase hn hy
  have hempty : (repRing s part ring).hand.isSome = false := by rw [hfree]; rfl
  simp only [execReportPoll, hon, hempty, Nat.not_le.mpr hout, hheld, hup, hread, hclean, hphase, Nat.not_le.mpr hpass, hsound,
    repRing_setRep_same, Nat.not_le.mpr hsince, decide_false, Bool.not_true, Bool.or_self, Bool.not_false,
    Bool.not_beq_self, Bool.and_false, Bool.false_eq_true, if_false]

/-- A report in hand that names a current entry without quarantine ends its stall and acts on it (R405, R407). -/
theorem report_of_named {p ring kind i : Nat} {r0 r1 : BitVec 128} {s : State} (k : Nat → BitVec 128 → BitVec 128 → State → State)
    (hhand : (repRing s p ring).hand = some (r0, r1)) (hkind : rpKind r0 = kind)
    (hnamed : rpNamed (setRep s p ring { repRing s p ring with hand := none }) p r0 = some i)
    (hquar : (entAt (setRep s p ring { repRing s p ring with hand := none }) p i).quar = false) :
    report p ring kind s k =
      k i r0 r1 (modEnt (setRep s p ring { repRing s p ring with hand := none }) p i (fun e => { e with stall := 0 })) := by
  simp only [report, hhand, hkind, hnamed, hquar, ne_eq, not_true_eq_false, Bool.false_eq_true, if_false]

/-- A report of an expert without tentative tokens is counted while the ledger is on, whatever entry it names (R424). -/
theorem execExpertReport_of_final {p : PartId} {ring : Fin 16} {r0 r1 : BitVec 128} {s s1 : State} {e : Nat}
    (hhand : (repRing s p ring).hand = some (r0, r1)) (hkind : rpKind r0 = 4)
    (hs1 : s1 = setRep s p ring { repRing s p ring with hand := none }) (he : e = bits r0 99 90)
    (hon : regBit s1 (rMoe p 0) 31 = true) (htent : bits r1 127 96 = 0) :
    execExpertReport p ring s = .next (spillAdd
      (incReg (incReg (incReg s1 (rMoe p 8 e) (bits r0 89 74)) (rMoe p 0x18 e) (bits r0 73 66)) (rMoe p 0x14 e) (bits r0 65 58)) p e
      (bits r0 65 58)) := by
  subst hs1 he
  simp only [execExpertReport, hhand, hkind, htent, hon, ne_eq, not_true_eq_false, if_false, if_true]

/-! ### The output ring (R408 to R411) -/

/-- A token's record that the host takes, below the last slot of a ring with space, is written to its slot, signalled and counted. -/
theorem execOutputRecordWrite_of_token {part : PartId} {s s1 : State} {r : OutRec} {rest : List OutRec} {n tail : Nat}
    {tent late : Bool} {k : Tok} (hfirst : (hpart s part).out = r :: rest) (hkind : r.kind = .token tent k)
    (hn : n = 2 ^ min 20 (regF s (rHop part 0x2C) 4 0)) (htail : tail = regF s (rHop part 0x34) 19 0)
    (hport : portUp s (homePort s part) = true) (hon : regBit s (rHst part 0) 31 = true) (hpass : tail + 1 < n)
    (hspace : tail + 1 ≠ regF s (rHop part 0x30) 19 0 % n)
    (hlate : outLate (setHpart s part { hpart s part with out := rest, fullTold := false }) part r = (s1, late)) :
    execOutputRecordWrite part true s = .next (incReg (signal (setRegF (hostSend s1 (.write (homePort s part)
      (hostBase s (rHop part 0x24) (rHop part 0x28) 32 + 32 * tail) (outRows r (!(hpart s part).outPass) late s.time)))
      (rHop part 0x34) 19 0 (tail + 1)) (homePort s part) part (regF s (rHst part 0) 3 0) false) (rHop part 0x58)) := by
  subst hn htail
  simp only [execOutputRecordWrite, hfirst, hkind, hport, hon, Nat.mod_eq_of_lt hpass, if_neg hspace, hlate, Nat.not_le.mpr hpass,
    Bool.not_true, Bool.or_self, Bool.false_eq_true, if_false]

/-- Settles O39. A report that names a current entry is one wrapper, whose effect is then the branch that the entry's state leaves. -/
theorem reportsAndOutputs : Obligations.ReportsAndOutputs := by
  unfold Obligations.ReportsAndOutputs
  intro taken
  have acts : ∀ {s t : State} {p : PartId} {ring : Fin 16} {kind i : Nat} {r0 r1 : BitVec 128} (k), taken s p ring kind i r0 r1 t →
      report p ring kind s k = k i r0 r1 t := by
    rintro s _ p ring kind i r0 r1 k ⟨hhand, hkind, hnamed, hquar, rfl⟩
    exact report_of_named k hhand hkind hnamed hquar
  refine ⟨?poll, ?token, ?prefillDone, ?verify, ?done, ?fail, ?cancelAck, ?expert, ?output⟩
  case poll =>
    intro part ring ecc s s1 x loc base n sh d hx hloc hon hfree hout hheld hsh hup hbase hn hread hclean hphase hpass hsince hsound
    exact execReportPoll_of_new hx hloc hon hfree hout hheld hsh hup hbase hn hread hclean hphase hpass hsince rfl hsound
  case token =>
    intro p ring i r0 r1 s t h hdecode hfinal
    refine congrArg Host.Outcome.next ((acts _ h).trans ?_)
    simp only [hdecode, hfinal, ne_eq, not_true_eq_false, Bool.false_eq_true, if_false]
  case prefillDone =>
    intro p ring i r0 r1 s t h hprefill
    exact congrArg Host.Outcome.next ((acts _ h).trans (if_neg (not_not_intro hprefill)))
  case verify =>
    rintro p ring i r0 r1 s t _ _ n h rfl hdecode heager hn hall hroom rfl
    refine congrArg Host.Outcome.next ((acts _ h).trans ?_)
    simp [hdecode, heager, ← hn, ← hall, hroom, Nat.min_eq_left hroom.le, bnat]
  case done => exact fun p ring i r0 r1 s t h => congrArg Host.Outcome.next (acts _ h)
  case fail => exact fun p ring i r0 r1 s t h => congrArg Host.Outcome.next (acts _ h)
  case cancelAck => exact fun p ring i r0 r1 s t h => congrArg Host.Outcome.next (acts _ h)
  case expert => exact fun p ring r0 r1 s s1 e => execExpertReport_of_final
  case output =>
    rintro part s s1 _ r rest n tail tent late k rfl
    exact execOutputRecordWrite_of_token

end Sys2Proof.Machine
end

section
/-!
PROOFS. The Granary's loaders: how a queued load begins and leaves, and MODEL_LOAD. The look at a model by its name that MODEL_LOAD
shares with the other verbs on models.
-/
namespace Sys2Proof.Machine

/-! ### Verbs on a model or a committal (R441, R448, R450) -/

section Verbs

variable {s t : State} {fn : FnId} {ring : Fin 8} {v w : Verb} {code : Nat} (h : verbReady s fn ring code v = true)
  (ht : t = started s v) (hw : w = begun v) (hready : gryReady t = true)
include h ht hw hready

/-- A ready verb of a function that may act on the namespace it names, which is there, has its effect on the handle. -/
theorem modelVerb_of_named (k : Verb → Nat → Nat → State → State) (hpermits : nsPermits t w.fn (bits w.op0 7 0) = true)
    (hspace : (mapFind t.granary.spaces (bits w.op0 7 0)).isSome = true) (hhandle : bits w.op0 23 8 ≠ 0xFFFF) :
    modelVerb code fn ring s k = k w (bits w.op0 7 0) (bits w.op0 23 8) t := by
  subst ht hw
  simp [modelVerb, verbStart_of_ready _ h, hready, hpermits, Option.isSome_iff_ne_none.mp hspace, hhandle]

/-- A ready verb of a function that may act on the namespace of the committal it names has its effect on the committal. -/
theorem commitVerb_of_named {m : Model} (k : Verb → Model → State → State) (hm : modelOf t (bits w.op0 31 0) = some m)
    (hpermits : nsPermits t w.fn m.nsid = true) : commitVerb code fn ring s k = k w m t := by
  subst ht hw
  simp [commitVerb, verbStart_of_ready _ h, hready, hm, hpermits]

end Verbs

/-! ### Descriptors (R464, R471) -/

/-- At turn 8 the queue of MODEL_LOAD and images is the first source asked, so its oldest load begins, and ring 0 is next. -/
theorem execLoadDescStart_of_queue {f : FieldId} {ecc : EccFinds} {s : State} {q : LoadRun} {rest : List LoadRun}
    (hready : gryReady s = true) (hroom : (region s f).runs.length < 4) (hqueue : (region s f).queue = q :: rest)
    (hturn : (region s f).turn = 8) :
    execLoadDescStart f ecc s = .next (ldBegin (setRegion s f { region s f with queue := rest, turn := 0 }) f ecc q) := by
  have turns : (List.range 9).map (fun k => (8 + k) % 9) = [8, 0, 1, 2, 3, 4, 5, 6, 7] := by decide
  simp only [execLoadDescStart, hready, ge_iff_le, Nat.not_le.mpr hroom, hqueue, hturn, turns, List.find?_cons, List.isEmpty_cons,
    decide_false, Bool.not_true, Bool.not_false, Bool.or_self, Bool.false_eq_true, if_false, if_true]

/-- Of a load that ended well, has no ring and belongs to no verb, nothing is left but the blocks it read. -/
theorem execLoadDescEnd_of_quiet {f : FieldId} {s : State} {q : LoadRun} (hended : (region s f).runs.find? ldEnded = some q)
    (hfault : q.fault = none) (hring : q.ring = none) (hverb : q.verb = none) :
    execLoadDescEnd f s = .next (
      let t := modRegion s f (fun r => { r with runs := r.runs.filter (fun x => x.id != q.id) })
      t.granary.regions.foldl (fun s e => reapBlks s e.1) t) := by
  simp only [execLoadDescEnd, hended, hfault, hring, hverb]
  cases q.img with
  | none => rfl
  | some k => rfl

/-- Settles O37. A start and an end are the branches that their hypotheses leave; a credit retry is the model's own term; MODEL_LOAD
is a verb on a model by name. -/
theorem granaryLoads : Obligations.GranaryLoads := by
  unfold Obligations.GranaryLoads
  refine ⟨?start, ?ended, ?retry, ?load⟩
  case start => exact fun f ecc s q rest => execLoadDescStart_of_queue
  case ended =>
    rintro f s _ q hended hfault hring hverb rfl
    exact execLoadDescEnd_of_quiet hended hfault hring hverb
  case retry =>
    rintro f s _ rfl
    rfl
  case load =>
    intro fn ring list s t v w m mem h ht hw hready hpermits hspace hhandle hm hcommitted hread
    refine congrArg Host.Outcome.next ((modelVerb_of_named h ht hw hready _ hpermits hspace hhandle).trans ?_)
    simp only [hm, hcommitted, hread, Bool.false_eq_true, if_false]

end Sys2Proof.Machine
end

section
/-!
PROOFS. The Granary's namespaces, committals and models.
-/
namespace Sys2Proof.Machine

/-! ### Namespaces (R440, R444) -/

/-- Loading the key slots of a half changes nothing of the Granary. -/
@[simp] theorem keysLoad_granary (s : State) (h : Nat) : (keysLoad s h).granary = s.granary := by
  unfold keysLoad
  split
  · rfl
  · rfl

section Verbs

variable {s t : State} {fn : FnId} {ring : Fin 8} {v w : Verb} (ht : t = started s v) (hw : w = begun v) (hready : gryReady t = true)
include ht hw hready

theorem execNsCreate_of_room {q : Nat} (h : verbReady s fn ring 0x50 v = true) (howner : w.fn = 0) (hq : q = bits w.op0 27 8)
    (hnew : mapFind t.granary.spaces (bits w.op0 7 0) = none)
    (hroom : (t.granary.spaces.map (fun e => nsQuota t e.1)).sum + (if q = 0 then 1048576 else q) ≤ 1048576) :
    execNsCreate fn ring s = .next (
      let x : Ns := ⟨q, (Config.freeVec t.fresh).extractLsb' 0 256, (Config.freeVec t.fresh).extractLsb' 256 256⟩
      let t1 := setGry (draw t).2 { t.granary with spaces := mapInsert t.granary.spaces (bits w.op0 7 0) x }
      verbDone (mAdd (keysLoad (keysLoad t1 0) 1) { kind := 0xA, nsid := bits w.op0 7 0, data := [q] }) w 0) := by
  subst ht hw hq
  refine congrArg Host.Outcome.next ((verbStart_of_ready _ h).trans ?_)
  simp only [draw, hready, howner, hnew, Nat.not_lt.mpr hroom, Option.isSome_none, Bool.not_true, ne_eq, not_true_eq_false,
    Bool.false_eq_true, if_false]

/-- A namespace without models is destroyed by dropping it, with its keys. -/
theorem execNsDestroy_of_empty (h : verbReady s fn ring 0x51 v = true) (howner : w.fn = 0)
    (hspace : (mapFind t.granary.spaces (bits w.op0 7 0)).isSome = true)
    (hnone : t.granary.models.filter (fun m => m.nsid == bits w.op0 7 0) = []) :
    execNsDestroy fn ring s = .next (verbDone (mAdd (keysLoad (keysLoad
      (setGry t { t.granary with spaces := mapErase t.granary.spaces (bits w.op0 7 0) }) 0) 1)
      { kind := 0xB, nsid := bits w.op0 7 0 }) w 0) := by
  subst ht hw
  refine congrArg Host.Outcome.next ((verbStart_of_ready _ h).trans ?_)
  simp only [hready, howner, Option.isNone_eq_false_iff.mpr hspace, keysLoad_granary, setGry, hnone, List.filter_nil,
    List.foldl_nil, Bool.not_true, ne_eq, not_true_eq_false, Bool.false_eq_true, if_false]

/-! ### Committals (R448 to R454) -/

section Begin

variable (hpermits : nsPermits t w.fn (bits w.op0 7 0) = true) (hspace : (mapFind t.granary.spaces (bits w.op0 7 0)).isSome = true)
  (hhandle : bits w.op0 23 8 ≠ 0xFFFF) (hlimit : commitLimit t (bits w.op0 7 0) = false)
include hpermits hspace hhandle hlimit

/-- A placement list that passes every check of R451 opens its committal. -/
theorem execCommitBegin_of_sound {list : Option (List Byte)} {mem : Mem} {pl : List (Nat × Nat)} {base : Nat}
    (h : verbReady s fn ring 0x52 v = true) (hplain : bit v.op0 24 = false)
    (hread : srcBytes t w.fn (bit w.op0 25) (bits w.op1 63 0) (4 * bits w.op0 39 32) list = some mem)
    (hplace : (List.range (bits w.op0 39 32)).mapM (fun k => placeEntry (word (memGet mem (4 * k) 4))) = some pl)
    (hsome : 0 < bits w.op0 39 32) (hfew : bits w.op0 39 32 ≤ 160) (hwrite : roHalf t (pl.map Prod.fst) = false)
    (hnew : byHandle t (bits w.op0 7 0) (bits w.op0 23 8) = none)
    (hquota : nsAlloc t (bits w.op0 7 0) + (pl.map Prod.snd).sum ≤ nsQuota t (bits w.op0 7 0)) (hroom : noRoom t pl = false)
    (hbase : nsBase t (bits w.op0 7 0) (pl.map Prod.snd).sum = some base) :
    execCommitBegin fn ring list s = .next (verbDone (commitOpen t w pl base) w 0
      (packFields [(32, t.granary.nextId), (20, base), (20, (pl.map Prod.snd).sum)])) := by
  subst ht hw
  simp [execCommitBegin, verbNext_of_ready h, verbStart_of_ready _ h, hplain, hready, hpermits, hread, hplace, hhandle, hsome.ne',
    Nat.not_lt.mpr hfew, Option.isSome_iff_ne_none.mp hspace, hwrite, hnew, hlimit, Nat.not_lt.mpr hquota, hroom, hbase]

/-- A repair of a DEGRADED model that no other repair is pending for opens its committal, placed where the poisoned blocks are. -/
theorem execCommitRepairBegin_of_sound {m : Model} (h : verbReady s fn ring 0x52 v = true)
    (hrepair : bit v.op0 24 = true) (hm : byHandle t (bits w.op0 7 0) (bits w.op0 23 8) = some m) (hst : m.st = .degraded)
    (halone : t.granary.models.any
      (fun r => r.repair && r.nsid == bits w.op0 7 0 && r.handle == bits w.op0 23 8 && pendingSt r) = false)
    (hwrite : roHalf t ((badBlks t m).map Prod.snd) = false)
    (hquota : nsAlloc t (bits w.op0 7 0) + (badBlks t m).length ≤ nsQuota t (bits w.op0 7 0))
    (hroom : noRoom t ((badBlks t m).map (fun e => (e.2, 1))) = false) :
    execCommitRepairBegin fn ring s = .next (
      let r : Model := { commit := t.granary.nextId, nsid := bits w.op0 7 0, handle := bits w.op0 23 8
                         part := if w.fn = 0 then none else some w.fn, st := .open_, base := m.base
                         blocks := m.blocks, place := badBlks t m, repair := true }
      verbDone (mAdd (setGry t { t.granary with models := t.granary.models ++ [r], nextId := t.granary.nextId + 1 })
        { kind := 1, nsid := bits w.op0 7 0, handle := bits w.op0 23 8, commit := t.granary.nextId, data := [m.base, m.blocks, 1, 0] })
        w 0 (packFields [(32, t.granary.nextId), (20, m.base), (20, m.blocks)])) := by
  subst ht hw
  simp only [execCommitRepairBegin, verbNext_of_ready h, verbStart_of_ready _ h, hrepair, hready, hpermits, hhandle,
    Option.isNone_eq_false_iff.mpr hspace, hm, hst, halone, hwrite, hlimit, Nat.not_lt.mpr hquota, hroom, Bool.not_true, ne_eq,
    not_true_eq_false, Bool.false_eq_true, or_self, if_false]

end Begin

/-- Data for a block of an OPEN committal that is neither done nor on its way joins its region's jobs. -/
theorem execCommitData_of_open {data : Option (List Byte)} {m : Model} {f : Nat} {bytes : Mem}
    (h : verbReady s fn ring 0x53 v = true)
    (hm : modelOf t (bits w.op0 31 0) = some m) (hpermits : nsPermits t w.fn m.nsid = true) (hsome : 0 < bits w.op0 77 53)
    (hfits : bits w.op0 77 53 ≤ 16777216) (hblock : bits w.op0 51 32 < m.blocks) (hopen : m.st = .open_)
    (hplace : blkRegion m (bits w.op0 51 32) = some f) (hdone : mapFind m.done (bits w.op0 51 32) = none)
    (hidle : (region t f).jobs.any (fun j => j.commit == m.commit && j.mblock == bits w.op0 51 32) = false)
    (hread : srcBytes t w.fn (bit w.op0 52) (bits w.op1 63 0) (bits w.op0 77 53) data = some bytes) :
    execCommitData fn ring data s = .next (progBegin (modRegion t f (fun r => { r with jobs := r.jobs ++
      [{ verb := w.id, commit := m.commit, mblock := bits w.op0 51 32, bytes := bytes, len := bits w.op0 77 53 }] })) f) := by
  subst ht hw
  refine congrArg Host.Outcome.next ((verbStart_of_ready _ h).trans ?_)
  simp only [hm, hready, hpermits, hsome.ne', gt_iff_lt, Nat.not_lt.mpr hfits, ge_iff_le, Nat.not_le.mpr hblock, hopen, hplace, hdone,
    hidle, hread, Bool.not_true, ne_eq, not_true_eq_false, Bool.false_eq_true, or_self, if_false]

end Verbs

/-- A program no deeper than GRY_F_VERIFY has seen leaves it (R480). -/
theorem verifyDepth_of_le {s : State} {f : FieldId} {depth : Nat} (h : depth ≤ regF s (rGryF f 0xC) 7 0) : verifyDepth s f depth = s :=
  if_neg (Nat.not_lt.mpr h)

/-- A block programmed within the verify limit is its committal's model block (R453). -/
theorem execCommitDataDone_of_within {f : FieldId} {depth b : Nat} {s s1 s2 : State} {j : ProgJob} {rest : List ProgJob} {m : Model}
    (hjobs : (region s f).jobs = j :: rest) (hphys : j.phys = some b) (hgoes : j.held = false)
    (hs1 : s1 = incReg s (rGryF f 0x20) ((j.len + 16383) / 16384)) (hseen : depth ≤ regF s1 (rGryF f 0xC) 7 0)
    (hwithin : depth ≤ regF s (rGry 0x14) 7 0)
    (hs2 : s2 = modBlk s1 f b (fun k => { k with len := j.len, data := j.bytes, reads := 0, poison := [] }))
    (hm : modelOf s2 j.commit = some m) :
    execCommitDataDone f depth false s = .next (progBegin (verbEnd (modRegion
      (modModel (jAdd s2 f { kind := 4, nsid := m.nsid, handle := m.handle, commit := j.commit, mblock := j.mblock, phys := b, data := [j.len] })
        j.commit (fun m => { m with done := mapInsert m.done j.mblock (f.val, b, j.len) }))
      f (fun r => { r with jobs := rest })) j.verb 0) f) := by
  subst hs1 hs2
  simp only [execCommitDataDone, hjobs, hphys, hgoes, verifyDepth_of_le hseen, gt_iff_lt, Nat.not_lt.mpr hwithin, decide_false, Bool.or_self,
    hm, Bool.false_eq_true, if_false]

/-- Settles O40. A verb on a committal or a model is one look at its name; each clause is then the branch that passes every check. -/
theorem granaryCommits : Obligations.GranaryCommits := by
  unfold Obligations.GranaryCommits
  intro free commit named
  have onCommit : ∀ {fn : FnId} {ring : Fin 8} {code : Nat} {s t : State} {v w : Verb} {m : Model} (k), commit fn ring code s v w t m →
      commitVerb code fn ring s k = k w m t := by
    rintro fn ring code s t v w m k ⟨⟨h, ht, hw, hready⟩, hm, hpermits⟩
    exact commitVerb_of_named h ht hw hready k hm hpermits
  have onModel : ∀ {fn : FnId} {ring : Fin 8} {code : Nat} {s t : State} {v w : Verb} (k), named fn ring code s v w t →
      modelVerb code fn ring s k = k w (bits w.op0 7 0) (bits w.op0 23 8) t := by
    rintro fn ring code s t v w k ⟨⟨h, ht, hw, hready⟩, hpermits, hspace, hhandle⟩
    exact modelVerb_of_named h ht hw hready k hpermits hspace hhandle
  refine ⟨?create, ?destroy, ?opened, ?repair, ?data, ?done, ?sealed, ?aborted, ?resumed, ?freed, ?query⟩
  case create =>
    rintro fn ring s t v w q ⟨h, ht, hw, hready⟩
    exact execNsCreate_of_room ht hw hready h
  case destroy =>
    rintro fn ring s t v w ⟨h, ht, hw, hready⟩
    exact execNsDestroy_of_empty ht hw hready h
  case opened =>
    rintro fn ring list s t v w mem pl base ⟨⟨h, ht, hw, hready⟩, hpermits, hspace, hhandle⟩ hplain hread hplace hsome hfew hwrite
      hnew hlimit
    exact execCommitBegin_of_sound ht hw hready hpermits hspace hhandle hlimit h hplain hread hplace hsome hfew hwrite hnew
  case repair =>
    rintro fn ring s t v w m _ ⟨⟨h, ht, hw, hready⟩, hpermits, hspace, hhandle⟩ hrepair hm hst rfl halone
      hwrite hlimit
    exact execCommitRepairBegin_of_sound ht hw hready hpermits hspace hhandle hlimit h hrepair hm hst halone hwrite
  case data =>
    rintro fn ring data s t v w m f bytes ⟨⟨h, ht, hw, hready⟩, hm, hpermits⟩
    exact execCommitData_of_open ht hw hready h hm hpermits
  case done => exact fun f depth b s s1 s2 j rest m => execCommitDataDone_of_within
  case sealed =>
    intro fn ring s t v w m h hopen hplain hfull
    refine congrArg Host.Outcome.next ((onCommit _ h).trans ?_)
    simp only [hopen, hplain, Nat.not_lt.mpr hfull, ne_eq, not_true_eq_false, Bool.false_eq_true, or_self, if_false]
  case aborted =>
    intro fn ring s t v w m h hpending
    exact congrArg Host.Outcome.next ((onCommit _ h).trans (if_neg (by simp [hpending])))
  case resumed =>
    intro fn ring s t v w m h hsuspended
    exact congrArg Host.Outcome.next ((onCommit _ h).trans (if_neg (not_not_intro hsuspended)))
  case freed =>
    rintro fn ring s t _ v w m h hm hcommitted rfl
    refine congrArg Host.Outcome.next ((onModel _ h).trans ?_)
    simp only [hm, hcommitted, Bool.false_eq_true, if_false]
  case query => exact fun fn ring ok s t v w h => congrArg Host.Outcome.next (onModel _ h)

end Sys2Proof.Machine
end

section
/-!
PROOFS. The Granary's upkeep: what replay leaves, expiry, scrub, refresh, erase and held programs.
-/
namespace Sys2Proof.Machine

/-! ### Replay and expiry (R460 to R462) -/

/-- A committal's records leave it SEALED or SUSPENDED. -/
theorem replayModel_st_ne_open (g : Granary) (l : List JRec) (c : JRec) : (replayModel g l c).st ≠ .open_ := by
  cases hsealed : jHas l 5 c.commit <;> simp [replayModel, hsealed]

theorem replayAlive_st_ne_open {g : Granary} {l : List JRec} {m : Model} (h : m ∈ replayAlive g l) : m.st ≠ .open_ := by
  obtain ⟨c, -, rfl⟩ := List.mem_map.mp h
  exact replayModel_st_ne_open g l c

/-- A sealed repair changes which blocks its model has, not the model's state. -/
theorem replayModels_st_ne_open {g : Granary} {l : List JRec} {m : Model} (h : m ∈ replayModels g l) : m.st ≠ .open_ := by
  obtain ⟨m0, hm0, rfl⟩ := List.mem_map.mp h
  have alive : m0.st ≠ .open_ := replayAlive_st_ne_open (List.mem_of_mem_filter hm0)
  split
  · exact alive
  · exact alive

/-- After a replay no committal is OPEN, and RESUME_LIMIT runs from now (R461, R462). -/
theorem replayed_models {s : State} {m : Model} (h : m ∈ (replayed s).granary.models) : m.st ≠ .open_ ∧ m.idle = s.time := by
  obtain ⟨m0, hm0, rfl⟩ := List.mem_map.mp h
  refine ⟨?_, rfl⟩
  dsimp only
  split
  · decide
  · exact replayModels_st_ne_open hm0

theorem execCommitExpiry_of_over {id : BitVec 32} {s : State} {m : Model} (hm : modelOf s id.toNat = some m) (hst : m.st = .suspended)
    (hready : gryReady s = true) (hover : m.idle + regF s (rGry 0) 15 0 * 1000000000 ≤ s.time) :
    execCommitExpiry id s = .next (raise (incReg (abortCommit 2 s m) (rGry 0x2C)) .commitExpired (nsPart s m.nsid) 0 0
      [(8, m.nsid), (16, m.handle), (32, m.commit)]) := by
  have late : resumeOver s m = true := decide_eq_true hover
  simp [execCommitExpiry, hm, hst, hready, late]

/-! ### Scrub, refresh and erase (R456, R475, R477) -/

/-- The scrubber goes on from where it was while a programmed page is left beyond. -/
theorem execGranaryScrubRead_of_next {f : FieldId} {ecc : EccFinds} {most k : Nat} {s : State}
    (hpage : (((dataBlks (region s f)).filter (fun e => e.2.st == .used && e.2.len != 0)).flatMap
      (fun e => (List.range ((e.2.len + 16383) / 16384)).map (fun p => 1024 * e.1 + p))).find? (fun k => k ≥ (region s f).scrub) = some k) :
    execGranaryScrubRead f ecc most s = .next (
      let t := gryCount ((List.range 4).foldl (fun s c => gryDecode ecc (4 * (k % 1024) + c) f (k / 1024)
        (4 * (k % 1024) + c) 2 s) (setRegion s f { region s f with scrub := k + 1 })) f (k / 1024) 1
      if most ≥ regF s (rGry 0x10) 23 16 then modBlk t f (k / 1024) (fun k => { k with marked := true }) else t) := by
  simp only [execGranaryScrubRead, hpage, Option.some_or]

section Refresh

variable {f : FieldId} {depth b n : Nat} {k : GBlock} {rest : List (Nat × GBlock)} {s : State}
  (hmarked : (dataBlks (region s f)).filter (fun e => e.2.st == .used && e.2.marked) = (b, k) :: rest)
  (hpick : pickBlk (region s f) = some n) (hgoes : gryHeld s f = false) {s1 : State}
  (hs1 : s1 = (if (gblock (region s f) n).erased then setRegion s f { region s f with blocked := false }
    else eraseBlk (setRegion s f { region s f with blocked := false }) f n))
  {s2 : State} (hs2 : s2 = verifyDepth (incReg s1 (rGryF f 0x20) ((k.len + 16383) / 16384)) f depth)
include hmarked hpick hgoes hs1 hs2

/-- The block into which a refresh's program fails is retired, and the marked one stays (R480). -/
theorem execBlockRefresh_of_failed : execBlockRefresh f depth true s = .next (retireBlk s2 f n 2) := by
  subst hs1 hs2
  simp only [execBlockRefresh, hmarked, hpick, hgoes, Bool.true_or, Bool.false_eq_true, if_false, if_true]

/-- A marked block that no model holds is copied within the verify limit and freed, with no record. -/
theorem execBlockRefresh_of_unowned (hwithin : depth ≤ regF s (rGry 0x14) 7 0) {s3 : State}
    (hs3 : s3 = modBlk s2 f n (fun x => { x with st := .used, erased := false, len := k.len, data := k.data, reads := 0, poison := k.poison }))
    (hunowned : s3.granary.models.find? (fun m => m.done.any (fun e => e.2.1 == f.val && e.2.2.1 == b)) = none) :
    execBlockRefresh f depth false s = .next (incReg (freeBlk s3 (f.val, b)) (rGryF f 0x24)) := by
  subst hs1 hs2 hs3
  simp only [execBlockRefresh, hmarked, hpick, hgoes, gt_iff_lt, Nat.not_lt.mpr hwithin, hunowned, decide_false, Bool.or_self,
    Bool.false_eq_true, if_false]

end Refresh

theorem execBlockErase_of_free {f : FieldId} {s : State} {b : Nat} {x : GBlock}
    (hfree : (dataBlks (region s f)).find? (fun e => e.2.st == .free && !e.2.erased) = some (b, x)) (hgoes : gryHeld s f = false) :
    execBlockErase f false s = .next (eraseBlk s f b) := by
  simp only [execBlockErase, hfree, hgoes, Bool.false_eq_true, if_false]

/-! ### Held programs (R479) -/

section Held

variable {f : FieldId} {s : State} {j : ProgJob} {rest : List ProgJob} (hjobs : (region s f).jobs = j :: rest) (hheld : j.held = true)
include hjobs hheld

/-- A held job that has no block yet leaves with its verb, and the next begins. -/
theorem execProgramHoldTimeout_of_unplaced (hstays : gryHeld s f = true) (hphys : j.phys = none) :
    execProgramHoldTimeout f s = .next (progBegin (verbEnd (modRegion s f (fun r => { r with jobs := rest })) j.verb
      (if regBit s (rGryF f 0) 2 then 0x14 else 0x15)) f) := by
  simp only [execProgramHoldTimeout, hjobs, hheld, hstays, hphys, Bool.not_true, Bool.or_self, Bool.false_eq_true, if_false]

theorem execProgramResume_of_held (hgoes : gryHeld s f = false) :
    execProgramResume f s = .next (progBegin (modRegion s f (fun r => { r with jobs := { j with held := false } :: rest })) f) := by
  simp only [execProgramResume, hjobs, hheld, hgoes, Bool.not_true, Bool.or_self, Bool.false_eq_true, if_false]

end Held

/-- Settles O41. Replay takes each committal from its records, which leave none OPEN; each other clause is the branch of its command
that its hypotheses leave. -/
theorem granaryUpkeep : Obligations.GranaryUpkeep := by
  unfold Obligations.GranaryUpkeep
  refine ⟨?replay, ?closed, ?expiry, ?scrub, ?failed, ?moved, ?erase, ?timeout, ?resume⟩
  case replay =>
    rintro s _ hwaits rfl
    exact congrArg Host.Outcome.next (if_neg (by simp [hwaits]))
  case closed => exact fun s m => replayed_models
  case expiry => exact fun id s m => execCommitExpiry_of_over
  case scrub =>
    rintro f ecc most s _ _ k rfl hpage rfl
    exact execGranaryScrubRead_of_next hpage
  case failed =>
    intro f depth b n k rest s s1 hmarked hpick hgoes hs1
    exact execBlockRefresh_of_failed hmarked hpick hgoes hs1 rfl
  case moved =>
    intro f depth b n k rest s s1 s2 hmarked hpick hgoes hs1 hwithin hs2 hunowned
    exact execBlockRefresh_of_unowned hmarked hpick hgoes rfl hs1 hwithin hs2 hunowned
  case erase => exact fun f s b x => execBlockErase_of_free
  case timeout => exact fun f s j rest => execProgramHoldTimeout_of_unplaced
  case resume => exact fun f s j rest => execProgramResume_of_held

end Sys2Proof.Machine
end

section
/-!
PROOFS. The bins and the crib slots: the patrol, window and allocation writes, and the slot that is forgotten.
-/
namespace Sys2Proof.Machine

/-! ### The patrol of a bin (R493, R497) -/

@[simp] theorem binSt_setBin_same (s : State) (b : Nat) (x : BinSt) : binSt (setBin s b x) b = x := mapGet_set_same _ _ _ _

@[simp] theorem binSt_incReg (s : State) (l : RegLoc) (n b : Nat) : binSt (incReg s l n) b = binSt s b := rfl

/-- A line without poison whose first decode corrects it is counted, and nothing else happens (R493). -/
theorem binLineRead_of_corrected {fs : EccFinds} {b line : Nat} {s : State} (cause : Nat)
    (hpoison : (binSt s b).poison.contains line = false) (hfinding : finding fs line = .corrected) :
    binLineRead fs cause b s line = incReg s (rBin b 0x14) := by
  simp only [binLineRead, hpoison, hfinding, Bool.false_eq_true, if_false]

/-- The patrol moves past a corrected line, which it counts and keeps for the write-back (R497). -/
theorem execBinPatrolRead_of_corrected {b : BinId} {s : State} (hon : regBit s (rBin b 0) 0 = true)
    (hpoison : (binSt s b).poison.contains (binSt s b).cursor = false) :
    execBinPatrolRead b .corrected .ok s = .next (
      let x : BinSt := { binSt s b with cursor := ((binSt s b).cursor + 1) % 2 ^ 30 }
      setBin (incReg (setBin s b x) (rBin b 0x14)) b { x with fix := some (binSt s b).cursor }) := by
  have hread := binLineRead_of_corrected (s := setBin s b { binSt s b with cursor := ((binSt s b).cursor + 1) % 2 ^ 30 })
    (fs := [((binSt s b).cursor, .corrected), ((binSt s b).cursor + 2 ^ 30, .ok)]) 2 (by rwa [binSt_setBin_same]) (by simp [finding])
  simp only [execBinPatrolRead, hon, hpoison, hread, binSt_incReg, binSt_setBin_same, decide_true, Bool.true_or, Bool.not_true,
    Bool.not_false, Bool.and_self, Bool.false_eq_true, if_false, if_true]

/-! ### A slot that is forgotten (R508) -/

/-- Registers of the crib block at different offsets are different, whatever their selectors (R519). -/
theorem regKey_rCrb_ne {a b : Nat} (x y : Nat) (ha : a < 2 ^ 12) (hb : b < 2 ^ 12) (h : a ≠ b) :
    regKey (rCrb a x) ≠ regKey (rCrb b y) := by
  simp only [regKey, regAddr, rCrb, rModule]
  omega

/-- Clearing the allocations of a slot leaves the registers at other offsets. -/
theorem reg_clearAllocs (s : State) (slot : Nat) (l : List Nat) {a : Nat} (x : Nat) (ha : a < 2 ^ 12) (h : a ≠ 0x20) :
    reg (l.foldl (fun s k => setReg s (rAlloc slot k) 0) s) (rCrb a x) = reg s (rCrb a x) :=
  foldl_keeps (fun t => reg t (rCrb a x) = reg s (rCrb a x)) _
    (fun _ _ ht => (reg_setReg_other _ _ (regKey_rCrb_ne _ _ ha (by decide) h)).trans ht) l s rfl

/-- FORGET leaves a LOST slot EMPTY, with no allocation in force. -/
theorem execCribSlotForget_of_lost {ini : Initiator} {v : Word} {slot : Nat} {s : State} (hmay : mayWrite s ini (rCrb 0x18) = true)
    (hslot : slot = regF s (rCrb 8) 2 0) (hforget : bit v 0 = true) (hlost : cribState s slot = 2) :
    ∃ t, execCribSlotForget ini v s = .next t ∧ cribState t slot = 0 ∧ mapFind t.cribs slot = none := by
  subst hslot
  refine ⟨_, congrArg Host.Outcome.next ((regCommand_of_may _ hmay).trans (if_pos ?asked)), ?empty, mapFind_erase_same _ _⟩
  case asked => rw [hforget, hlost]; rfl
  case empty =>
    refine (congrArg (fun w => bits w 31 30) (?cleared : _ = (0 : Word))).trans (by decide)
    refine (reg_of_regs (by rfl) _).trans ((reg_clearAllocs _ _ _ _ (by decide) (by decide)).trans ?_)
    rw [reg_setReg_other _ _ (regKey_rCrb_ne _ _ (by decide) (by decide) (by decide)),
      reg_setReg_other _ _ (regKey_rCrb_ne _ _ (by decide) (by decide) (by decide)), reg_setReg_same]

/-- Settles O33. A window and an allocation write are one register command whose test is the statement's; each other clause is the
branch of its command that its hypotheses leave. -/
theorem binsAndAllocations : Obligations.BinsAndAllocations := by
  unfold Obligations.BinsAndAllocations
  refine ⟨?filled, ?fault, ?patrol, ?writeback, ?window, ?allocation, ?forget⟩
  case filled =>
    intro b s hfilling hsound
    exact congrArg Host.Outcome.next (if_neg (by simp [hfilling, hsound]))
  case fault =>
    intro b s hsound
    exact congrArg Host.Outcome.next (if_neg (by simp [hsound]))
  case patrol =>
    intro b s hon hpoison
    exact ⟨_, execBinPatrolRead_of_corrected hon hpoison, by simp, by simp⟩
  case writeback =>
    intro b s n hfix
    show execBinPatrolWriteback b s = _
    simp only [execBinPatrolWriteback, hfix]
  case window =>
    rintro ini b v _ _ s hmay rfl rfl
    refine congrArg Host.Outcome.next ((regCommand_of_may _ hmay).trans ?_)
    simp only [Bool.and_eq_true, Bool.or_eq_true, decide_eq_true_eq, gt_iff_lt]
  case allocation =>
    rintro ini v _ _ _ s hmay rfl rfl rfl
    refine congrArg Host.Outcome.next ((regCommand_of_may _ hmay).trans ?_)
    simp only [Bool.and_eq_true, Bool.or_eq_true, decide_eq_true_eq, gt_iff_lt]
  case forget => exact fun ini v slot s => execCribSlotForget_of_lost

end Sys2Proof.Machine
end

section
/-!
PROOFS. The Draught links: frames, the crib transactions they carry, and the transaction without an answer.
-/
namespace Sys2Proof.Machine

/-! ### Frames of a link that is UP (R594, R596) -/

section Frames

variable {port : DieId} {link : Fin 4} {head : FrameHead} {s : State} (hup : linkUp s port link = true)
include hup

/-- A data frame with the SEQ after the last one's is taken; below the 64th without an acknowledgement none is sent. -/
theorem execDataFrame_of_next {txns : List Txn} {s1 : State} {x : Link} {n : Nat} (htag : head.tagOk = true)
    (hs1 : s1 = headTake s port link head) (hx : x = lk s1 port link) (hn : n = x.rxSeq.elim 0 (fun n => (n + 1) % 2 ^ 24))
    (hseq : head.seq.toNat = n) (hfew : x.unacked < 63) :
    execDataFrame port link head txns s = .next (incReg (setLk s1 port link
      { x with rxSeq := some n, rejects := 0, arrived := x.arrived ++ txns, unacked := x.unacked + 1 }) (rDrt port 0x28 link)) := by
  subst hs1 hx
  have hwait : ¬ (lk (headTake s port link head) port link).unacked + 1 ≥ 64 := by omega
  cases hlast : (lk (headTake s port link head) port link).rxSeq with
  | none | some m =>
    simp only [hlast, Option.elim_none, Option.elim_some] at hn
    simp only [execDataFrame, hup, htag, hlast, hseq, hn, hwait, Bool.not_true, ne_eq, not_true_eq_false,
      Bool.false_eq_true, if_false]

theorem execDataFrame_of_badTag (txns : List Txn) (htag : head.tagOk = false) :
    execDataFrame port link head txns s = .next (frameReject (incReg s (rDrt port 0x2C link)) port link) := by
  simp only [execDataFrame, hup, htag, Bool.not_true, Bool.not_false, Bool.false_eq_true, if_false, if_true]

theorem execIdleFrame_of_tagOk (htag : head.tagOk = true) :
    execIdleFrame port link head s = .next (incReg (headTake s port link head) (rDrt port 0x28 link)) := by
  simp only [execIdleFrame, hup, htag, Bool.not_true, Bool.false_eq_true, if_false]

theorem execRekey_of_due (hdue : 2 ^ 40 ≤ (lk s port link).frames) :
    execRekey port link s = .next (setLk s port link { lk s port link with phase := !(lk s port link).phase, frames := 0 }) :=
  congrArg Host.Outcome.next (if_pos (Bool.and_eq_true_iff.mpr ⟨hup, decide_eq_true hdue⟩))

/-- A notice of the crib in a slot tells the line it found uncorrectable (R509). -/
theorem execDraughtNotice_of_slot {k : Nat} (x : Txn) (hslot : linkSlot s port link = some k) :
    execDraughtNotice port link x s = .next (cribTell (txnTake s port link x) k x.addr.toNat 2) := by
  simp only [execDraughtNotice, hup, hslot, Bool.not_true, Bool.false_eq_true, if_false]

end Frames

/-! ### A crib's transaction without an answer (R506) -/

section Timeout

variable {tag : BitVec 32} {s : State} {x : CribTx} (hfind : s.cribTx.find? (fun x => x.tag == tag.toNat) = some x)
include hfind

theorem execCribTimeout_of_triesLeft (hleft : x.tries < regF s (rCrb 0) 15 12) :
    execCribTimeout tag s = .next (
      let y := { x with tries := x.tries + 1 }
      cribSend (incReg { s with cribTx := s.cribTx.map (fun z => if z = x then y else z) } (rCrb 0x2C x.slot)) y) := by
  simp only [execCribTimeout, hfind, hleft, if_true]

theorem execCribTimeout_of_tried (hspent : regF s (rCrb 0) 15 12 ≤ x.tries) :
    execCribTimeout tag s = .next (
      if regBit s (rCrb 0xC x.slot) 29 = true ∧ regBit s (rCrb 0xC x.slot) 22 = false then slotMove s x.slot true else slotLost s x.slot) := by
  simp only [execCribTimeout, hfind, Nat.not_lt.mpr hspent, Bool.and_eq_true, Bool.not_eq_true', if_false]

end Timeout

/-- Settles O43. The timers and a crib's answers are their definitions; each other clause is the branch of its command that its
hypotheses leave. -/
theorem linkFrames : Obligations.LinkFrames := by
  unfold Obligations.LinkFrames
  refine ⟨?data, ?badTag, ?idle, ?timers, ?rekey, ?absent, ?answers, ?notice, ?again, ?spent⟩
  case data =>
    intro port link head txns s s1 x n hup htag hs1 hx hn
    have hnext : n = x.rxSeq.elim 0 (fun n => (n + 1) % 2 ^ 24) := by
      rw [hn]
      cases x.rxSeq with
      | none | some m => rfl
    exact execDataFrame_of_next hup htag hs1 hx hnext
  case badTag => exact fun port link head txns s hup => execDataFrame_of_badTag hup txns
  case idle => exact fun port link head s => execIdleFrame_of_tagOk
  case timers => exact fun port link s => ⟨rfl, rfl⟩
  case rekey => exact fun port link s => execRekey_of_due
  case absent =>
    intro port link x s hup
    have hstays : ¬ (!linkUp s port link) = true := by simp [hup]
    exact ⟨congrArg Host.Outcome.next (if_neg hstays), congrArg Host.Outcome.next (if_neg hstays)⟩
  case answers => exact fun port link x s => ⟨rfl, rfl⟩
  case notice => exact fun port link x s k hup => execDraughtNotice_of_slot hup x
  case again =>
    rintro tag s x _ hfind hleft rfl
    exact execCribTimeout_of_triesLeft hfind hleft
  case spent => exact fun tag s x => execCribTimeout_of_tried

end Sys2Proof.Machine
end

section
/-!
PROOFS. The step: the command at the front of the queue.
-/
namespace Sys2Proof.Machine

/-- Settles O1. The step looks at the queue alone. -/
theorem stepRunsFront : Obligations.StepRunsFront := by
  unfold Obligations.StepRunsFront
  intro c s rest hfront
  simp only [step, hfront]

end Sys2Proof.Machine
end

section
/-!
PROOFS. The host: doorbells, fetches, the transfers of its verbs, completions, event records, interrupts and ports.
-/
namespace Sys2Proof.Machine

/-! ### Commands of a ring (R576, R578, R579) -/

section Ring

variable {s : State} {fn : FnId} {ring : Fin 8}

theorem execDoorbell_of_inside {tail : BitVec 16} (hin : tail.toNat < ringSize s fn ring) :
    execDoorbell fn ring tail s =
      .next (setHost s { s.host with tails := mapSet 0 s.host.tails (8 * fn.val + ring.val) tail.toNat }) :=
  congrArg Host.Outcome.next (if_neg (Nat.not_le.mpr hin))

/-- A fetched command that is well formed waits as a verb behind the others, and the head moves past it. -/
theorem execCommandFetch_of_wellFormed {c : BitVec 512} {head : Nat} {v : Verb} (hon : regBit s (rHst fn 0xC ring) 31 = true)
    (hup : portUp s (ringPort s fn ring) = true) (hhead : head = regF s (rHst fn 0x20 ring) 15 0)
    (hmore : head ≠ mapGet 0 s.host.tails (8 * fn.val + ring.val))
    (hroom : (s.host.verbs.filter (fun v => v.fn == fn.val && v.ring == ring.val)).length < 64)
    (hv : v = mkVerb s.host.nextId fn ring c) (hgood : verbBad v c = none) :
    execCommandFetch fn ring (some c) s = .next (
      let t := setRegF s (rHst fn 0x20 ring) 15 0 ((head + 1) % ringSize s fn ring)
      setHost t { t.host with verbs := t.host.verbs ++ [v], nextId := t.host.nextId + 1 }) := by
  subst hhead hv
  have fetches : decide ((s.host.verbs.filter (fun v => v.fn == fn.val && v.ring == ring.val)).length ≥ 64) = false :=
    decide_eq_false (Nat.not_le.mpr hroom)
  simp only [execCommandFetch, hon, hup, beq_eq_false_iff_ne.mpr hmore, fetches, hgood, Bool.not_true, Bool.or_self,
    Bool.false_eq_true, if_false]

/-- A completion that asks for no interrupt is written to the slot of an UP ring that has room, short of the ring's end. -/
theorem execCompletionWrite_of_room {c : Cpl} {tail : Nat}
    (hc : s.host.cpls.find? (fun c => c.fn == fn.val && c.ring == ring.val) = some c) (htail : tail = regF s (rHst fn 0x24 ring) 15 0)
    (hon : regBit s (rHst fn 0xC ring) 31 = true) (hup : portUp s (ringPort s fn ring) = true) (hirq : c.irq = false)
    (hend : tail + 1 < ringSize s fn ring) (hroom : tail + 1 ≠ regF s (rHst fn 0x28 ring) 15 0 % ringSize s fn ring) :
    execCompletionWrite fn ring true s = .next (setRegF
      (hostSend (setHost s { s.host with cpls := s.host.cpls.erase c }) (.write (ringPort s fn ring)
        (hostBase s (rHst fn 0x18 ring) (rHst fn 0x1C ring) 32 + 32 * tail)
        (cplRows c (!mapGet false s.host.passes (8 * fn.val + ring.val)) (regF s (rHst fn 0x20 ring) 15 0))))
      (rHst fn 0x24 ring) 15 0 (tail + 1)) := by
  subst htail
  simp only [execCompletionWrite, hc, hon, hup, hirq, Nat.mod_eq_of_lt hend, beq_eq_false_iff_ne.mpr hroom, ge_iff_le, Nat.not_le.mpr hend,
    Bool.not_true, Bool.or_self, Bool.false_eq_true, if_false]

end Ring

/-! ### Data verbs (R582, R583) -/

section Transfer

variable {s : State} {fn : FnId} {ring : Fin 8} {v : Verb}

theorem execDmaToDevice_of_sound (rows : List (BitVec 128)) (h : verbReady s fn ring 1 v = true)
    (hgood : dmaBad (started s v) (begun v) false = false) :
    execDmaToDevice fn ring rows s = .next (dmaVerbCheck (dmaSend (begun v) (some rows) (started s v)
      (packetsOf (dmaAddr (begun v)) (dmaLen (begun v) / 16))) (begun v).id) := by
  refine congrArg Host.Outcome.next ((verbStart_of_ready _ h).trans ?_)
  simp only [hgood, Bool.false_eq_true, if_false]

/-- With no host row that fails, the whole length may be written. -/
theorem execDmaToHost_of_sound (h : verbReady s fn ring 2 v = true) (hgoes : dmaWaits s fn ring = false)
    (hgood : dmaBad (started s v) (begun v) true = false) :
    execDmaToHost fn ring none s = .next (dmaVerbCheck (dmaSend (begun v) none
      (modVerb (started s v) (begun v).id (fun x => { x with aux := dmaLen (begun v) }))
      (packetsOf (dmaAddr (begun v)) (dmaLen (begun v) / 16))) (begun v).id) := by
  refine congrArg Host.Outcome.next ((if_neg (by simp [hgoes])).trans ((verbStart_of_ready _ h).trans ?_))
  simp only [hgood, Bool.false_eq_true, if_false]

end Transfer

/-! ### Event records, interrupts, ports (R586, R587, R589) -/

theorem execEventRecordWrite_of_held {s : State} {fn : FnId} {q : EvQueue} {e : EventRec} {rest : List EventRec} (ok : Bool)
    (hready : evtReady s fn = true) (hq : q = mapGet {} s.evq fn) (hlost : q.lost.toList.any (· != 0) = false)
    (hheld : q.held = e :: rest) :
    execEventRecordWrite fn ok s = .next (evtPut { s with evq := mapSet {} s.evq fn { q with held := rest } } fn e ok) := by
  subst hq
  simp only [execEventRecordWrite, hready, hlost, hheld, Bool.not_true, Bool.false_eq_true, if_false]

theorem execMsixGapExpiry_of_gap {s : State} {fn : FnId} {vec : Fin 16} {q : IrqSt}
    (hq : q = mapGet {} s.host.irqs (16 * fn.val + vec.val)) (hgap : q.gap = true) :
    execMsixGapExpiry fn vec s = .next (
      let t := setHost s { s.host with irqs := mapErase s.host.irqs (16 * fn.val + vec.val) }
      if q.pend then signal t q.port fn vec false else t) := by
  subst hq
  simp only [execMsixGapExpiry, hgap, Bool.not_true, Bool.false_eq_true, if_false]

theorem execHostPortDown_of_up {s : State} {port : HostPort} (hup : portUp s port = true) :
    execHostPortDown port false s = .next (hostDown (setRegF s (rPortSt port) 31 31 0) port 1) :=
  congrArg Host.Outcome.next (if_pos hup)

/-- Settles O35. A ready verb takes its effect in the state in which it has started; the resets and the link that comes up are their
definitions; each other clause is the branch of its command that its hypotheses leave. -/
theorem hostCommands : Obligations.HostCommands := by
  unfold Obligations.HostCommands
  refine ⟨?doorbell, ?fetch, ?nop, ?toDevice, ?toHost, ?completion, ?record, ?gap, ?flr, ?vfs, ?down, ?up⟩
  case doorbell => exact fun fn ring tail s => execDoorbell_of_inside
  case fetch =>
    intro fn ring c s head v hon hup hhead hmore hroom hv hgood
    exact ⟨_, execCommandFetch_of_wellFormed hon hup hhead hmore hroom hv hgood, rfl, rfl⟩
  case nop =>
    intro fn ring s v h
    exact congrArg Host.Outcome.next (verbStart_of_ready _ h)
  case toDevice =>
    rintro fn ring rows s _ v _ h rfl rfl hgood
    exact execDmaToDevice_of_sound rows h hgood
  case toHost =>
    rintro fn ring s _ v _ h rfl rfl hgoes hgood
    exact execDmaToHost_of_sound h hgoes hgood
  case completion => exact fun fn ring s c tail => execCompletionWrite_of_room
  case record => exact fun fn ok s q e rest => execEventRecordWrite_of_held ok
  case gap =>
    rintro fn vec s _ q hq hgap rfl
    exact execMsixGapExpiry_of_gap hq hgap
  case flr => exact fun fn s => rfl
  case vfs => exact fun port s => rfl
  case down => exact fun port s => execHostPortDown_of_up
  case up => exact fun port speed width flit n s => rfl

end Sys2Proof.Machine
end

section
/-!
PROOFS. Sends between modules, and the roles of the links that carry them.
-/
namespace Sys2Proof.Machine

/-! ### Sends (R606, R607) -/

/-- The next descriptor of a send ring that has none in hand, without a fault, asks for its rows. -/
theorem execSendDescStart_of_sound {port : DieId} {ring : Fin 8} {ecc : EccFinds} {s s1 : State} {sh i d : Nat} {q : SendRun}
    (hcode : sheafCodeOk (regF s (rDrt port 0x88 ring) 13 0) = true) (hon : regBit s (rDrt port 0x88 ring) 31 = true)
    (hi : i = regF s (rDrt port 0x8C ring) 15 0 % sendSize s port ring)
    (hmore : i ≠ regF s (rDrt port 0x90 ring) 15 0 % sendSize s port ring)
    (hfree : s.sends.any (fun q => q.die == port.val && q.ring == ring.val) = false)
    (hsh : sh = sheafOfCode (regF s (rDrt port 0x88 ring) 13 0)) (hread : bmemRead s sh (sendSlot s port ring i) 32 ecc 5 = (d, s1))
    (hq : q = { id := s.nextTag, die := port, ring := ring, index := i, sh := sh, row0 := BitVec.ofNat 128 d
                row1 := BitVec.ofNat 128 (d / 2 ^ 128) })
    (hclean : bmemPoisoned s1 sh (sendSlot s port ring i) 32 = false) (hregion : nbits (sdSrc q) 47 44 ≤ 2) (hrow : sdSrc q % 16 = 0) :
    execSendDescStart port ring ecc s = .next ((packetsOf (sdSrc q) (sdRows q)).foldl (sendReads q.id)
      { s1 with nextTag := s1.nextTag + 1, sends := s1.sends ++ [q] }) := by
  subst hi hsh hq
  simp only [execSendDescStart, hon, hcode, beq_eq_false_iff_ne.mpr hmore, hfree, hread, hclean, gt_iff_lt, Nat.not_lt.mpr hregion, hrow,
    decide_false, bne_self_eq_false, Bool.not_true, Bool.or_self, Bool.false_eq_true, if_false]

section Arrivals

variable {port : DieId} {link : Fin 4} {s : State} {x : Txn} (hup : linkUp s port link = true)
include hup

theorem execSendTxn_of_own (rick : Option (BitVec 128 × BitVec 128)) (hown : posOwn s x.dest.toNat = true) :
    execSendTxn port link x rick s = .next (sendArrive (txnTake s port link x) port link x rick) := by
  simp only [execSendTxn, hup, hown, Bool.not_true, Bool.false_eq_true, if_false, if_true]

theorem execSendTxn_of_relayed {p l : Nat} (rick : Option (BitVec 128 × BitVec 128)) (hown : posOwn s x.dest.toNat = false)
    (hheld : posHeld s x.dest.toNat = true) (hhop : nextHop s x.dest.toNat = some (p, l)) :
    execSendTxn port link x rick s = .next (
      let t := txnTake s port link x
      txnSend { t with relays := t.relays ++ [(4 * p + l, x)] } p l x) := by
  simp only [execSendTxn, hup, hown, hheld, hhop, Bool.not_true, Bool.false_eq_true, if_false]

theorem execSendAck_of_own (hown : posOwn s x.dest.toNat = true) :
    execSendAck port link x s = .next (tagAnswer (txnTake s port link x) x.tag.toNat x.status.toNat) := by
  simp only [execSendAck, hup, hown, Bool.not_true, Bool.false_eq_true, if_false, if_true]

end Arrivals

/-! ### Link roles (R609, R610) -/

/-- LINK_ROLE asks the other end of an UP link to a module for a role that this end does not hold as wanted. -/
theorem execLinkRole_of_asked {fn : FnId} {ring : Fin 8} {s : State} {v : Verb} {p l : Nat} (h : ownerReady s fn ring 0x30 v = true)
    (hp : p = bits v.op0 2 0) (hl : l = bits v.op0 4 3) (hport : p ≤ 5) (hidle : (lk s p l).ask = none)
    (hup : linkUp (started s v) p l = true) (hmodule : linkCrib (started s v) p l = false)
    (hrole : (if !bit v.op0 5 then cadUp (started s v) p l else isCoord (started s v)) = !bit v.op0 6) :
    execLinkRole fn ring s = .next (
      roleSend (setAsk (started s v) p l (some ⟨v.id, !bit v.op0 5, bit v.op0 6, 0, 0, false, false, false⟩)) p l) := by
  have hnext : verbNext s fn ring 0x30 = some v := verbNext_of_ready (Bool.and_eq_true_iff.mp h).1
  have hchange : ¬ (if !bit v.op0 5 then cadUp (started s v) p l else isCoord (started s v)) = bit v.op0 6 :=
    fun e => Bool.not_ne_self _ (hrole.symm.trans e)
  subst hp hl
  simp only [execLinkRole, hnext, hidle, Option.isSome_none, Bool.and_false, Bool.false_eq_true, if_false, ownerVerb_of_ready _ h, begun_op0,
    gt_iff_lt, Nat.not_lt.mpr hport, hup, hmodule, Bool.not_true, Bool.or_self]
  exact congrArg Host.Outcome.next (if_neg hchange)

section Rounds

variable {port : DieId} {link : Fin 4} {s : State}

theorem execRoleReq_of_idle (round : Nat) (cadence want : Bool) (hup : linkUp s port link = true) (hidle : (lk s port link).ask = none) :
    execRoleReq port link round cadence want s = .next (roleGive s port link round cadence want) := by
  simp only [execRoleReq, hup, hidle, Bool.not_true, Bool.false_eq_true, if_false]

variable {a : RoleAsk} (hask : (lk s port link).ask = some a)
include hask

theorem execRoleAck_of_current (hup : linkUp s port link = true) (hstands : a.withdrawn = false) :
    execRoleAck port link a.round s = .next (setAsk s port link (some { a with accepted := true })) := by
  simp [execRoleAck, hask, hup, hstands]

theorem execRoleNak_of_current (hup : linkUp s port link = true) (hstands : a.withdrawn = false) (hopen : a.accepted = false) :
    execRoleNak port link a.round s = .next (verbEnd (setAsk s port link none) a.verb 0x33) := by
  simp [execRoleNak, hask, hup, hstands, hopen]

theorem execRoleRoundTimeout_of_open (hopen : a.accepted = false) :
    execRoleRoundTimeout port link s = .next (roleRoundFail s port link a) := by
  simp only [execRoleRoundTimeout, hask, hopen, Bool.false_eq_true, if_false]

end Rounds

/-- Settles O36. Each clause is the branch of its command that its hypotheses leave. -/
theorem sendsAndRoles : Obligations.SendsAndRoles := by
  unfold Obligations.SendsAndRoles
  refine ⟨?start, ?own, ?relay, ?ack, ?role, ?req, ?accepted, ?refused, ?timeout⟩
  case start =>
    rintro port ring ecc s s1 _ sh i d q hcode hon hi hmore hfree hsh hread hq rfl hclean hregion hrow
    exact execSendDescStart_of_sound hcode hon hi hmore hfree hsh hread hq hclean hregion hrow
  case own => exact fun port link x rick s hup => execSendTxn_of_own hup rick
  case relay =>
    rintro port link x rick s _ p l hup hown hheld hhop rfl
    exact execSendTxn_of_relayed hup rick hown hheld hhop
  case ack => exact fun port link x s => execSendAck_of_own
  case role =>
    rintro fn ring s _ v _ p l _ h rfl rfl hp hl hport hidle hup hmodule rfl hrole
    exact execLinkRole_of_asked h hp hl hport hidle hup hmodule hrole
  case req => exact fun port link round cadence want s => execRoleReq_of_idle round cadence want
  case accepted => exact fun port link s a => execRoleAck_of_current
  case refused => exact fun port link s a => execRoleNak_of_current
  case timeout => exact fun port link s a => execRoleRoundTimeout_of_open

end Sys2Proof.Machine
end

section
/-!
PROOFS. The Draught links: training, identity, key agreement, and the loss of a link.
-/
namespace Sys2Proof.Machine

/-! ### What setting a link UP and ending its verbs leave in its register (R599) -/

/-- A write of a field leaves each bit below it. -/
theorem getLsbD_setBits_below (x : Word) {hi lo v i : Nat} (h : i < lo) : (setBits x hi lo v).getLsbD i = x.getLsbD i := by
  have below : ∀ n : Nat, (BitVec.ofNat 32 (n * 2 ^ lo)).getLsbD i = false := fun n => by
    simp [BitVec.getLsbD_ofNat, Nat.testBit_mul_two_pow, Nat.not_le.mpr h]
  simp only [setBits, BitVec.getLsbD_or, BitVec.getLsbD_and, BitVec.getLsbD_not, below, Bool.not_false, Bool.and_true, Bool.and_false,
    Bool.or_false]
  exact Bool.and_eq_left_iff_imp.mpr (fun hx => decide_eq_true (BitVec.lt_of_getLsbD hx))

theorem bits_setBits_below (x : Word) {hi lo v a b : Nat} (h : a < lo) : bits (setBits x hi lo v) a b = bits x a b := by
  apply Nat.eq_of_testBit_eq
  intro i
  simp only [bits, nbits, Nat.testBit_mod_two_pow, Nat.testBit_div_two_pow, BitVec.testBit_toNat]
  by_cases hi' : i + b < lo
  · rw [getLsbD_setBits_below x hi']
  · simp [show ¬ i < a + 1 - b by omega]

theorem reg_verbEnd (s : State) (id status data : Nat) (l : RegLoc) : reg (verbEnd s id status data) l = reg s l := by
  unfold verbEnd verbDone
  split
  · rfl
  · dsimp only
    split
    · rfl
    · rfl

theorem reg_foldl_verbEnd (ids : List Nat) (status : Nat) (s : State) (l : RegLoc) :
    reg (ids.foldl (fun s v => verbEnd s v status) s) l = reg s l :=
  foldl_keeps (fun t => reg t l = reg s l) _ (fun t v ht => (reg_verbEnd t v status 0 l).trans ht) ids s rfl

/-- The state of a link stands above the count of its lanes. -/
theorem regF_setLinkSt_lanes (s : State) (p l v : Nat) : regF (setLinkSt s p l v) (rDrt p 8 l) 27 23 = regF s (rDrt p 8 l) 27 23 := by
  rw [setLinkSt, setRegF, regF, reg_setReg_same, bits_setBits_below _ (by decide), regF]

/-! ### Training (R592, R599, R600) -/

section Training

variable {port : DieId} {link : Fin 4} {s : State}

section Signal

variable {lane : Fin 16} (hon : regBit s (rDrt port 0) 31 = true) (hlane : laneLink s port lane = link.val)
include hon hlane

theorem execLaneSignal_of_refused (hst : linkSt s port link = 4) :
    execLaneSignal port link lane s = .next (setLinkSt (setLk s port link { signal := 2 ^ lane.val }) port link 1) := by
  simp only [execLaneSignal, hon, hlane, hst, bne_self_eq_false, Bool.not_true, Bool.or_self, Bool.false_eq_true, if_false, if_true]

theorem execLaneSignal_of_kept (hst : linkSt s port link ≠ 4) :
    execLaneSignal port link lane s = .next (
      let t := setLk s port link { lk s port link with signal := (lk s port link).signal ||| 2 ^ lane.val }
      if linkSt s port link = 0 then setLinkSt t port link 1 else t) := by
  simp only [execLaneSignal, hon, hlane, hst, bne_self_eq_false, Bool.not_true, Bool.or_self, Bool.false_eq_true, if_false]

end Signal

/-- A lane in use, but not the last, is lost. -/
theorem execLaneDrop_of_used {lane : Fin 16} {m : Nat} (hm : m = regF s (rDrt port 0x18 link) 15 0) (hused : m / 2 ^ lane.val % 2 = 1)
    (hmore : m ≠ 2 ^ lane.val) : execLaneDrop port link lane s = .next (setLanes s port link (m - 2 ^ lane.val)) := by
  subst hm
  have hpos : 0 < 2 ^ lane.val := Nat.two_pow_pos _
  have hle : 2 ^ lane.val ≤ regF s (rDrt port 0x18 link) 15 0 := by
    by_contra hlt
    rw [Nat.div_eq_of_lt (Nat.lt_of_not_le hlt)] at hused
    exact absurd hused (by decide)
  have hfewer : ¬ regF s (rDrt port 0x18 link) 15 0 - 2 ^ lane.val = regF s (rDrt port 0x18 link) 15 0 := by omega
  have hsome : ¬ regF s (rDrt port 0x18 link) 15 0 - 2 ^ lane.val = 0 := by omega
  simp only [execLaneDrop, hused, if_true, hfewer, hsome, if_false]

theorem execTrainFrame_of_common {lanes : BitVec 16} {m : Nat} (hm : m = (lanes &&& BitVec.ofNat 16 (lk s port link).signal).toNat)
    (hst : linkSt s port link = 1) (hsome : m ≠ 0) :
    execTrainFrame port link lanes s = .next (setLinkSt (setLanes s port link m) port link 2) := by
  subst hm
  exact congrArg Host.Outcome.next (if_neg (not_or.mpr ⟨not_not_intro hst, hsome⟩))

/-- The identity of a module whose role agrees with this end's: this end takes the role its register asks for. -/
theorem execIdent_of_agreed {id : Ident} (hst : linkSt s port link = 2) (hmodule : id.crib = false) (hgood : identRefuse s id = none)
    (hrole : regBit s (rDrt port 0x14 link) 0 = !id.cadUp) :
    execIdent port link id s = .next (
      let t := setReg (setReg s (rDrt port 0xC link) (word (id.serial.toNat % 2 ^ 32))) (rDrt port 0x10 link) (word (id.serial.toNat / 2 ^ 32))
      setRegF (setLk
        (setRegF (setRegF (setRegF t (rDrt port 8 link) 28 28 0) (rDrt port 8 link) 15 13 id.port.toNat) (rDrt port 8 link) 12 11 id.link.toNat)
        port link { lk s port link with peer := some id, credReq := id.creditReq, credRsp := id.creditRsp })
        (rDrt port 8 link) 18 18 (bnat (!id.cadUp))) := by
  simp only [execIdent, hst, hmodule, hgood, hrole, Bool.not_eq_self, ne_eq, not_true_eq_false, Bool.false_eq_true, if_false]
  rfl

/-- The confirmed key makes the link to a module UP: the verbs that asked for the training end, and the Rick has changed. -/
theorem execKeyAgreementConfirm_of_module {id : Ident} {s1 : State} (hpeer : (lk s port link).peer = some id)
    (hst : linkSt s port link = 2) (hmodule : id.crib = false)
    (hs1 : s1 = (lk s port link).retrain.foldl (fun s v => verbEnd s v 0)
      (setLinkSt (setLk s port link { lk s port link with tries := 0, retrain := [] }) port link 3)) :
    execKeyAgreementConfirm port link s = .next (rickChanged (raise s1 .linkUp none 5 (0x18 + port)
      [(3, port), (2, link), (4, 1), (64, id.serial.toNat), (5, regF s1 (rDrt port 8 link) 27 23)])) := by
  have lanes : regF s1 (rDrt port 8 link) 27 23 = regF s (rDrt port 8 link) 27 23 := by
    rw [regF, hs1, reg_foldl_verbEnd]
    exact regF_setLinkSt_lanes _ _ _ _
  rw [lanes, hs1]
  simp only [execKeyAgreementConfirm, hpeer, hst, hmodule, ne_eq, not_true_eq_false, Bool.false_eq_true, if_false]
  rfl

/-! ### Failed steps and retraining (R599) -/

theorem execLinkTrainTimeout_of_triesLeft (hst : linkSt s port link = 1 ∨ linkSt s port link = 2) (hleft : (lk s port link).tries < 2) :
    execLinkTrainTimeout port link s = .next (setLinkSt (setLk
      (if cribMet (lk s port link) then cribGone s port (peerSerial s port link) else s) port link
      { lk s port link with tries := (lk s port link).tries + 1, signal := 0, peer := none }) port link 1) := by
  have trains : ¬ (linkSt s port link ≠ 1 ∧ linkSt s port link ≠ 2) := fun ⟨h1, h2⟩ => hst.elim h1 h2
  have again : (lk s port link).tries + 1 < 3 := Nat.succ_lt_succ hleft
  simp only [execLinkTrainTimeout, trains, again, if_false, if_true]

theorem execLinkRetrain_of_port {fn : FnId} {ring : Fin 8} {v : Verb} {p l : Nat} (h : ownerReady s fn ring 0x33 v = true)
    (hp : p = bits (begun v).op0 2 0) (hl : l = bits (begun v).op0 4 3) (hport : p ≤ 5) :
    execLinkRetrain fn ring s = .next (
      let t := linkDown (started s v) p l 3
      setLinkSt (setLk t p l { lk t p l with retrain := (lk t p l).retrain ++ [(begun v).id], tries := 0 }) p l 1) := by
  subst hp hl
  exact congrArg Host.Outcome.next ((ownerVerb_of_ready _ h).trans (if_neg (Nat.not_lt.mpr hport)))

end Training

/-- Settles O42. Each clause is the branch of its command that its hypotheses leave; the lanes that LINK_UP tells are those the link had,
for neither its new state nor the verbs that end touch them. -/
theorem linkBringUp : Obligations.LinkBringUp := by
  unfold Obligations.LinkBringUp
  refine ⟨?refused, ?signal, ?drop, ?train, ?ident, ?confirm, ?timeout, ?retry, ?silence, ?retrain⟩
  case refused => exact fun port link lane s => execLaneSignal_of_refused
  case signal =>
    rintro port link lane s _ hon hlane hst rfl
    exact execLaneSignal_of_kept hon hlane hst
  case drop => exact fun port link lane s m => execLaneDrop_of_used
  case train => exact fun port link lanes s m => execTrainFrame_of_common
  case ident =>
    rintro port link id s _ hst hmodule hgood hrole rfl
    exact execIdent_of_agreed hst hmodule hgood hrole
  case confirm => exact fun port link id s s1 => execKeyAgreementConfirm_of_module
  case timeout => exact fun port link s => execLinkTrainTimeout_of_triesLeft
  case retry => exact fun port link s hst => congrArg Host.Outcome.next (if_pos hst)
  case silence => exact fun port link s hup => congrArg Host.Outcome.next (if_pos hup)
  case retrain =>
    rintro fn ring s _ _ v _ p l h rfl rfl hp hl hport rfl
    exact execLinkRetrain_of_port h hp hl hport

end Sys2Proof.Machine
end

section
/-!
PROOFS. The Rick: its records, its topology and its sweeps.
-/
namespace Sys2Proof.Machine

/-! ### Records and the topology (R602, R603) -/

section Records

variable {port : DieId} {link : Fin 4} {s : State} (hup : linkUp s port link = true)
include hup

/-- A record of another module newer than the one held, or where none is held, is kept and flooded on. -/
theorem execLinkStateRecord_of_newer {r : LsRecord} (hother : r.serial ≠ Config.moduleSerial)
    (hnew : ∀ q, recOf s r.serial = some q → q.version < r.version) :
    execLinkStateRecord port link r s = .next (rickUpdate (flood (keepRec s r) (.linkState r) (some (port.val, link.val)))) := by
  cases hheld : recOf s r.serial with
  | none => simp [execLinkStateRecord, hup, hother, hheld]
  | some q => simp [execLinkStateRecord, hup, hother, hheld, hnew q hheld]

theorem execTopologyRecord_of_newer {r : TopoRecord} (hnew : ∀ o, s.rick.topo = some o → o.version < r.version) :
    execTopologyRecord port link r s = .next (flood (adopt s r) (.topology r) (some (port.val, link.val))) := by
  cases hheld : s.rick.topo with
  | none => simp [execTopologyRecord, hup, hheld]
  | some o => simp [execTopologyRecord, hup, hheld, hnew o hheld]

end Records

/-! ### Sweeps (R611, R612) -/

/-- RICK_SWEEP at the coordinator, with no sweep under way, starts one. -/
theorem execRickSweep_of_coord {fn : FnId} {ring : Fin 8} {s : State} {v : Verb} {r : TopoRecord}
    (h : ownerReady s fn ring 0x31 v = true) (htopo : (started s v).rick.topo = some r) (hcoord : isCoord (started s v) = true)
    (hidle : (started s v).rick.sweep.running = none) :
    execRickSweep fn ring s = .next (sweepStart (started s v) r r.coord [v.id]) := by
  refine congrArg Host.Outcome.next ((ownerVerb_of_ready _ h).trans ?_)
  simp only [htopo, hcoord, hidle, Bool.not_true, Bool.false_eq_true, if_false]
  rfl

section Tokens

variable {s : State} {r : TopoRecord} (htopo : s.rick.topo = some r)
include htopo

theorem execSweepTimer_of_coord (hcoord : isCoord s = true) (hperiod : regF s (rDrt 0 0x100) 15 0 ≠ 0)
    (hidle : s.rick.sweep.running = none) : execSweepTimer s = .next (sweepStart s r r.coord []) := by
  simp only [execSweepTimer, htopo, hcoord, bne_iff_ne.mpr hperiod, hidle, Option.isNone_none, Bool.and_self, if_true]

/-- A returning token that a member has not seen is acknowledged and passed back. -/
theorem execSweepToken_of_returning {port : DieId} {link : Fin 4} {tok : SweepTok} {s1 : State} {me : Nat}
    (hup : linkUp s port link = true) (hs1 : s1 = ctlSend s port link (.tokenAck tok.seq))
    (hnew : s1.rick.sweep.seen.contains (tok.seq, tok.rev, tok.back, tok.path.length) = false) (hme : ownPos r = some me)
    (hmember : isCoord s = false) (hback : tok.back = true) :
    execSweepToken port link tok s = .next (tokBack (setSweep s1 { s1.rick.sweep with seen :=
      (s1.rick.sweep.seen.filter (fun k => k.1 == tok.seq)) ++ [(tok.seq, tok.rev, tok.back, tok.path.length)] }) r tok) := by
  subst hs1
  rw [hback] at hnew ⊢
  simp only [execSweepToken, hup, hnew, htopo, hme, hmember, hback, Bool.not_true, Bool.false_eq_true, if_false, if_true]

theorem execSweepTokenTimeout_of_reverse {k : SweepTok} (hrun : s.rick.sweep.running = some k) (hrev : k.rev = true) :
    execSweepTokenTimeout s = .next (sweepEnd s (tokAdd s r.coord k)) := by
  simp only [execSweepTokenTimeout, hrun, htopo, hrev, if_true]

end Tokens

/-- The acknowledgement of the token that is kept lets it go. -/
theorem execSweepHandshakeAck_of_kept {port : DieId} {link : Fin 4} {s : State} {k : SweepTok} (hup : linkUp s port link = true)
    (hkept : s.rick.sweep.kept = some (k, port.val, link.val)) :
    execSweepHandshakeAck port link k.seq s = .next (setSweep s { s.rick.sweep with kept := none }) := by
  simp only [execSweepHandshakeAck, hkept, hup, decide_true, Bool.and_self, if_true]

/-- Settles O44. Each clause is the branch of its command that its hypotheses leave. -/
theorem rickRecordsAndSweeps : Obligations.RickRecordsAndSweeps := by
  unfold Obligations.RickRecordsAndSweeps
  refine ⟨?record, ?topology, ?answer, ?verb, ?timer, ?token, ?ack, ?timeout⟩
  case record => exact fun port link r s hup => execLinkStateRecord_of_newer hup
  case topology => exact fun port link r s hup => execTopologyRecord_of_newer hup
  case answer =>
    rintro fn ring ok s _ v h rfl
    exact congrArg Host.Outcome.next (ownerVerb_of_ready _ h)
  case verb =>
    rintro fn ring s _ v r h rfl htopo hcoord hidle
    exact execRickSweep_of_coord h htopo hcoord hidle
  case timer => exact fun s r => execSweepTimer_of_coord
  case token =>
    intro port link tok s s1 r me hup hs1 hnew htopo hme hmember hback
    exact execSweepToken_of_returning htopo hup hs1 hnew hme hmember hback
  case ack => exact fun port link s k => execSweepHandshakeAck_of_kept
  case timeout => exact fun s k r hrun htopo => execSweepTokenTimeout_of_reverse htopo hrun

end Sys2Proof.Machine
end

section
/-!
PROOFS. Calibration runs, and the tests and losses of the Ember store.
-/
namespace Sys2Proof.Machine

/-! ### Calibration runs (R646, R647, R653) -/

/-- The targets and units a run is asked for, in order (R643). -/
def calLeft (s : State) (op : Nat) : List (Nat × Nat) :=
  (List.range 5).flatMap (fun k => if nbits op k k = 1 then (calUnits s op k).map (fun u => (k, u)) else [])

theorem execCalRun_of_sound {fn : FnId} {ring : Fin 8} {refv : Int} {s t : State} {v w : Verb} {op num : Nat} {r : CalRun}
    (h : ownerReady s fn ring 0x72 v = true) (ht : t = started s v) (hw : w = begun v) (hop : op = bits w.op0 31 0)
    (htargets : nbits op 4 0 ≠ 0) (hidle : t.cal.run = none) (hpresent : calAbsent t op = false) (hnot1 : nbits op 1 1 = 0)
    (hnum : num = (reg t (rCal 4)).toNat + 1)
    (hr : r = { num := num % 2 ^ 32, verb := w.id, op := op, beat := t.beat, left := calLeft t op }) {s3 : State}
    (hs3 : s3 = setCal (setRegF (setRegF (setReg (setReg t (rCal 4) (word num)) (rCal 0xC) (int32 refv)) (rCal 0) 31 24 0) (rCal 0) 3 0 1)
      { run := some r, figs := [] })
    (hgood : calInputs s3 r refv = none) :
    execCalRun fn ring refv s = .next (setRegF s3 (rCal 0) 3 0 (if r.left.isEmpty then 3 else 2)) := by
  subst ht hw hop hnum hr hs3
  refine congrArg Host.Outcome.next ((ownerVerb_of_ready _ h).trans ?_)
  unfold calLeft at hgood ⊢
  simp only [htargets, hidle, hpresent, hnot1, hgood, Option.isSome_none, Bool.false_eq_true, Nat.zero_ne_one, false_and, if_false]

section Run

variable {s : State} {r : CalRun} (hrun : s.cal.run = some r)
include hrun

/-- A thermal channel that is next in its run, in no throttled interval, and within the limits, is recorded with its trim. -/
theorem execCalUnitMeasure_of_channel {unit : Nat} (check : Bool) {a b : BitVec 16} (trim : Nat) {refv : Int} {s1 s3 : State}
    {rest : List (Nat × Nat)} (hleft : r.left = (2, unit) :: rest) (hcalm : chanInterval s unit < 2)
    (hs1 : s1 = setRegF s (rCal 0) 6 4 2) (hgood : calInputs s1 r refv = none)
    (hs3 : s3 = setCal s1 { s1.cal with figs := mapInsert s1.cal.figs (1024 + unit) (a.toNat, b.toNat) })
    (hfit : calPoor s3 2 a.toNat b.toNat = false) :
    execCalUnitMeasure 2 unit check false a b trim refv s = .next (setRegF
      (setCal s3 { s3.cal with run := some { r with left := rest, shadow := mapInsert r.shadow (1024 + unit) trim } }) (rCal 0) 3 0
      (if rest.isEmpty then 3 else 2)) := by
  subst hs1 hs3
  have steady : ¬ chanInterval s unit = 2 := Nat.ne_of_lt hcalm
  have hnext : r.left.contains (2, unit) = true ∧ r.left.head?.map Prod.fst = some 2 ∧ r.left.erase (2, unit) = rest := by simp [hleft]
  obtain ⟨hmember, hhead, hrest⟩ := hnext
  have target : (2 : Fin 5).val = 2 := rfl
  simp only [execCalUnitMeasure, target, hrun, hmember, hhead, hrest, beq_eq_false_iff_ne.mpr steady, hgood, hfit, bne_self_eq_false,
    Nat.reduceEqDiff, Nat.reduceBEq, Nat.reduceMul, Bool.not_true, Bool.or_false, Bool.and_false, Bool.false_and, Bool.false_eq_true,
    false_and, if_false]

/-- Where its verb gives no number of beats, a run has 4000. -/
theorem execCalTimeout_of_late (hleft : r.left ≠ []) (hbeats : nbits r.op 31 20 = 0) (hlate : r.beat + 4000 ≤ s.beat) :
    execCalTimeout s = .next (calFail s r 0x47 0 0 0 0) := by
  simp [execCalTimeout, hrun, hleft, hbeats, Nat.not_lt.mpr hlate]

end Run

theorem execCalAbort_of_running {fn : FnId} {ring : Fin 8} {s : State} {v : Verb} {r : CalRun} (h : ownerReady s fn ring 0x73 v = true)
    (hrun : (started s v).cal.run = some r) :
    execCalAbort fn ring s = .next (verbDone (calFail (started s v) r 0x48 0 0 0 0) (begun v) 0 r.num) := by
  refine congrArg Host.Outcome.next ((ownerVerb_of_ready _ h).trans ?_)
  simp only [hrun]

/-- Settles O46. Each clause is the branch of its command that its hypotheses leave. -/
theorem calibration : Obligations.Calibration := by
  unfold Obligations.Calibration
  refine ⟨?run, ?measure, ?timeout, ?abort, ?results, ?req⟩
  case run =>
    rintro fn ring refv s t _ s3 v w op num r h ht hw hop htargets hidle hpresent hnot1 hnum hr rfl hs3 hgood
    exact execCalRun_of_sound h ht hw hop htargets hidle hpresent hnot1 hnum hr hs3 hgood
  case measure =>
    intro unit check a b trim refv s s1 s3 r rest hrun hleft hcalm hs1 hgood hs3 hfit
    exact execCalUnitMeasure_of_channel hrun check trim hleft hcalm hs1 hgood hs3 hfit
  case timeout => exact fun s r => execCalTimeout_of_late
  case abort =>
    rintro fn ring s _ v r h rfl hrun
    exact execCalAbort_of_running h hrun
  case results =>
    rintro fn ring ok s _ v _ _ _ h rfl rfl rfl hk rfl
    exact congrArg Host.Outcome.next ((ownerVerb_of_ready _ h).trans (if_neg (Nat.not_lt.mpr hk)))
  case req => exact fun port link lane s hup => congrArg Host.Outcome.next (if_pos hup)

/-! ### The Ember store's tests (R684) -/

theorem execEmberTestStart_of_due {s : State} (hdue : testDue s = true) (hlanded : flying s = 0) (hidle : s.pwr.test = none)
    (hbus : s.pwr.bus = true) :
    execEmberTestStart s = .next (emberHold (setPwr s { s.pwr with test := some s.pwr.meter.store, due := false, weak := false })) := by
  simp [execEmberTestStart, hdue, hlanded, hidle, hbus]

/-- The measure of a store that holds enough for the programs permitted. -/
theorem execEmberTestMeasured_of_strong {out gauge v1 uf ev : Nat} {s : State} (htest : s.pwr.test = some v1) (hcharged : 40000 < v1)
    (huf : uf = min 65535 (2000000000 * out / (v1 * v1 - 1600000000))) (hev : ev = emberEv uf 40000)
    (hstrong : permit s ≤ emberEv uf 48000) :
    execEmberTestMeasured out gauge s = .next (setRegF (setPwr s { s.pwr with
      uf := uf, diff := (gauge : Int) - ev, weak := false, split := false
      meter := { s.pwr.meter with store := 40000, gauge := ev } }) (rEmb 4) 1 1 0) := by
  subst huf hev
  simp only [execEmberTestMeasured, htest, Nat.not_le.mpr hcharged, Nat.not_lt.mpr hstrong, decide_false, Bool.false_eq_true, if_false]

theorem execEmberTestDone_of_running (gauge : Nat) {s : State} (htest : s.pwr.test.isSome = true) :
    execEmberTestDone gauge s = .next (
      let ended := setPwr s { s.pwr with
        test := none, tested := s.time, meter := { s.pwr.meter with store := 48000, gauge := gauge } }
      let t := emberCheck (setReg ended (rEmb 0x14) (word (s.beat % 2 ^ 32)))
      emberVerbs (raise t .emberTestDone none 0 0 [(16, s.pwr.uf), (16, int16 s.pwr.diff)])
        (if s.pwr.weak then 0x52 else 0) (s.pwr.uf + 65536 * int16 s.pwr.diff)) := by
  refine congrArg Host.Outcome.next (if_neg ?_)
  rw [Option.isNone_iff_eq_none]
  exact Option.isSome_iff_ne_none.mp htest

/-! ### Loss of the bus (R681, R685) -/

/-- A loss of the bus outside a test: the hold of the store comes first, then the record, then both halves go dark. -/
theorem execBusLoss_of_untested (m : PowerMeter) {s s3 : State} (hbus : s.pwr.bus = true) (hidle : s.pwr.test = none)
    (hs3 : s3 = emberHold (incReg (setPwr s { s.pwr with bus := false, holdup := true, meter := m }) (rEmb 0x1C))) {e : EventRec}
    (he : e = ⟨.inputLost, none, 0, 0, s.time, BitVec.ofNat 128 (packFields [(16, m.voltsA), (16, m.voltsB), (16, flying s)])⟩) :
    execBusLoss m s = .next ([0, 1].foldl darken (logAdd (setPwr s3 { s3.pwr with lostRec := s3.pwr.lostRec ++ [e] }) e)) := by
  subst hs3 he
  simp only [execBusLoss, hbus, hidle, Option.isNone_none, Bool.not_true, Bool.false_eq_true, if_false, if_true]

theorem execSafetyBleedStart_of_unfed {s : State} (hbus : s.pwr.bus = false) (hfeeds : s.pwr.use.toList.any id = false) :
    execSafetyBleedStart s = .next (setPwr s { s.pwr with bleed := true }) := by
  simp only [execSafetyBleedStart, hbus, hfeeds, Bool.or_self, Bool.false_eq_true, if_false]

theorem execSafetyBleedEnd_of_unfed (m : PowerMeter) {s : State} (hbleed : s.pwr.bleed = true) :
    execSafetyBleedEnd false m s = .next (setPwr s { s.pwr with bleed := false, meter := m }) := by
  simp only [execSafetyBleedEnd, hbleed, Bool.not_true, Bool.false_eq_true, if_false]

/-- Settles O48. Each clause is the branch of its command that its hypotheses leave. -/
theorem emberStore : Obligations.EmberStore := by
  unfold Obligations.EmberStore
  refine ⟨?start, ?measured, ?done, ?loss, ?bleed, ?bled, ?verb⟩
  case start => exact fun s => execEmberTestStart_of_due
  case measured => exact fun out gauge v1 uf ev s => execEmberTestMeasured_of_strong
  case done =>
    rintro gauge s _ htest rfl
    exact execEmberTestDone_of_running gauge htest
  case loss => exact fun m s s3 e hbus hidle hs3 => execBusLoss_of_untested m hbus hidle hs3
  case bleed => exact fun s => execSafetyBleedStart_of_unfed
  case bled => exact fun m s => execSafetyBleedEnd_of_unfed m
  case verb =>
    rintro fn ring s _ v _ h rfl rfl
    exact congrArg Host.Outcome.next (ownerVerb_of_ready _ h)

end Sys2Proof.Machine
end

section
/-!
PROOFS. Thermal control: sensors, the trip comparators, the coolant and the demand on it.
-/
namespace Sys2Proof.Machine

/-! ### Sensors and trips (R694, R695, R702, R704) -/

/-- A reading in range, no peak, of a sound channel between the fields' and the coolant's: it takes part in no flow margin and in no gap
between fields. -/
theorem execThermalSample_of_inner {ch : Fin 194} {t : Int} {s s1 : State} (hs1 : s1 = setChan s ch { chan s ch with reading := t })
    (hpeak : t ≤ sgn 16 (bits (reg s1 (rThm 0x14 ch)) 15 0)) (hlow : -640 ≤ t) (hhigh : t ≤ 2400) (hsound : (chan s ch).fault = false)
    (hfirst : 160 ≤ ch.val) (hlast : ch.val < 192) :
    execThermalSample ch (.reading t) s = .next (stopStep (dutyStep (riseStep (levels s1 ch) ch) ch)) := by
  subst hs1
  have inRange : ¬ (t < -640 ∨ t > 2400) := not_or.mpr ⟨not_lt.mpr hlow, not_lt.mpr hhigh⟩
  have sound : ¬ (chan s ch).fault = true := by rw [hsound]; decide
  simp only [execThermalSample]
  rw [if_neg inRange, if_neg sound, if_neg (Nat.not_le.mpr hlast), if_neg (Nat.not_lt.mpr hfirst), if_neg (not_lt.mpr hpeak)]

/-- Samples that leave every comparator short of its fourth do not trip the module. -/
theorem execTripComparatorSample_of_below {hot : List (Fin 194 × Int)} {s s1 : State} (hrun : s.thm.latched = false)
    (hs1 : s1 = (List.range 176).foldl (fun s c => setChan s c { chan s c with hot :=
      if (hot.find? (fun e => e.1.val == c && decide (e.2 ≥ if c < 160 then deg 118 else deg 108))).isSome && !(chan s c).fault then
        (chan s c).hot + 1 else 0 }) s)
    (hbelow : (List.range 176).find? (fun c => (chan s1 c).hot ≥ 4) = none) :
    execTripComparatorSample hot s = .next s1 := by
  subst hs1
  simp only [execTripComparatorSample, hrun, hbelow, Bool.false_eq_true, if_false]

/-- THERMAL_RELEASE of a trip that cooled, with flow. -/
theorem execThermalRelease_of_cool {fn : FnId} {ring : Fin 8} {s t : State} {v : Verb} {c : Nat} {d : Int}
    (h : ownerReady s fn ring 0x88 v = true) (ht : t = started s v) (htrip : t.thm.trip = some (c, d)) (hopen : t.thm.latched = false)
    (hcool : t.thm.chans.any (fun e => e.2.reading ≥ deg 70) = false) (hflow : t.thm.present = true) :
    execThermalRelease fn ring s = .next
      (verbDone (setThm t { t.thm with trip := none, await := false }) (begun v) 0 (c + 65536 * int16 d)) := by
  subst ht
  refine congrArg Host.Outcome.next ((ownerVerb_of_ready _ h).trans ?_)
  simp only [htrip, hopen, hcool, hflow, Bool.not_true, Bool.or_self, Bool.false_eq_true, if_false]

/-! ### Coolant and demand (R706, R713, R715) -/

theorem execFlowPulse_of_scaled (rate : Nat) {k : Nat} {s : State} (hk : k = regF s (rThm 0x24) 31 16) (hscale : k ≠ 0) :
    execFlowPulse rate s = .next (marginStep (setThm s { s.thm with flow := min 65535 (100 * rate / k), present := true }) 193) := by
  subst hk
  simp only [execFlowPulse, hscale, if_false]

theorem execFlowTimeout_of_present {s : State} (hflow : s.thm.present = true) :
    execFlowTimeout s = .next (stopStep (marginStep
      (raise (setThm s { s.thm with present := false, flow := 0 }) .coolantFlowAbsent none 0 0 [(16, s.thm.flow)]) 193)) := by
  simp only [execFlowTimeout, hflow, Bool.not_true, Bool.false_eq_true, if_false]

theorem execDemandCompliance_of_short {s : State} (hshort : s.thm.loop + 200 < s.thm.demand) (huntold : s.thm.comply = false) :
    execDemandCompliance true s = .next (raise (orReg (setThm s { s.thm with comply := true }) (rThm 0x3C) 4) .demandCompliance none 0 0
      [(16, s.thm.demand), (16, s.thm.loop)]) := by
  simp only [execDemandCompliance, hshort, huntold, decide_true, Bool.not_false, Bool.and_self, if_true]

theorem execDemandCompliance_of_met {s : State} (hmet : s.thm.demand ≤ s.thm.loop + 200) :
    execDemandCompliance false s = .next (setThm s { s.thm with comply := false }) := by
  simp only [execDemandCompliance, Nat.not_lt.mpr hmet, decide_false, Bool.false_and, Bool.not_false, Bool.and_self, Bool.false_eq_true,
    if_false, if_true]

/-- Settles O49. An open or short sensor and the demand are their definitions; each other clause is the branch of its command that its
hypotheses leave. -/
theorem thermalControl : Obligations.ThermalControl := by
  unfold Obligations.ThermalControl
  refine ⟨?faulty, ?reading, ?calm, ?below, ?release, ?pulse, ?absent, ?demand, ?short, ?met⟩
  case faulty => exact fun ch s => ⟨rfl, rfl⟩
  case reading => exact fun ch t s s1 => execThermalSample_of_inner
  case calm => exact fun ch s hcalm => congrArg Host.Outcome.next (if_pos hcalm)
  case below => exact fun s s1 hot => execTripComparatorSample_of_below
  case release =>
    rintro fn ring s t v _ c d h ht rfl htrip hopen hcool hflow
    exact execThermalRelease_of_cool h ht htrip hopen hcool hflow
  case pulse => exact fun rate k s => execFlowPulse_of_scaled rate
  case absent => exact fun s => execFlowTimeout_of_present
  case demand => exact fun n s => rfl
  case short => exact fun s => execDemandCompliance_of_short
  case met => exact fun s => execDemandCompliance_of_met

end Sys2Proof.Machine
end

section
/-!
PROOFS. Images, patches, relocation and the keys.
-/
namespace Sys2Proof.Machine

/-! ### Image verbs (R545, R548, R557, R560, R563 to R565) -/

section Verbs

variable {code : Nat} {fn : FnId} {ring : Fin 8} {s : State} {v : Verb} (k : Verb → State → State) (h : verbReady s fn ring code v = true)
include h

/-- A verb that waits for the module to be ready takes its effect there. -/
theorem readyVerb_of_ready (hready : imgReady s = true) :
    (if !imgReady s then s else verbStart s fn ring code k) = k (begun v) (started s v) :=
  (if_neg (by simp [hready])).trans (verbStart_of_ready k h)

/-- A verb of the owner's that runs one at a time takes its effect where the module is ready and no operation is under way. -/
theorem ownerImg_of_idle (hfn : v.fn = 0) (hready : imgReady s = true) (hidle : imgBusy (started s v) = false) :
    ownerImg code true fn ring s k = .next (k (begun v) (started s v)) := by
  refine congrArg Host.Outcome.next ((if_neg (by simp [hready])).trans ((verbStart_of_ready _ h).trans ?_))
  simp only [begun_fn, hfn, hidle, ne_eq, not_true_eq_false, Bool.and_false, Bool.false_eq_true, if_false]

/-- A verb of the owner's that may run beside others takes its effect at once. -/
theorem ownerImg_of_owner (hfn : v.fn = 0) : ownerImg code false fn ring s k = .next (k (begun v) (started s v)) := by
  refine congrArg Host.Outcome.next ((if_neg (by simp)).trans ((verbStart_of_ready _ h).trans ?_))
  simp only [begun_fn, hfn, ne_eq, not_true_eq_false, Bool.false_and, Bool.false_eq_true, if_false]

end Verbs

section Image

variable {fn : FnId} {ring : Fin 8} {s t : State} {v w : Verb} (ht : t = started s v) (hw : w = begun v)
  (hready : imgReady s = true) (hidle : imgBusy t = false)
include ht hw hready hidle

theorem execImageLoad_of_checked {bytes : Option (List Byte)} {sig : Bool} {b : List Byte} {im : Image}
    (h : verbReady s fn ring 0x60 v = true) (hfn : v.fn = 0) (hsize : bits w.op0 63 32 ≤ 2 ^ 28)
    (hbytes : imgBytes t w (bits w.op0 63 32) bytes = some b) (hgood : checkImage t 0 false b sig (fullPerm t) = .ok im) :
    execImageLoad fn ring bytes sig s = .next (imageTake t w im) := by
  subst ht hw
  refine (ownerImg_of_idle _ h hfn hready hidle).trans (congrArg Host.Outcome.next ?_)
  simp only [gt_iff_lt, Nat.not_lt.mpr hsize, hbytes, hgood, if_false]

/-- A patch whose checks pass is staged in the first free slot. -/
theorem execPatchStage_of_checked {k : Nat} {bytes : Option (List Byte)} {sig : Bool} {b : List Byte} {im : Image}
    (h : verbReady s fn ring 0x62 v = true) (hslot : (List.range 8).find? (fun k => (mapFind t.img.slots k).isNone) = some k)
    (hsize : bits w.op0 63 32 ≤ 2 ^ 24) (hbytes : imgBytes t w (bits w.op0 63 32) bytes = some b)
    (hgood : checkImage t w.fn true b sig (fun im => permFault (fun p sh => (rectSheaves t p).contains sh)
      (fun u x => (secApply true (fun a => some (xlatAddr u im.part a)) x u).1) im.secs 0 t) = .ok im) :
    execPatchStage fn ring bytes sig s = .next (imgDone (setImg t { t.img with slots := mapInsert t.img.slots k (w.fn, im) }) w 0 k) := by
  subst ht hw
  refine congrArg Host.Outcome.next ((readyVerb_of_ready _ h hready).trans ?_)
  simp only [hidle, hslot, gt_iff_lt, Nat.not_lt.mpr hsize, hbytes, hgood, Bool.false_eq_true, if_false]

section Slot

variable {im : Image} (hslot : mapFind t.img.slots (bits w.op0 2 0) = some (w.fn, im))
include hslot

theorem execPatchApply_of_loaded (h : verbReady s fn ring 0x63 v = true) (hloaded : prtState t im.part = 2) :
    execPatchApply fn ring s = .next
      (opStart t { verb := some w.id, part := im.part, beat := t.beat, slot := some (bits w.op0 2 0) }) := by
  subst ht hw
  refine congrArg Host.Outcome.next ((readyVerb_of_ready _ h hready).trans ?_)
  simp only [hidle, hslot, hloaded, ne_eq, not_true_eq_false, Bool.false_eq_true, if_false]

theorem execPatchDrop_of_owned (h : verbReady s fn ring 0x64 v = true) :
    execPatchDrop fn ring s = .next (imgDone (setImg t { t.img with slots := mapErase t.img.slots (bits w.op0 2 0) }) w 0) := by
  subst ht hw
  refine congrArg Host.Outcome.next ((readyVerb_of_ready _ h hready).trans ?_)
  simp only [hidle, hslot, ne_eq, not_true_eq_false, Bool.false_eq_true, if_false]

end Slot

/-- A move or a rescue that nothing refuses starts; the two verbs differ in the bit that names which it is. -/
theorem relocate_of_sound {rescue : Bool} (h : verbReady s fn ring 0x65 v = true) (hfn : v.fn = 0) (hkind : bit v.op0 32 = rescue)
    (hgood : moveRefusal t w = none) :
    relocate rescue fn ring s = .next (
      let p := bits w.op0 5 0
      let im := sheafAt (bits w.op0 12 6) (bits w.op0 18 13)
      moveStart t { verb := some w.id, part := p, beat := t.beat, slot := if bit w.op0 34 then some (bits w.op0 37 35) else none
                    move := true, image := im, src := xlatSheaf t p im, dst := sheafAt (bits w.op0 25 19) (bits w.op0 31 26)
                    rescue := rescue, retire := bit w.op0 33 }) := by
  subst ht hw
  simp only [relocate, verbNext_of_ready h, hkind, bne_self_eq_false, Bool.false_eq_true, if_false]
  refine (ownerImg_of_idle _ h hfn hready hidle).trans (congrArg Host.Outcome.next ?_)
  simp only [hgood]

end Image

/-! ### Operations under way (R546, R552, R557) -/

section Operation

variable {s : State} {o : ImgOp} (hop : s.img.op = some o)
include hop

/-- With no image load under way, the operation whose loads have all ended goes on to its run. -/
theorem execImageLoadsDone_of_ended (hstarts : s.img.starts = []) (hloading : s.img.loading = none) (hphase : o.phase = .act)
    (hended : loadsLeft s o.part = false) : execImageLoadsDone s = .next (opRun s o (if o.fail then 0x28 else 0)) := by
  simp only [execImageLoadsDone, hstarts, hloading, hop, hphase, hended, List.any_nil, List.filter_nil, List.foldl_nil, Bool.not_false,
    and_self, if_true]

theorem execRelocateCopyDone_of_sound (hphase : o.phase = .copy) (hdst : sheafFailed s o.dst = false) (hsrc : sheafFailed s o.src = false) :
    execRelocateCopyDone s = .next (opWrite (copySheaf (givePorts o.part s o.dst) o) o) := by
  simp only [execRelocateCopyDone, hop, hphase, hdst, hsrc, ne_eq, not_true_eq_false, Bool.false_eq_true, if_false]

/-- Past the last beat for rest, the partition runs on and the operation ends. -/
theorem execQuiesceTimeout_of_late {lim : Nat} {d : List (Nat × Nat)} (hphase : o.phase = .quiesce)
    (hlim : lim = o.beat + 2 + quiesceBeats s o.part) (hlate : lim ≤ s.beat)
    (hd : d = [(6, o.part), (4, if o.move then 5 else 4), (16, (unrested s o).length)]) :
    execQuiesceTimeout s = .next (endOp (setRegF (raise (raise (restWords s o.part 3 (lim + 1) (restSheaves s o)) .quiesceTimeout none 6 o.part d)
      .quiesceTimeout (some o.part) 6 o.part d) (rPrt o.part 8) 3 0 2) 0x2A) := by
  subst hlim hd
  simp only [execQuiesceTimeout, hop, hphase, Nat.not_lt.mpr hlate, ne_eq, not_true_eq_false, or_self, if_false]

end Operation

/-! ### The keys (R531) -/

/-- KEY_LOCK and KEY_UNLOCK are one verb, whose lowest operand bit tells which. -/
theorem lockNext_of_ready {fn : FnId} {ring : Fin 8} {s : State} {v : Verb} {on : Bool} (h : verbReady s fn ring 0x68 v = true)
    (hon : bit v.op0 0 = on) : lockNext s fn ring on = true := by
  simp [lockNext, verbNext_of_ready h, hon]

section Keys

variable {fn : FnId} {ring : Fin 8} {s t : State} {v w : Verb} (ht : t = started s v) (hw : w = begun v) (hfn : v.fn = 0)
include ht hw hfn

theorem execKeyEnroll_of_open {key : Option (List Byte)} {k : Nat} {m : Mem} (h : verbReady s fn ring 0x66 v = true)
    (hopen : t.store.locked = false) (hk : k = bits w.op0 2 0) (hslot : k ≠ 0)
    (hkey : srcBytes t w.fn (bit w.op0 3) (bits w.op1 63 0) 96 key = some m) :
    execKeyEnroll fn ring key s = .next
      (imgDone (sayKey (setStore t { t.store with keys := mapInsert t.store.keys k (memGet m 0 96) }) k 1) w 0) := by
  subst ht hw hk
  refine (ownerImg_of_owner _ h hfn).trans (congrArg Host.Outcome.next ?_)
  simp only [hopen, hslot, hkey, Bool.false_eq_true, if_false]

theorem execKeyRevoke_of_open {k : Nat} (h : verbReady s fn ring 0x67 v = true) (hopen : t.store.locked = false)
    (hk : k = bits w.op0 2 0) (hslot : k ≠ 0) :
    execKeyRevoke fn ring s = .next (imgDone (sayKey (setStore t { t.store with keys := mapErase t.store.keys k }) k 2) w 0) := by
  subst ht hw hk
  refine (ownerImg_of_owner _ h hfn).trans (congrArg Host.Outcome.next ?_)
  simp only [hopen, hslot, Bool.false_eq_true, if_false]

theorem execKeyLock_of_ready (h : verbReady s fn ring 0x68 v = true) (hon : bit v.op0 0 = true) :
    execKeyLock fn ring s = .next (imgDone (setLocked t true) w 0) := by
  subst ht hw
  exact (if_pos (lockNext_of_ready h hon)).trans (ownerImg_of_owner _ h hfn)

/-- KEY_UNLOCK with a signature that its check accepts draws the next nonce. -/
theorem execKeyUnlock_of_signed {m : Mem} (h : verbReady s fn ring 0x68 v = true) (hoff : bit v.op0 0 = false)
    (hsig : srcBytes t w.fn (bit w.op0 1) (bits w.op1 63 0) 96 (some []) = some m) :
    execKeyUnlock fn ring (some true) s = .next
      (imgDone (setLocked (setStore (draw t).2 { (draw t).2.store with nonce := (draw t).1 }) false) w 0) := by
  subst ht hw
  refine (if_pos (lockNext_of_ready h hoff)).trans
    ((ownerImg_of_owner _ h hfn).trans (congrArg Host.Outcome.next ?_))
  simp only [Option.map_some, hsig]

end Keys

/-- Settles O50. A ready verb takes its effect in the state in which it has started; each clause is then the branch that its
hypotheses leave. -/
theorem imagesAndKeys : Obligations.ImagesAndKeys := by
  unfold Obligations.ImagesAndKeys
  refine ⟨?load, ?unload, ?done, ?stage, ?apply, ?drop, ?move, ?copied, ?unrested, ?enroll, ?revoke, ?lock, ?unlock⟩
  case load =>
    rintro fn ring bytes sig s t v w b im ⟨h, hfn, ht, hw⟩ hready hidle hsize hbytes hgood
    exact execImageLoad_of_checked ht hw hready hidle h hfn hsize hbytes hgood
  case unload =>
    rintro fn ring s _ v _ ⟨h, hfn, rfl, rfl⟩ hready hidle
    exact ownerImg_of_idle _ h hfn hready hidle
  case done =>
    intro s o hstarts hloading hop hphase hended
    exact execImageLoadsDone_of_ended hop hstarts hloading hphase hended
  case stage =>
    intro fn ring s t v w k bytes sig b im h ht hw hready hidle hslot hsize hbytes hgood
    exact execPatchStage_of_checked ht hw hready hidle h hslot hsize hbytes hgood
  case apply =>
    intro fn ring s t v w im h ht hw hready hidle hslot hloaded
    exact execPatchApply_of_loaded ht hw hready hidle hslot h hloaded
  case drop =>
    intro fn ring s t v w im h ht hw hready hidle hslot
    exact execPatchDrop_of_owned ht hw hready hidle hslot h
  case move =>
    rintro rescue fn ring s t v w _ _ ⟨h, hfn, ht, hw⟩ hkind hready hidle hgood rfl rfl
    have hmove := relocate_of_sound ht hw hready hidle h hfn hkind hgood
    cases rescue with
    | false => exact hmove
    | true => exact hmove
  case copied => exact fun s o => execRelocateCopyDone_of_sound
  case unrested => exact fun s o lim d hop => execQuiesceTimeout_of_late hop
  case enroll =>
    rintro fn ring key s t v w k m ⟨h, hfn, ht, hw⟩ hopen hk hslot hkey
    exact execKeyEnroll_of_open ht hw hfn h hopen hk hslot hkey
  case revoke =>
    rintro fn ring s t v w k ⟨h, hfn, ht, hw⟩ hopen hk hslot
    exact execKeyRevoke_of_open ht hw hfn h hopen hk hslot
  case lock =>
    rintro fn ring s t v w ⟨h, hfn, ht, hw⟩ hon
    exact execKeyLock_of_ready ht hw hfn h hon
  case unlock =>
    rintro fn ring s t v w m ⟨h, hfn, ht, hw⟩ hoff hsig
    exact execKeyUnlock_of_signed ht hw hfn h hoff hsig

end Sys2Proof.Machine
end

section
/-!
PROOFS. Kindling, the module's resets, the Dampers and their inputs.
-/
namespace Sys2Proof.Machine

/-! ### Kindling (R718, R719, R723) -/

theorem execKindlingStart_of_may {h : HalfId} {s : State} (hmay : mayKindle s h = true) (hnone : mapFind s.flt.kindling h = none) :
    execKindlingStart h s = .next (
      let t := setFlt s { s.flt with kindling := mapInsert s.flt.kindling h { began := s.time } }
      (List.range 8).foldl (fun s b => binFill s (8 * h + b))
        { t with halves := mapMod {} t.halves h (fun x => { x with lost := false }) }) := by
  simp only [execKindlingStart, hmay, hnone, Option.isSome_none, Bool.not_true, Bool.or_self, Bool.false_eq_true, if_false]

section Kindle

variable {h : HalfId} {s : State} {k : Kindling} (hk : mapFind s.flt.kindling h = some k)
include hk

section Wave

variable (a b : FieldTest) (hopen : k.ended = false)
include hopen

/-- A wave that finds no field left ends the waves. -/
theorem execKindlingWave_of_none (hnone : candidates2 s h k = []) :
    execKindlingWave h a b s = .next (setFlt s { s.flt with kindling := s.flt.kindling.map (fun e =>
      if e.1 = h.val then (e.1, { e.2 with ended := true }) else e) }) := by
  simp only [execKindlingWave, hk, hopen, hnone, List.zip_nil_left, List.foldl_nil, List.isEmpty_nil, Bool.false_eq_true, if_false, if_true]

/-- A wave tests its fields and is counted, and the waves go on while candidates are left. -/
theorem execKindlingWave_of_more {s1 s2 : State} {k2 : Kindling} {fs : List Nat} (hfs : fs = candidates2 s h k) (hsome : fs ≠ [])
    (hs1 : s1 = (fs.zip [a, b]).foldl (takeTest h (min 63 (k.waves + 1))) s)
    (hs2 : s2 = setFlt s1 { s1.flt with kindling := s1.flt.kindling.map (fun e =>
      if e.1 = h.val then (e.1, { e.2 with waves := min 63 (k.waves + 1) }) else e) })
    (hk2 : mapFind s2.flt.kindling h = some k2) (hmore : candidates2 s2 h k2 ≠ []) :
    execKindlingWave h a b s = .next s2 := by
  subst hfs hs1 hs2
  simp only [execKindlingWave, hk, hopen, List.isEmpty_eq_false_iff.mpr hsome, hk2, List.isEmpty_eq_false_iff.mpr hmore, Bool.false_eq_true,
    if_false]

end Wave

/-- The half's kindling is over once each bin is filled or failed: its fields are stored, its keys loaded, and the outcome told. -/
theorem execKindlingDone_of_filled (hended : k.ended = true)
    (hbins : (List.range 8).all (fun b => regBit s (rBin (8 * h.val + b) 4) 5 || regBit s (rBin (8 * h.val + b) 4) 7) = true) :
    execKindlingDone h s = .next (
      let fields := (List.range 80).map (fun j => 80 * h.val + j)
      let s1 := fields.foldl (storeField k) s
      let s2 := { s1 with
        spares := fields.foldl (fun m f => mapSet [] m f (fieldRec s1 f).rows) s1.spares
        halves := mapMod {} s1.halves h (fun x => { x with kindled := true, inReset := false }) }
      let s3 := setFlt (keysLoad s2 h) { s2.flt with kindling := mapErase s2.flt.kindling h }
      let ms := min 0xFFFF ((s.time - k.began) / 1000000)
      let s4 := setRegF (setRegF (setReg s3 (rHalf h 0x18 4) (word ms)) (rHalf h 0x18 0) 31 28 2) (rHalf h 0x18 0) 27 22 k.waves
      raise s4 .kindlingDone none 1 (halfUnit h) [(1, h.val), (16, 80 - retiredOf s4 h), (16, retiredOf s4 h), (6, k.waves), (16, ms)]) := by
  simp only [execKindlingDone, hk, hended, hbins, Bool.not_true, Bool.or_self, Bool.false_eq_true, if_false]

end Kindle

/-! ### Power-on and the release of a trip (R665, R703) -/

/-- A first feed after a start without a loss on record: the module comes up with the cause of a power-on. -/
theorem execPowerOn_of_first (feed : Fin 2) (m : PowerMeter) {s s1 : State} (hbus : s.pwr.bus = false) (hlost : s.pwr.lostRec = [])
    (hs1 : s1 = setFlt (setPwr s { s.pwr with
        use := s.pwr.use.set! feed.val true, bus := true, holdup := false, bleed := false, meter := m, lostRec := [] })
      { s.flt with damper := { s.flt.damper with lost := false, missed := 0 } }) :
    execPowerOn feed m s = .next (setThm (moduleReset s1 1) { trips := s.thm.trips, flow := s.thm.flow, present := s.thm.present }) := by
  subst hs1
  simp only [execPowerOn, hbus, hlost, List.isEmpty_nil, List.foldl_nil, Bool.false_eq_true, if_false, if_true]

/-- A latched trip with flow, once every channel has cooled, is released by a module reset. -/
theorem execTripRelease_of_cooled {s s1 : State} {c : Nat} {t : Int} (htrip : s.thm.trip = some (c, t)) (hlatched : s.thm.latched = true)
    (hflow : s.thm.present = true) (hcool : s.thm.chans.any (fun e => e.2.reading ≥ deg 55) = false) (hs1 : s1 = moduleReset s 3) :
    execTripRelease s = .next (raise (setThm s1 { s1.thm with
        latched := false, await := true, demand := 21500, chans := s.thm.chans.map (fun e => (e.1, { reading := e.2.reading })) })
      .thermalTrip none 0 0 [(8, c), (16, int16 t), (64, s.time)]) := by
  subst hs1
  simp only [execTripRelease, htrip, hlatched, hflow, hcool, Bool.not_true, Bool.or_self, Bool.false_eq_true, if_false]

/-! ### The Dampers (R738, R739) -/

section Standby

variable {s : State} (hstandby : s.flt.damper.standby = true) (hlost : s.flt.damper.lost = false)
include hstandby hlost

theorem execDamperHeartbeat_of_standby (came : Bool) :
    execDamperHeartbeat came s =
      .next (setDamper s { s.flt.damper with missed := if came then 0 else min (s.flt.damper.missed + 1) 10 }) := by
  simp only [execDamperHeartbeat, hstandby, hlost, Bool.not_true, Bool.or_self, Bool.false_eq_true, if_false]

theorem execDamperTakeover_of_due {fault : Bool} (hdue : fault = true ∨ 10 ≤ s.flt.damper.missed) :
    execDamperTakeover fault s = .next (takeover s (if fault then 2 else 1) none) := by
  have due : (fault || decide (s.flt.damper.missed ≥ 10)) = true := by simpa using hdue
  simp only [execDamperTakeover, hstandby, hlost, due, Bool.not_true, Bool.or_self, Bool.false_eq_true, if_false]

end Standby

/-! ### The Dampers' inputs (R741) -/

section Input

variable {i : Fin 4} {level : Bool} {s : State} {x : SideIn} (hx : x = mapGet {} s.flt.inputs i.val)
include hx

section Change

variable {changes : Nat} (hchange : x.raw ≠ level)
include hchange

theorem execSidebandInputChange_of_few (hfew : changes ≤ 16) :
    execSidebandInputChange i level changes false s = .next
      (incRegF (setFlt s { s.flt with inputs := mapSet {} s.flt.inputs i.val { x with raw := level } }) (rFlt 0xC i) 15 0) := by
  subst hx
  simp only [execSidebandInputChange, hchange, hfew, true_or, Bool.false_eq_true, if_false, if_true]

theorem execSidebandInputChange_of_many (hcalm : x.chatter = false) (hmany : 16 < changes) :
    execSidebandInputChange i level changes false s = .next (
      let t := incRegF (setFlt s { s.flt with inputs := mapSet {} s.flt.inputs i.val { x with raw := level } }) (rFlt 0xC i) 15 0
      takeForce (raise (orReg (setFlt t { t.flt with inputs := mapSet {} t.flt.inputs i.val { x with raw := level, chatter := true } })
        (rFlt 4) 2) .chatter none 0 0 [(2, i.val), (16, changes)]) i true) := by
  subst hx
  simp only [execSidebandInputChange, hchange, Nat.not_le.mpr hmany, hcalm, or_self, Bool.false_eq_true, if_false]

end Change

/-- A level that an input has held takes effect. -/
theorem execSidebandInputChange_of_held (changes : Nat) (hheld : x.raw = level) (hcalm : x.chatter = false) :
    execSidebandInputChange i level changes true s = .next (takeForce s i level) := by
  subst hx
  simp only [execSidebandInputChange, hheld, hcalm, Bool.not_false, and_self, if_true]

end Input

/-- The state in which an input's new level is in force, before it has its effect. -/
def inForceAt (s : State) (i : Nat) (on : Bool) : State :=
  setFlt s { s.flt with inputs := mapSet {} s.flt.inputs i { mapGet {} s.flt.inputs i with
    inForce := on, stuck := (mapGet {} s.flt.inputs i).stuck && on } }

section Force

variable {s : State} {i : Nat}

section Rise

variable (hnew : (mapGet {} s.flt.inputs i).inForce ≠ true)
include hnew

theorem takeForce_fence (hi : i = 0) : takeForce s i true = fenceAssert (inForceAt s i true) := by
  subst hi
  simp only [takeForce, if_neg hnew]
  rfl

theorem takeForce_perst {port : HostPort} (hi : i = port.val + 1) :
    takeForce s i true = after (execHostPortDown port true (inForceAt s i true)) (inForceAt s i true) := by
  subst hi
  simp only [takeForce, if_neg hnew]
  match port with
  | 0 | 1 => rfl

theorem takeForce_therm (hi : i = 3) : takeForce s i true = sayThermIn (inForceAt s i true) := by
  subst hi
  simp only [takeForce, if_neg hnew]
  rfl

end Rise

section Fall

variable (hnew : (mapGet {} s.flt.inputs i).inForce ≠ false)
include hnew

theorem takeForce_perst_ends {port : HostPort} (hi : i = port.val + 1) :
    takeForce s i false = setRegF (inForceAt s i false) (rPortSt port) 30 30 0 := by
  subst hi
  simp only [takeForce, if_neg hnew]
  match port with
  | 0 | 1 => rfl

theorem takeForce_others_end (hi : i = 0 ∨ i = 3) : takeForce s i false = inForceAt s i false := by
  rcases hi with rfl | rfl
  · exact if_neg hnew
  · exact if_neg hnew

end Fall

end Force

theorem execChatterEnd_of_low {i : Fin 4} {s : State} {x : SideIn} (hx : x = mapGet {} s.flt.inputs i.val) (hchatter : x.chatter = true)
    (hlow : x.raw = false) :
    execChatterEnd i s = .next
      (takeForce (setFlt s { s.flt with inputs := mapSet {} s.flt.inputs i.val { x with chatter := false } }) i false) := by
  subst hx
  simp only [execChatterEnd, hchatter, hlow, Bool.not_true, Bool.or_self, Bool.false_eq_true, if_false]

theorem execStuck_of_untold {i : Fin 4} {s : State} {x : SideIn} (hx : x = mapGet {} s.flt.inputs i.val) (hforce : x.inForce = true)
    (huntold : x.stuck = false) :
    execStuck i s = .next (raise (orReg (setFlt s { s.flt with inputs := mapSet {} s.flt.inputs i.val { x with stuck := true } }) (rFlt 4) 1)
      .stuck none 0 0 [(2, i.val)]) := by
  subst hx
  simp only [execStuck, hforce, huntold, Bool.not_true, Bool.or_self, Bool.false_eq_true, if_false]

/-- Settles O52. The loss of both Dampers is its definition, and a verb takes its effect in the state in which it has started; each other
clause is the branch of its command that its hypotheses leave. -/
theorem kindlingAndDampers : Obligations.KindlingAndDampers := by
  unfold Obligations.KindlingAndDampers
  refine ⟨?start, ?lastWave, ?wave, ?done, ?askReset, ?reset, ?powerOn, ?release, ?beat, ?takeover, ?switch, ?lost, ?change, ?chatter,
    ?force, ?calm, ?stuck, ?scrub⟩
  case start =>
    rintro h s _ hmay hnone rfl
    exact execKindlingStart_of_may hmay hnone
  case lastWave => exact fun h a b s k hk => execKindlingWave_of_none hk a b
  case wave =>
    intro h a b s s1 s2 k k2 fs hk hopen hfs hsome hs1 hs2 hk2 hmore
    exact execKindlingWave_of_more hk a b hopen hfs hsome hs1 hs2 hk2 hmore
  case done =>
    rintro h s _ _ _ _ k _ hk hended hbins rfl rfl rfl rfl rfl
    exact execKindlingDone_of_filled hk hended hbins
  case askReset =>
    rintro fn ring s _ v _ h rfl rfl
    exact congrArg Host.Outcome.next (ownerVerb_of_ready _ h)
  case reset => exact fun s hdue => congrArg Host.Outcome.next (if_pos hdue)
  case powerOn => exact fun feed m s s1 => execPowerOn_of_first feed m
  case release => exact fun s s1 c t => execTripRelease_of_cooled
  case beat => exact fun came s hstandby hlost => execDamperHeartbeat_of_standby hstandby hlost came
  case takeover => exact fun fault s hstandby hlost => execDamperTakeover_of_due hstandby hlost
  case switch =>
    rintro fn ring s _ v _ h rfl rfl hstandby
    refine congrArg Host.Outcome.next ((ownerVerb_of_ready _ h).trans (if_neg ?_))
    simp [hstandby]
  case lost =>
    rintro s _ rfl
    rfl
  case change => exact fun i level changes s x hx => execSidebandInputChange_of_few hx
  case chatter =>
    rintro i level changes s _ x hx hchange hcalm hmany rfl
    exact execSidebandInputChange_of_many hx hchange hcalm hmany
  case force =>
    rintro i level changes s _ x rfl hheld hcalm hnew rfl
    have hforce := execSidebandInputChange_of_held rfl changes hheld hcalm
    refine ⟨?fence, ?perst, ?therm, ?perstEnds, ?othersEnd⟩
    case fence =>
      rintro hi rfl
      exact hforce.trans (congrArg Host.Outcome.next (takeForce_fence hnew hi))
    case perst =>
      rintro port t hi rfl hdown
      refine hforce.trans (congrArg Host.Outcome.next ((takeForce_perst hnew hi).trans ?_))
      exact congrArg (fun o => after o _) hdown
    case therm =>
      rintro hi rfl
      exact hforce.trans (congrArg Host.Outcome.next (takeForce_therm hnew hi))
    case perstEnds =>
      rintro port hi rfl
      exact hforce.trans (congrArg Host.Outcome.next (takeForce_perst_ends hnew hi))
    case othersEnd =>
      rintro hi rfl
      exact hforce.trans (congrArg Host.Outcome.next (takeForce_others_end hnew hi))
  case calm => exact fun i s x => execChatterEnd_of_low
  case stuck => exact fun i s x => execStuck_of_untold
  case scrub =>
    rintro sh lo hi s _ hperiod rfl
    exact congrArg Host.Outcome.next (if_neg hperiod)

end Sys2Proof.Machine
end

section
/-!
PROOFS. The instruction encodings: decoding and encoding are inverse to each other.
-/
namespace Sys2Proof.Machine

/-! ### Opcodes (R77) -/

theorem all_nth_of_all {α : Type} {p : α → Bool} {l : List α} (h : l.all p = true) (k : Nat) : (nth l k).all p = true := by
  rw [Option.all_eq_true]
  exact fun a ha => List.all_eq_true.mp h a (List.mem_of_getElem? ha)

/-- The operations under an opcode have that opcode: the one it names, or each of the list its function code picks from (R77). -/
theorem opcOf_of_opOf {opc fn : Nat} {op : Op} (h : opOf opc fn = some op) : opcOf op = opc := by
  suffices hall : (opOf opc fn).all (fun o => opcOf o == opc) = true by simpa [h] using hall
  fun_cases opOf opc fn
  all_goals try rfl
  all_goals exact all_nth_of_all rfl fn

theorem opcOf_of_cvtOp {o op : Op} {fn : Nat} (h : cvtOp o fn = some op) : opcOf op = opcOf o := by
  unfold cvtOp at h
  split at h
  next hcvt =>
    subst hcvt
    split at h
    · cases h; rfl
    · split at h <;> cases h
      rfl
  next => cases h; rfl

theorem opcOf_of_bind {opc fn : Nat} {op : Op} (h : (opOf opc fn).bind (fun o => cvtOp o fn) = some op) : opcOf op = opc := by
  obtain ⟨o, ho, hop⟩ := Option.bind_eq_some_iff.mp h
  rw [opcOf_of_cvtOp hop, opcOf_of_opOf ho]

theorem opcOf_lt (op : Op) : opcOf op < 64 := by cases op <;> decide

/-! ### Fields (R75, R90, R192) -/

theorem bnat_mod_two (x : Nat) : bnat (x % 2 == 1) = x % 2 := by
  rcases Nat.mod_two_eq_zero_or_one x with h | h <;> simp [bnat, h]

theorem bnat_le_one (b : Bool) : bnat b ≤ 1 := by cases b <;> decide

theorem beq_one_of_bnat {x : Nat} {b : Bool} (h : x = bnat b) : (x == 1) = b := by subst h; cases b <;> rfl

theorem op_fieldsOf (f : Form) (op : Op) (n0 n1 : Nat) : (fieldsOf f op n0 n1).op = op := by cases f <;> rfl

theorem guard_fieldsOf (f : Form) (op : Op) (n0 n1 : Nat) : (fieldsOf f op n0 n1).guard = nbits n0 25 23 := by cases f <;> rfl

theorem neg_fieldsOf (f : Form) (op : Op) (n0 n1 : Nat) : (fieldsOf f op n0 n1).neg = (nbits n0 22 22 == 1) := by cases f <;> rfl

/-- A word is its opcode, its guard and the 22 bits that its form divides. -/
theorem eq_head_add_low {n : Nat} (h : n < 2 ^ 32) :
    n = nbits n 31 26 * 2 ^ 26 + nbits n 25 23 * 2 ^ 23 + bnat (nbits n 22 22 == 1) * 2 ^ 22 + n % 2 ^ 22 := by
  simp only [nbits, Nat.reduceAdd, Nat.reduceSub, Nat.reducePow, bnat_mod_two]
  omega

/-- The fields of a word whose reserved bits are zero make up the word. -/
theorem encode0_fieldsOf {op : Op} {n0 : Nat} (n1 : Nat) (hop : opcOf op = nbits n0 31 26) (hn : n0 < 2 ^ 32)
    (hok : formOk (formOf (opcOf op)) n0 = true) : encode0 (fieldsOf (formOf (opcOf op)) op n0 n1) = n0 := by
  unfold encode0
  extract_lets head
  have hhead : n0 = head + n0 % 2 ^ 22 := by
    simpa only [head, op_fieldsOf, guard_fieldsOf, neg_fieldsOf, hop] using eq_head_add_low hn
  clear_value head
  rw [op_fieldsOf]
  generalize formOf (opcOf op) = f at hok
  cases f <;> simp only [fieldsOf, formOk, nbits, Nat.reduceAdd, Nat.reduceSub, Nat.reducePow, Bool.and_eq_true, beq_iff_eq] at hok ⊢ <;>
    omega

/-- The fields of a word lie in their ranges. -/
theorem fieldsOk_fieldsOf (op : Op) (n0 : Nat) {n1 : Nat} (hn : n1 < 2 ^ 32) :
    fieldsOk (fieldsOf (formOf (opcOf op)) op n0 n1) = true := by
  unfold fieldsOk
  rw [op_fieldsOf]
  generalize formOf (opcOf op) = f
  cases f <;> simp [fieldsOf, nbits, Nat.mod_lt] <;> omega

/-- Fields in their ranges read back from the word they make up, whose reserved bits are zero. -/
theorem fields_encode0 {i : Ins} (h : fieldsOk i = true) :
    nbits (encode0 i) 31 26 = opcOf i.op ∧ formOk (formOf (opcOf i.op)) (encode0 i) = true ∧
      fieldsOf (formOf (opcOf i.op)) i.op (encode0 i) i.w1 = i := by
  have hopc := opcOf_lt i.op
  obtain ⟨op, g, neg, rd, ra, rb, fn, imm, w1⟩ := i
  have hneg := bnat_le_one neg
  unfold fieldsOk at h
  unfold encode0
  dsimp only at h hopc ⊢
  generalize opcOf op = opc at *
  generalize formOf opc = f at *
  cases f <;>
    simp only [fieldsOf, formOk, nbits, Nat.reduceAdd, Nat.reduceSub, Nat.reducePow, Ins.mk.injEq, Bool.and_eq_true, beq_iff_eq,
      decide_eq_true_eq, true_and, and_true] at h ⊢
  case' reg | imm | wide | br | vec | mxu => refine ⟨by omega, ?_⟩
  case' loop | wait | dma => refine ⟨by omega, by omega, ?_⟩
  all_goals refine ⟨by omega, beq_one_of_bnat ?_, ?_⟩ <;> omega

/-! ### Instructions (R60, R75, R76) -/

/-- A long form holds the second word. -/
theorem w1_fieldsOf_of_long {op : Op} {n0 : Nat} (n1 : Nat) (h : isLong n0 = true) :
    (fieldsOf (formOf (nbits n0 31 26)) op n0 n1).w1 = n1 := by
  unfold isLong at h
  rcases Bool.or_eq_true_iff.mp h with h | h <;> rw [beq_iff_eq.mp h] <;> rfl

theorem decodeIns_eq_some {binder : Bool} {n0 n1 : Nat} {i : Ins} (h : decodeIns binder n0 n1 = some i) :
    ∃ op, (opOf (nbits n0 31 26) (fnOf (formOf (nbits n0 31 26)) n0)).bind (fun o => cvtOp o (fnOf (formOf (nbits n0 31 26)) n0)) = some op ∧
      i = fieldsOf (formOf (nbits n0 31 26)) op n0 n1 ∧ formOk (formOf (nbits n0 31 26)) n0 = true ∧ legal binder i = true ∧
      (if binder then binderRuns op else !binderOnly op) = true := by
  unfold decodeIns at h
  dsimp only at h
  split at h
  next => cases h
  next op hop =>
    obtain ⟨hok, hi⟩ := Option.ite_none_right_eq_some.mp h
    simp only [Bool.and_eq_true] at hok
    obtain ⟨⟨hform, hlegal⟩, hissue⟩ := hok
    cases hi
    exact ⟨op, hop, rfl, hform, hlegal, hissue⟩

/-- Settles O59. A word's fields and the word make up each other form by form; which operation the fields name is the same look at
the opcode and the function code on both sides. -/
theorem instructionEncoding : Obligations.InstructionEncoding := by
  unfold Obligations.InstructionEncoding
  refine ⟨?decode, ?encode⟩
  case decode =>
    intro binder i hok
    simp only [insOk, Bool.and_eq_true, beq_iff_eq] at hok
    obtain ⟨⟨⟨hfields, hop⟩, hlegal⟩, hissue⟩ := hok
    obtain ⟨hopc, hform, hi⟩ := fields_encode0 hfields
    simp [decodeIns, hopc, hop, hform, hi, hlegal, hissue]
  case encode =>
    intro binder n0 n1 i h0 h1 hdec
    obtain ⟨op, hop, hi, hform, hlegal, hissue⟩ := decodeIns_eq_some hdec
    have hopc := opcOf_of_bind hop
    have hw1 := w1_fieldsOf_of_long (op := op) (n0 := n0) n1
    rw [← hopc] at hop hi hform hw1
    subst hi
    have henc := encode0_fieldsOf n1 hopc h0 hform
    refine ⟨?_, henc, hw1⟩
    simp only [insOk, henc, op_fieldsOf, fieldsOk_fieldsOf op n0 h1, hop, hlegal, hissue, beq_self_eq_true, Bool.and_self]
end Sys2Proof.Machine
end

section
/-!
PROOFS. The grain chapter: scalar and predicate instructions, their frame, branches, loops and halts.
-/
namespace Sys2Proof.Machine

/-! ### Instructions on the shared part of their issuer -/

/-- An instruction on the shared part of its issuer that issues takes its effect there, and moves on. -/
theorem coreIns_of_issues {op : Op} {u : Issuer} {s : State} {i : Ins} (f : Ins → Core → Core) (h : issues op u s i = true) :
    coreIns op u s f = setCore (issued u s) u (advance (f i (core (issued u s) u)) (insLen op)) :=
  issue_of_issues _ h

theorem pGet_issued (u : Issuer) (s : State) (k : Nat) : pGet (core (issued u s) u) k = pGet (core s u) k := by
  rw [core_issued]; rfl

section Results

variable {op : Op} {mk : Issuer → Sys2Proof.Instr} (hlen : insLen op = 1)
include hlen

/-- An instruction of one word whose effect is a write of s[rd] gives s[rd] that value. -/
theorem givesS_of_coreIns {v f : Core → Ins → Word} (hmk : ∀ u s, exec (mk u) s = .next (coreIns op u s (fun i c => sSet c i.rd (v c i))))
    (hv : ∀ u s i, v (core (issued u s) u) i = f (core s u) i) : givesS op mk f := by
  intro u s i h
  rw [hmk, coreIns_of_issues _ h, hlen, hv]
  rfl

theorem givesS_of_alu {v : Word → Word → Word} (hmk : ∀ u s, exec (mk u) s = alu op v u s) :
    givesS op mk (fun c i => v (sGet c i.ra) (sGet c i.rb)) :=
  givesS_of_coreIns hlen hmk fun u s i => by simp only [sGet_issued]

theorem givesS_of_aluImm {v : Word → Nat → Word} (hmk : ∀ u s, exec (mk u) s = aluImm op v u s) :
    givesS op mk (fun c i => v (sGet c i.ra) i.imm) :=
  givesS_of_coreIns hlen hmk fun u s i => by simp only [sGet_issued]

end Results

theorem givesS_congr {op : Op} {mk : Issuer → Sys2Proof.Instr} {f g : Core → Ins → Word} (h : givesS op mk f)
    (hfg : ∀ c i, f c i = g c i) : givesS op mk g := by
  have e : f = g := funext₂ hfg
  rwa [← e]

/-- A word whose upper half is replaced keeps its lower half. -/
theorem setBits_upper (x : Word) (v : Nat) : setBits x 31 16 v = BitVec.ofNat 32 (x.toNat % 2 ^ 16 + v % 2 ^ 16 * 2 ^ 16) := by
  have hlow : ~~~BitVec.ofNat 32 ((2 ^ (31 + 1 - 16) - 1) * 2 ^ 16) = BitVec.ofNat 32 (2 ^ 16 - 1) := by decide
  have hsum : x.toNat % 2 ^ 16 + v % 2 ^ 16 * 2 ^ 16 = 2 ^ 16 * (v % 2 ^ 16) + x.toNat % 2 ^ 16 := by omega
  refine BitVec.eq_of_getLsbD_eq fun j hj => ?_
  simp only [setBits, hlow, hsum, BitVec.getLsbD_or, BitVec.getLsbD_and, BitVec.getLsbD_ofNat, hj, decide_true, Bool.true_and,
    Nat.testBit_two_pow_mul_add _ (Nat.mod_lt _ (Nat.two_pow_pos 16)), Nat.testBit_mul_two_pow, Nat.testBit_two_pow_sub_one,
    Nat.testBit_mod_two_pow]
  by_cases h : j < 16
  · simp [h, BitVec.getLsbD]
  · have hfield : 16 ≤ j ∧ j - 16 < 16 := by omega
    simp [h, hfield]

/-! ### Leading zeros and set bits (R785) -/

theorem lzc_eq {k x : Nat} (h : x < 2 ^ k) : lzc k x = if x = 0 then k else k - 1 - Nat.log2 x := by
  induction k with
  | zero => simp_all [lzc]
  | succ k ih =>
    unfold lzc
    by_cases hx : x < 2 ^ k
    · have h0 : ¬ x / 2 ^ k % 2 = 1 := by simp [Nat.div_eq_of_lt hx]
      rw [if_neg h0, ih hx]
      split
      · omega
      next hne =>
        have := (Nat.log2_lt hne).mpr hx
        omega
    · have h1 : x / 2 ^ k = 1 := by
        apply Nat.div_eq_of_lt_le <;> omega
      have hne : x ≠ 0 := by
        rintro rfl
        exact hx (Nat.two_pow_pos k)
      have hlog : Nat.log2 x = k := by
        have h2 := (Nat.log2_lt hne).mpr h
        have h3 := (Nat.le_log2 hne).mpr (not_lt.mp hx)
        omega
      simp [h1, hne, hlog]

theorem popc_eq (k x : Nat) : popc k x = ((List.range k).filter (fun j => x.testBit j)).length := by
  induction k generalizing x with
  | zero => rfl
  | succ k ih =>
    have hstep : (fun j => x.testBit j) ∘ Nat.succ = fun j => (x / 2).testBit j := funext fun j => Nat.testBit_succ x j
    rw [popc, ih, List.range_succ_eq_map, List.filter_cons, List.filter_map, hstep, Nat.testBit_zero]
    rcases Nat.mod_two_eq_zero_or_one x with h | h <;> simp [h, Nat.add_comm]

/-! ### Scalar arithmetic (R77, R783, R785) -/

/-- Settles O2. Each is one arithmetic operation on two registers or on a register and an immediate, whose registers an issue keeps. -/
theorem scalarArithmetic : Obligations.ScalarArithmetic := by
  unfold Obligations.ScalarArithmetic
  refine ⟨⟨?add, ?sub, ?and, ?or, ?xor, ?slt, ?sltu, ?mul, ?mulh⟩, ?addi, ?andi, ?ori, ?xori, ?li, ?lih, ?shi⟩
  case add => exact givesS_of_alu rfl fun _ _ => rfl
  case sub => exact givesS_of_alu rfl fun _ _ => rfl
  case and => exact givesS_of_alu rfl fun _ _ => rfl
  case or => exact givesS_of_alu rfl fun _ _ => rfl
  case xor => exact givesS_of_alu rfl fun _ _ => rfl
  case slt =>
    have h := givesS_of_alu (op := .slt) (mk := .slt) (v := fun a b => if a.toInt < b.toInt then 1 else 0) rfl fun _ _ => rfl
    exact givesS_congr h fun c i => by simp [BitVec.slt]
  case sltu =>
    have h := givesS_of_alu (op := .sltu) (mk := .sltu) (v := fun a b => if a.toNat < b.toNat then 1 else 0) rfl fun _ _ => rfl
    exact givesS_congr h fun c i => by simp [BitVec.ult]
  case mul => exact givesS_of_alu rfl fun _ _ => rfl
  case mulh => exact givesS_of_alu (v := fun a b => BitVec.ofInt 32 (a.toInt * b.toInt / 2 ^ 32)) rfl fun _ _ => rfl
  case addi => exact givesS_of_aluImm (v := fun a k => a + sext 12 k) rfl fun _ _ => rfl
  case andi => exact givesS_of_aluImm (v := fun a k => a &&& word k) rfl fun _ _ => rfl
  case ori => exact givesS_of_aluImm (v := fun a k => a ||| word k) rfl fun _ _ => rfl
  case xori => exact givesS_of_aluImm (v := fun a k => a ^^^ word k) rfl fun _ _ => rfl
  case li => exact givesS_of_aluImm (v := fun _ k => sext 17 k) rfl fun _ _ => rfl
  case lih =>
    intro u s i h
    rw [show exec (.lih u) s = execLih u s from rfl, execLih, coreIns_of_issues _ h, sGet_issued, setBits_upper]
    rfl
  case shi =>
    have h := givesS_of_aluImm (op := .shi) (mk := .shi) (v := fun a k => shiBy a (nbits k 11 10) (nbits k 4 0)) rfl fun _ _ => rfl
    exact givesS_congr h fun c i => by simp [shiBy, nbits]

theorem regKey_rGrain_ne {g h blk blk' off off' : Nat} (ho : off < 2 ^ 12) (ho' : off' < 2 ^ 12) (hb : blk < 2 ^ 6) (hb' : blk' < 2 ^ 6)
    (hne : blk ≠ blk' ∨ off ≠ off') : regKey (rGrain g blk off) ≠ regKey (rGrain h blk' off') := by
  simp only [regKey, regAddr, rGrain]
  omega

/-- Of a grain's registers an issue changes the issue counter alone (R124). -/
theorem reg_issued_rGrain (u : Issuer) (s : State) (g : Nat) {blk off : Nat} (hb : blk < 2 ^ 6) (ho : off < 2 ^ 12)
    (hne : blk ≠ 1 ∨ off ≠ 0x02C) : reg (issued u s) (rGrain g blk off) = reg s (rGrain g blk off) :=
  regsKept_issued u s _ fun _ _ => regKey_rGrain_ne ho (by decide) hb (by decide) hne

theorem grainPart_issued (u : Issuer) (s : State) (g : Nat) : grainPart (issued u s) g = grainPart s g :=
  congrArg (fun w => bits w 5 0) (reg_issued_rGrain u s g (by decide) (by decide) (by decide))

theorem imageCoord_issued (u : Issuer) (s : State) (g : Nat) : imageCoord (issued u s) g = imageCoord s g := by
  have hpart := grainPart_issued u s g
  obtain ⟨gs, hs, rs, h⟩ := restKept_issued u s
  simp only [imageCoord, hpart]
  rw [h]
  rfl

theorem cycleCount_issued (u : Issuer) (s : State) : cycleCount (issued u s) (core (issued u s) u) = s.cycle - (core s u).cycle0 := by
  rw [core_issued]
  obtain ⟨gs, hs, rs, h⟩ := restKept_issued u s
  rw [h]
  rfl

/-- Settles O3. As the arithmetic of R77; the counter and the coordinate are those before the issue. -/
theorem r785ScalarFunctions : Obligations.R785ScalarFunctions := by
  unfold Obligations.R785ScalarFunctions
  refine ⟨?min, ?max, ?sll, ?srl, ?sra, ?clz, ?popc, ?rdcyc, ?rdid⟩
  case min =>
    have h := givesS_of_alu (op := .minS) (mk := .minS) (v := fun a b => if b.toInt < a.toInt then b else a) rfl fun _ _ => rfl
    exact givesS_congr h fun c i => by simp [BitVec.slt]
  case max =>
    have h := givesS_of_alu (op := .maxS) (mk := .maxS) (v := fun a b => if a.toInt < b.toInt then b else a) rfl fun _ _ => rfl
    exact givesS_congr h fun c i => by simp [BitVec.slt]
  case sll =>
    have h := givesS_of_alu (op := .sll) (mk := .sll) (v := fun a b => a <<< (b.toNat % 32)) rfl fun _ _ => rfl
    exact givesS_congr h fun c i => by simp [BitVec.extractLsb'_toNat]
  case srl =>
    have h := givesS_of_alu (op := .srl) (mk := .srl) (v := fun a b => a >>> (b.toNat % 32)) rfl fun _ _ => rfl
    exact givesS_congr h fun c i => by simp [BitVec.extractLsb'_toNat]
  case sra =>
    have h := givesS_of_alu (op := .sra) (mk := .sra) (v := fun a b => a.sshiftRight (b.toNat % 32)) rfl fun _ _ => rfl
    exact givesS_congr h fun c i => by simp [BitVec.extractLsb'_toNat]
  case clz =>
    have h := givesS_of_alu (op := .clz) (mk := .clz) (v := fun a _ => word (lzc 32 a.toNat)) rfl fun _ _ => rfl
    refine givesS_congr h fun c i => ?_
    rw [lzc_eq (sGet c i.ra).isLt]
    by_cases hz : sGet c i.ra = 0
    · simp [hz, word]
    · have hn : (sGet c i.ra).toNat ≠ 0 := fun h0 => hz (BitVec.eq_of_toNat_eq h0)
      rw [if_neg hn, if_neg hz]
      rfl
  case popc =>
    have h := givesS_of_alu (op := .popc) (mk := .popc) (v := fun a _ => word (popc 32 a.toNat)) rfl fun _ _ => rfl
    exact givesS_congr h fun c i => by rw [popc_eq]; rfl
  case rdcyc =>
    intro u s i h
    rw [show exec (.rdcyc u) s = execRdcyc u s from rfl, execRdcyc, issue_of_issues _ h]
    dsimp only
    rw [cycleCount_issued]
    rfl
  case rdid =>
    intro u s i h
    rw [show exec (.rdid u) s = execRdid u s from rfl, execRdid, issue_of_issues _ h, imageCoord_issued]
    rfl

/-! ### Predicates (R79, R80) -/

/-- An instruction of one word whose effect is a write of p[d] gives p[d] that value. -/
theorem givesP_of_coreIns {op : Op} {mk : Issuer → Sys2Proof.Instr} {d : Ins → Nat} {v : Core → Ins → Bool} (hlen : insLen op = 1)
    (hmk : ∀ u s, exec (mk u) s = .next (coreIns op u s (fun i c => pSet c (d i) (v c i))))
    (hv : ∀ u s i, v (core (issued u s) u) i = v (core s u) i) : givesP op mk d v := by
  intro u s i h
  rw [hmk, coreIns_of_issues _ h, hlen, hv]
  rfl

theorem givesP_of_predOp {op : Op} {mk : Issuer → Sys2Proof.Instr} {v : Bool → Bool → Bool} (hlen : insLen op = 1)
    (hmk : ∀ u s, exec (mk u) s = predOp op v u s) : givesP op mk (fun i => i.rd) (fun c i => v (pGet c i.ra) (pGet c i.rb)) :=
  givesP_of_coreIns hlen hmk fun u s i => by simp only [pGet_issued]

theorem pcmpFn_eq (k : Nat) (a b : Word) : pcmpFn k a b =
    if k = 0 then a == b else if k = 1 then a != b else if k = 2 then a.slt b else if k = 3 then b.sle a
    else if k = 4 then a.ult b else b.ule a := by
  unfold pcmpFn
  split <;> simp_all [BitVec.slt, BitVec.sle, BitVec.ult, BitVec.ule]

/-- The predicates gathered are the sum of the powers of two of those that hold (R80). -/
theorem predBits_eq (c : Core) : predBits c = ((List.range 8).filter (fun k => pGet c k)).foldl (fun a k => a + 2 ^ k) 0 := by
  have hstep (b : Bool) (a n : Nat) : (if b = true then a + n else a) = a + n * bnat b := by cases b <;> simp [bnat]
  have hbit (b : Bool) : bnat b % 2 = bnat b := by cases b <;> rfl
  rw [List.foldl_filter, show List.range 8 = [0, 1, 2, 3, 4, 5, 6, 7] from rfl]
  simp only [predBits, show List.range 8 = [0, 1, 2, 3, 4, 5, 6, 7] from rfl, List.map, packFields, List.foldl, hstep, Nat.pow_one, hbit]
  ring

/-- Settles O4. PCMP and PCMPI are one comparison, chosen by the condition; the others combine predicates bit by bit. -/
theorem predicateResults : Obligations.PredicateResults := by
  unfold Obligations.PredicateResults
  intro cond
  have hcond : pcmpFn = cond := funext fun k => funext₂ fun a b => pcmpFn_eq k a b
  clear_value cond
  subst hcond
  refine ⟨?pcmp, ?pcmpi, ?pand, ?por, ?pxor, ?pandn, ?s2p, ?p2s⟩
  case pcmp => exact givesP_of_coreIns rfl (fun _ _ => rfl) fun u s i => by simp only [sGet_issued]
  case pcmpi => exact givesP_of_coreIns rfl (fun _ _ => rfl) fun u s i => by simp only [sGet_issued]
  case pand => exact givesP_of_predOp (v := fun a b => a && b) rfl fun _ _ => rfl
  case por => exact givesP_of_predOp (v := fun a b => a || b) rfl fun _ _ => rfl
  case pxor => exact givesP_of_predOp (v := fun a b => a != b) rfl fun _ _ => rfl
  case pandn => exact givesP_of_predOp (v := fun a b => a && !b) rfl fun _ _ => rfl
  case s2p =>
    have hne (a : Word) : decide (a ≠ 0) = (a != 0) := by rw [Bool.eq_iff_iff]; simp
    simp only [hne]
    exact givesP_of_coreIns rfl (fun _ _ => rfl) fun u s i => by simp only [sGet_issued]
  case p2s =>
    intro u s i h
    have hkept : predBits (core (issued u s) u) = predBits (core s u) := by simp only [predBits, pGet_issued]
    rw [show exec (.p2s u) s = execP2s u s from rfl, execP2s, coreIns_of_issues _ h, hkept, predBits_eq]
    rfl

/-! ### Hard-wired registers (R59) -/

theorem wroteS_zero (u : Issuer) (s : State) (v : Word) : wroteS u s 0 v = next1 (issued u s) u := rfl

theorem wroteP_zero (u : Issuer) (s : State) (b : Bool) : wroteP u s 0 b = next1 (issued u s) u := rfl

/-- Settles O54. A write of s0 or p0 changes nothing, so that what is left of an instruction with destination 0 is its moving on. -/
theorem r59HardwiredRegisters : Obligations.R59HardwiredRegisters := by
  unfold Obligations.R59HardwiredRegisters
  obtain ⟨⟨hadd, _⟩, ⟨_, _, _, _, hli, _⟩⟩ := scalarArithmetic
  obtain ⟨_, _, hpand, _⟩ := predicateResults
  refine ⟨fun c => ⟨sGet_zero c, pGet_zero c⟩, sSet_zero, pSet_zero, ?add, ?li, ?pand⟩
  case add =>
    intro u s i h hrd
    rw [hadd u s i h, hrd, wroteS_zero]
  case li =>
    intro u s i h hrd
    rw [hli u s i h, hrd, wroteS_zero]
  case pand =>
    intro u s i h hrd
    rw [hpand u s i h]
    dsimp only
    rw [hrd, wroteP_zero]

/-! ### The frame of the scalar and predicate instructions (R124) -/

/-- A unit's shared part with the registers, predicates, loops and program counters of another. -/
def coreWith (c d : Core) : Core := { d with s := c.s, p := c.p, loops := c.loops, pc := c.pc, lastPc := c.lastPc }

theorem advance_frame (c : Core) (n : Nat) : { advance c n with loops := c.loops, pc := c.pc } = c := pcAfter_frame c _

theorem sSet_frame (c : Core) (k : Nat) (v : Word) : { sSet c k v with s := c.s } = c := by
  unfold sSet
  split <;> rfl

theorem pSet_frame (c : Core) (k : Nat) (b : Bool) : { pSet c k b with p := c.p } = c := by
  unfold pSet
  split <;> rfl

@[simp] theorem coreWith_advance (c d : Core) (n : Nat) : coreWith c (advance d n) = coreWith c d :=
  (congrArg (coreWith c) (advance_frame d n) :)
@[simp] theorem coreWith_sSet (c d : Core) (k : Nat) (v : Word) : coreWith c (sSet d k v) = coreWith c d :=
  (congrArg (coreWith c) (sSet_frame d k v) :)
@[simp] theorem coreWith_pSet (c d : Core) (k : Nat) (b : Bool) : coreWith c (pSet d k b) = coreWith c d :=
  (congrArg (coreWith c) (pSet_frame d k b) :)
@[simp] theorem coreWith_issued (u : Issuer) (s : State) : coreWith (core s u) (core (issued u s) u) = core s u := by
  rw [core_issued]; rfl

/-- What an instruction on the shared part of its issuer leaves of a state: all but its registers, predicates, loops and program counter,
and the grain's issue counter. -/
def coreFrame (u : Issuer) (s t : State) : Prop :=
  restKept s t ∧ bytesKept s t ∧ regsKept u s t ∧ (∀ w, w ≠ u → core t w = core s w) ∧
    (∀ g : Nat, { grain t g with core := (grain s g).core } = grain s g) ∧ (∀ h : Nat, { sheaf t h with core := (sheaf s h).core } = sheaf s h) ∧
    coreWith (core s u) (core t u) = core s u

theorem regsKept_setCore {u w : Issuer} {s t : State} (c : Core) (h : regsKept u s t) : regsKept u s (setCore t w c) :=
  fun l hl => (reg_setCore t w c l).trans (h l hl)

/-- Units that differ in their shared part alone hold the same memories. -/
theorem bytesKept_of_units {s t : State} (hg : ∀ g : Nat, { grain t g with core := (grain s g).core } = grain s g)
    (hs : ∀ h : Nat, { sheaf t h with core := (sheaf s h).core } = sheaf s h) : bytesKept s t :=
  ⟨fun g a => by rw [← hg g], fun h a => by rw [← hs h]⟩

/-- A new shared part of the issuer that keeps all but its registers, predicates, loops and program counter keeps the rest of the state. -/
theorem coreFrame_setCore_issued {u : Issuer} {s : State} {c : Core} (hc : coreWith (core s u) c = core s u) :
    coreFrame u s (setCore (issued u s) u c) := by
  have hgrains (g : Nat) : { grain (setCore (issued u s) u c) g with core := (grain s g).core } = grain s g := by
    rw [← grain_issued u s g, ← grain_setCore (issued u s) u c g]
  have hsheaves (h : Nat) : { sheaf (setCore (issued u s) u c) h with core := (sheaf s h).core } = sheaf s h := by
    rw [← sheaf_issued u s h, ← sheaf_setCore (issued u s) u c h]
  refine ⟨restKept_trans (restKept_issued u s) (restKept_setCore _ u c), bytesKept_of_units hgrains hsheaves,
    regsKept_setCore c (regsKept_issued u s), fun w hw => ?_, hgrains, hsheaves, ?_⟩
  · rw [core_setCore_other _ _ hw, core_issued_other s hw]
  · rwa [core_setCore_same]

theorem wroteS_frame (u : Issuer) (s : State) (rd : Nat) (v : Word) :
    coreFrame u s (wroteS u s rd v) ∧ (∀ k, k ≠ rd → sGet (core (wroteS u s rd v) u) k = sGet (core s u) k) ∧
      (∀ k, pGet (core (wroteS u s rd v) u) k = pGet (core s u) k) := by
  refine ⟨coreFrame_setCore_issued ?_, fun k hk => ?_, fun k => ?_⟩
  · simp only [coreWith_advance, coreWith_sSet, coreWith_issued]
  · simp only [wroteS, core_setCore_same, sGet_advance, sGet_sSet_other _ _ hk, sGet_issued]
  · simp only [wroteS, core_setCore_same, pGet_advance, pGet_sSet, pGet_issued]

theorem wroteP_frame (u : Issuer) (s : State) (rd : Nat) (b : Bool) :
    coreFrame u s (wroteP u s rd b) ∧ (∀ k, k ≠ rd → pGet (core (wroteP u s rd b) u) k = pGet (core s u) k) ∧
      (∀ k, sGet (core (wroteP u s rd b) u) k = sGet (core s u) k) := by
  refine ⟨coreFrame_setCore_issued ?_, fun k hk => ?_, fun k => ?_⟩
  · simp only [coreWith_advance, coreWith_pSet, coreWith_issued]
  · simp only [wroteP, core_setCore_same, pGet_advance, pGet_pSet_other _ _ hk, pGet_issued]
  · simp only [wroteP, core_setCore_same, sGet_advance, sGet_pSet, sGet_issued]

/-- Settles O55. Each of them writes one scalar register or one predicate and moves on, and that write has the frame. -/
theorem scalarFrame : Obligations.ScalarFrame := by
  unfold Obligations.ScalarFrame
  intro unit frameS frameP
  have wrote {op : Op} {mk : Issuer → Instr} {f : Issuer → State → Ins → Word}
      (h : ∀ u s i, issues op u s i = true → exec (mk u) s = .next (wroteS u s i.rd (f u s i))) : frameS op mk := by
    intro u s t i hi he
    cases (h u s i hi).symm.trans he
    exact wroteS_frame u s i.rd _
  have gives {op : Op} {mk : Issuer → Instr} {f : Core → Ins → Word} (h : givesS op mk f) : frameS op mk := wrote h
  have givesPred {op : Op} {mk : Issuer → Instr} {f : Core → Ins → Bool} (h : givesP op mk (fun i => i.rd) f) : frameP op mk := by
    intro u s t i hi he
    cases (h u s i hi).symm.trans he
    exact wroteP_frame u s i.rd _
  clear_value frameS frameP
  obtain ⟨⟨add, sub, and, or, xor, slt, sltu, mul, mulh⟩, addi, andi, ori, xori, li, lih, shi⟩ := scalarArithmetic
  obtain ⟨min, max, sll, srl, sra, clz, popc, rdcyc, rdid⟩ := r785ScalarFunctions
  obtain ⟨_, _, pand, por, pxor, pandn, s2p, p2s⟩ := predicateResults
  exact ⟨⟨gives add, gives sub, gives and, gives or, gives xor, gives sll, gives srl, gives sra, gives slt, gives sltu, gives min, gives max,
      gives mul, gives mulh, gives clz, gives popc⟩,
    ⟨gives addi, gives andi, gives ori, gives xori, gives shi, gives li, wrote lih, wrote p2s, wrote rdcyc, wrote rdid⟩,
    givesPred pand, givesPred por, givesPred pxor, givesPred pandn, givesPred s2p⟩

/-! ### Branches, loops and halts (R66, R74, R112, R784) -/

theorem pc_issued (u : Issuer) (s : State) : (core (issued u s) u).pc = (core s u).pc := by rw [core_issued]

/-- A branch to a word of the code writes the link and goes there (R74). -/
theorem branchTo_of_inside {u : Issuer} {s : State} {target : Int} {t : Nat} (i : Ins) (ht : target = t) (hin : t < codeWords u) :
    branchTo u i target s = setCore s u (jumpTo (sSet (core s u) i.rd (word ((core s u).pc + 1))) t) := by
  subst ht
  have hout : ¬((t : Int) < 0 ∨ (codeWords u : Int) ≤ t) := by omega
  unfold branchTo
  dsimp only
  rw [if_neg hout, Int.toNat_natCast]

theorem jrTarget_grain (g : GrainId) (c : Core) (i : Ins) :
    jrTarget (.grain g) c i = ((sGet c i.ra).toNat % 2 ^ 10 : Int) + sgn 12 i.imm := by
  have hbits : ((bits (sGet c i.ra) 9 0 : Nat) : Int) = (sGet c i.ra).toNat % 2 ^ 10 := by rw [bits_zero_eq_mod]; push_cast; rfl
  rw [← hbits]
  rfl

theorem jrTarget_binder (h : SheafId) (c : Core) (i : Ins) :
    jrTarget (.binder h) c i = (((sGet c i.ra).toNat % 2 ^ 16 : Int) + sgn 12 i.imm) % 2 ^ 16 := by
  have hbits : ((bits (sGet c i.ra) 15 0 : Nat) : Int) = (sGet c i.ra).toNat % 2 ^ 16 := by rw [bits_zero_eq_mod]; push_cast; rfl
  rw [← hbits]
  rfl

/-- Settles O5. Both are one branch, taken to a word of the code. -/
theorem branchesAndLinks : Obligations.BranchesAndLinks := by
  unfold Obligations.BranchesAndLinks
  refine ⟨?br, ?jrGrain, ?jrBinder⟩
  case br =>
    intro u s i t h ht hin
    refine congrArg Host.Outcome.next ((issue_of_issues _ h).trans ?_)
    rw [pc_issued, branchTo_of_inside i ht hin, pc_issued]
    rfl
  case jrGrain =>
    intro g s i t h ht hin
    refine congrArg Host.Outcome.next ((issue_of_issues _ h).trans ?_)
    rw [jrTarget_grain, sGet_issued, branchTo_of_inside (u := .grain g) i ht hin, pc_issued]
    rfl
  case jrBinder =>
    intro h s i hi
    refine congrArg Host.Outcome.next ((issue_of_issues _ hi).trans ?_)
    rw [jrTarget_binder, sGet_issued]
    generalize ((sGet (core s (.binder h)) i.ra).toNat % 2 ^ 16 : Int) + sgn 12 i.imm = z
    have hin : (z % 2 ^ 16).toNat < codeWords (.binder h) := by show _ < 65536; omega
    rw [branchTo_of_inside i (Int.toNat_of_nonneg (by omega)).symm hin, pc_issued]
    rfl

theorem reg_issued_rCtrl (u : Issuer) (s : State) : reg (issued u s) (rCtrl u) = reg s (rCtrl u) := by
  cases u with
  | grain g => exact reg_issued_rGrain _ s g (by decide) (by decide) (by decide)
  | binder h => exact regsKept_issued (.binder h) s _ fun g hg => nomatch hg

/-- Settles O6. A halt leaves a binder's ears alone, so that its state and RUN are as HALT wrote them. -/
theorem haltBreakNop : Obligations.HaltBreakNop := by
  unfold Obligations.HaltBreakNop
  refine ⟨?nop, ?halt, ?stops, ?passes, ?halted⟩
  case nop => exact fun u s i h => congrArg Host.Outcome.next (issue_of_issues _ h)
  case halt => exact fun u s i h => congrArg Host.Outcome.next (issue_of_issues _ h)
  case stops =>
    intro u s i h hon
    refine congrArg Host.Outcome.next ((issue_of_issues _ h).trans (if_pos ?_))
    rwa [regBit, reg_issued_rCtrl]
  case passes =>
    intro u s i h hoff
    refine congrArg Host.Outcome.next ((issue_of_issues _ h).trans (if_neg (Bool.not_eq_true _ ▸ ?_)))
    rwa [regBit, reg_issued_rCtrl]
  case halted =>
    intro h s
    have hbit (x : Word) : bit (setBits x 0 0 0) 0 = false := by simp [bit, setBits]
    exact ⟨by simp [haltCore, leave, setRegF], by simp [haltCore, leave, setRegF, regBit, hbit]⟩

/-- Settles O7. The counts are the two branches of a start whose end does not lie before its body. -/
theorem hardwareLoops : Obligations.HardwareLoops := by
  unfold Obligations.HardwareLoops
  intro stop
  have hstop (u : Issuer) (s : State) (i : Ins) : loopStop u (core (issued u s) u).pc i.imm = stop u s i := by
    rw [pc_issued]; rfl
  have hloops (u : Issuer) (s : State) : (core (issued u s) u).loops = (core s u).loops := by rw [core_issued]
  refine ⟨?starts, ?skips⟩
  case starts =>
    intro u s i h hend hcount
    refine congrArg Host.Outcome.next ((issue_of_issues _ h).trans ?_)
    unfold loopStart
    dsimp only
    rw [hstop, hloops, pc_issued, sGet_issued, if_neg (by omega), if_neg hcount]
  case skips =>
    intro u s i h hend hcount
    refine congrArg Host.Outcome.next ((issue_of_issues _ h).trans ?_)
    unfold loopStart
    dsimp only
    rw [hstop, hloops, pc_issued, sGet_issued, if_neg (by omega), if_pos hcount]

end Sys2Proof.Machine
end

section
/-!
PROOFS. The grain chapter: the vector instructions and their frame.
-/
namespace Sys2Proof.Machine

/-! ### Instructions on the record of a grain -/

/-- A vector instruction of one word gives its effect on the grain's record. -/
theorem givesG_of_vecIns {op : Op} {mk : Issuer → Sys2Proof.Instr} {f : Ins → Grain → Grain} (hlen : insLen op = 1)
    (hmk : ∀ g s, exec (mk (.grain g)) s = vecIns op (.grain g) s f) : givesG op mk f := by
  intro g s i h
  rw [hmk, vecIns, grainIns, issue_of_issues _ h, hlen]
  rfl

theorem wrapLane_eq (w : Nat) (z : Int) : wrapLane w z = (z % 2 ^ w).toNat := by
  rw [wrapLane]
  push_cast
  rfl

/-! ### Lane-wise arithmetic (R77, R133, R786) -/

/-- Settles O11. Each is one effect on the grain's record, which is the lane-wise operation of the statement. -/
theorem vectorArithmetic : Obligations.VectorArithmetic := by
  unfold Obligations.VectorArithmetic
  simp only [← wrapLane_eq]
  refine ⟨?vadd, ?vsub, ?vmul, ?vmin, ?vmax, ?vabs, ?vneg, ?vfma, ?vshl, ?vshr, ?vsar⟩
  case vadd => exact givesG_of_vecIns rfl fun _ _ => rfl
  case vsub => exact givesG_of_vecIns rfl fun _ _ => rfl
  case vmul => exact givesG_of_vecIns rfl fun _ _ => rfl
  case vmin => exact givesG_of_vecIns rfl fun _ _ => rfl
  case vmax => exact givesG_of_vecIns rfl fun _ _ => rfl
  case vabs => exact givesG_of_vecIns rfl fun _ _ => rfl
  case vneg => exact givesG_of_vecIns rfl fun _ _ => rfl
  case vfma => exact givesG_of_vecIns rfl fun _ _ => rfl
  case vshl => exact givesG_of_vecIns rfl fun _ _ => rfl
  case vshr => exact givesG_of_vecIns rfl fun _ _ => rfl
  case vsar => exact givesG_of_vecIns rfl fun _ _ => rfl

/-- Settles O12. Each is one effect on the grain's record; a comparison fills a lane with its answer. -/
theorem vectorLogicAndFunctions : Obligations.VectorLogicAndFunctions := by
  unfold Obligations.VectorLogicAndFunctions
  refine ⟨?vand, ?vor, ?vxor, ⟨?vcmpeq, ?vcmplt, ?vcmple⟩, ?vexp2, ?vlog2, ?vrcp, ?vrsqrt⟩
  case vand => exact givesG_of_vecIns rfl fun _ _ => rfl
  case vor => exact givesG_of_vecIns rfl fun _ _ => rfl
  case vxor => exact givesG_of_vecIns rfl fun _ _ => rfl
  case vcmpeq => exact givesG_of_vecIns rfl fun _ _ => rfl
  case vcmplt => exact givesG_of_vecIns rfl fun _ _ => rfl
  case vcmple => exact givesG_of_vecIns rfl fun _ _ => rfl
  case vexp2 => exact givesG_of_vecIns rfl fun _ _ => rfl
  case vlog2 => exact givesG_of_vecIns rfl fun _ _ => rfl
  case vrcp => exact givesG_of_vecIns rfl fun _ _ => rfl
  case vrsqrt => exact givesG_of_vecIns rfl fun _ _ => rfl

/-- Settles O13. Each is one effect on the grain's record; VSEL selects alike in every element type. -/
theorem vectorSelectionsAndReductions : Obligations.VectorSelectionsAndReductions := by
  unfold Obligations.VectorSelectionsAndReductions
  refine ⟨⟨?vsel, ?vbcst, ?vext, ?vperm⟩, ?vrsum, ?vrmax, ?vrmin, ?vrdl⟩
  case vsel =>
    refine givesG_of_vecIns rfl fun g s => ?_
    change execVsel (.grain g) s = _
    simp only [execVsel, vec3, ite_self]
  case vbcst => exact givesG_of_vecIns rfl fun _ _ => rfl
  case vext => exact givesG_of_vecIns rfl fun _ _ => rfl
  case vperm => exact givesG_of_vecIns rfl fun _ _ => rfl
  case vrsum => exact givesG_of_vecIns rfl fun _ _ => rfl
  case vrmax => exact givesG_of_vecIns rfl fun _ _ => rfl
  case vrmin => exact givesG_of_vecIns rfl fun _ _ => rfl
  case vrdl => exact givesG_of_vecIns rfl fun _ _ => rfl

/-! ### The frame of a write to the grain's record (R124) -/

theorem grain_issued_other {g : GrainId} (s : State) {h : Nat} (hne : h ≠ g.val) : grain (issued (.grain g) s) h = grain s h := by
  simp [issued, setCore, grain_setGrain_other _ _ hne]

theorem sheaf_issued_grain (g : GrainId) (s : State) (h : Nat) : sheaf (issued (.grain g) s) h = sheaf s h := rfl

theorem grain_wroteG_same (g : GrainId) (s : State) (x : Grain) (n : Nat) :
    grain (wroteG g s x n) g = { x with core := advance x.core n } := by
  simp [wroteG, next1, setCore, core]

theorem grain_wroteG_other {g : GrainId} (s : State) (x : Grain) (n : Nat) {h : Nat} (hne : h ≠ g.val) :
    grain (wroteG g s x n) h = grain s h := by
  simp [wroteG, next1, setCore, grain_setGrain_other _ _ hne, grain_issued_other s hne]

theorem sheaf_wroteG (g : GrainId) (s : State) (x : Grain) (n h : Nat) : sheaf (wroteG g s x n) h = sheaf s h := rfl

theorem restKept_wroteG (g : GrainId) (s : State) (x : Grain) (n : Nat) : restKept s (wroteG g s x n) :=
  restKept_trans (restKept_issued (.grain g) s) (restKept_trans (restKept_setGrain _ _ _) (restKept_setCore _ (.grain g) _))

theorem regsKept_wroteG (g : GrainId) (s : State) (x : Grain) (n : Nat) : regsKept (.grain g) s (wroteG g s x n) :=
  regsKept_setCore _ fun l hl => regsKept_issued (.grain g) s l hl

theorem core_wroteG_other {g : GrainId} (s : State) (x : Grain) (n : Nat) {w : Issuer} (hne : w ≠ .grain g) :
    core (wroteG g s x n) w = core s w := by
  cases w with
  | grain h =>
    have hval : h.val ≠ g.val := fun e => hne (congrArg Issuer.grain (Fin.ext e))
    exact congrArg Grain.core (grain_wroteG_other s x n hval)
  | binder h => rfl

theorem getD_set!_other {α : Type} {n : Nat} (v : Vector α n) {j k : Nat} (a d : α) (h : k ≠ j) : (v.set! j a).getD k d = v.getD k d := by
  simp [Vector.getD, Vector.set!, Array.getD_eq_getD_getElem?, Ne.symm h]

theorem grain_issued_same (g : GrainId) (s : State) :
    grain (issued (.grain g) s) g = { grain s g with core := { (grain s g).core with lastPc := (grain s g).core.pc } } := by
  simp [issued, setCore, core]

/-- A grain that writes a vector register and moves on. -/
theorem grain_wroteG_vSet (g : GrainId) (s : State) (rd : Nat) (a : BitVec 512) :
    grain (wroteG g s (vSet (grain (issued (.grain g) s) g) rd a)) g = { grain s g with
      v := (grain s g).v.set! rd a, core := advance { (grain s g).core with lastPc := (grain s g).core.pc } 1 } := by
  rw [grain_wroteG_same, grain_issued_same]
  rfl

/-- Settles O56. Each of them writes one vector register of its grain and moves on, and that write has the frame. -/
theorem vectorFrame : Obligations.VectorFrame := by
  unfold Obligations.VectorFrame
  intro frame
  have wrote {op : Op} {mk : Issuer → Instr} {a : Ins → Grain → BitVec 512} (h : givesG op mk (fun i x => vSet x i.rd (a i x))) : frame op mk := by
    intro g s t i hi he
    cases (h g s i hi).symm.trans he
    have hsame := grain_wroteG_vSet g s i.rd (a i (grain (issued (.grain g) s) g))
    refine ⟨restKept_wroteG g s _ 1, ⟨fun k b => ?bytes, fun k b => rfl⟩, regsKept_wroteG g s _ 1,
      fun k hk => grain_wroteG_other s _ 1 hk, fun k => sheaf_wroteG g s _ 1 k, fun k hk => ?vregs, fun k => ?sregs, fun k => ?pregs, ?record⟩
    case bytes =>
      by_cases hk : k = g.val
      · subst hk; rw [hsame]
      · rw [grain_wroteG_other s _ 1 hk]
    case vregs =>
      rw [hsame]
      exact getD_set!_other _ _ _ hk
    case sregs =>
      show sGet (grain _ g).core k = _
      rw [hsame]
      exact sGet_advance _ 1 k
    case pregs =>
      show pGet (grain _ g).core k = _
      rw [hsame]
      exact pGet_advance _ 1 k
    case record => rw [hsame]
  clear_value frame
  obtain ⟨vadd, vsub, vmul, vmin, vmax, vabs, vneg, vfma, vshl, vshr, vsar⟩ := vectorArithmetic
  obtain ⟨vand, vor, vxor, _, vexp2, vlog2, vrcp, vrsqrt⟩ := vectorLogicAndFunctions
  exact ⟨⟨wrote vadd, wrote vsub, wrote vmul, wrote vmin, wrote vmax, wrote vabs, wrote vneg⟩,
    ⟨wrote vand, wrote vor, wrote vxor, wrote vshl, wrote vshr, wrote vsar⟩, wrote vexp2, wrote vlog2, wrote vrcp, wrote vrsqrt⟩

end Sys2Proof.Machine
end

section
/-!
PROOFS. The grain chapter: loads and stores, and the frame of the stores.
-/
namespace Sys2Proof.Machine

/-! ### Scalar loads and stores (R78, R112, R783) -/

/-- Settles O8. The five loads are one, each with its width and its extension. -/
theorem scalarLoads : Obligations.ScalarLoads := by
  unfold Obligations.ScalarLoads
  intro load
  have shared (op : Op) (mk : Issuer → EccFinds → Instr) (n : Nat) (ext : Nat → Word)
      (hexec : ∀ u ecc s, exec (mk u ecc) s = .next (loadOp op n ext u ecc s)) : load op mk n ext := fun u ecc s i h =>
    (hexec u ecc s).trans (congrArg Host.Outcome.next (issue_of_issues _ h))
  clear_value load
  refine ⟨?lw, ?lhu, ?lbu, ?lh, ?lb⟩
  case lw => exact shared .lw .lw 4 _ fun _ _ _ => rfl
  case lhu => exact shared .lhu .lhu 2 _ fun _ _ _ => rfl
  case lbu => exact shared .lbu .lbu 1 _ fun _ _ _ => rfl
  case lh => exact shared .lh .lh 2 _ fun _ _ _ => rfl
  case lb => exact shared .lb .lb 1 _ fun _ _ _ => rfl

theorem scalarAddr_issued (u w : Issuer) (s : State) (i : Ins) (n : Nat) :
    scalarAddr w (core (issued u s) u) i n = scalarAddr w (core s u) i n := by
  simp only [scalarAddr, sGet_issued]

theorem storeOp_of_grain {op : Op} {n : Nat} {g : GrainId} {s : State} {i : Ins} (h : issues op (.grain g) s i = true)
    (hin : scalarAddr (.grain g) (core s (.grain g)) i n < spdSize) :
    storeOp op n (.grain g) s = wroteG g s (spdPut (grain (issued (.grain g) s) g) (scalarAddr (.grain g) (core s (.grain g)) i n) n
      ((sGet (core s (.grain g)) i.rd).toNat % 256 ^ n)) := by
  rw [storeOp, issue_of_issues _ h]
  dsimp only
  rw [scalarAddr_issued, sGet_issued, if_neg (not_le.mpr hin)]
  rfl

theorem storeOp_of_binder {op : Op} {n : Nat} {b : SheafId} {s : State} {i : Ins} (h : issues op (.binder b) s i = true) :
    storeOp op n (.binder b) s = next1 (bmemWrite (issued (.binder b) s) b (scalarAddr (.binder b) (core s (.binder b)) i n) n
      ((sGet (core s (.binder b)) i.rd).toNat % 256 ^ n)) (.binder b) := by
  rw [storeOp, issue_of_issues _ h]
  dsimp only
  rw [scalarAddr_issued, sGet_issued]

/-- Settles O9. The three stores are one, each with its width. -/
theorem scalarStores : Obligations.ScalarStores := by
  unfold Obligations.ScalarStores
  intro store
  have shared (op : Op) (mk : Issuer → Instr) (n : Nat) (hexec : ∀ u s, exec (mk u) s = .next (storeOp op n u s)) : store op mk n :=
    ⟨fun g s i h hin => (hexec _ s).trans (congrArg Host.Outcome.next (storeOp_of_grain h hin)),
     fun b s i h => (hexec _ s).trans (congrArg Host.Outcome.next (storeOp_of_binder h))⟩
  clear_value store
  exact ⟨shared .sw .sw 4 fun _ _ => rfl, shared .sh .sh 2 fun _ _ => rfl, shared .sb .sb 1 fun _ _ => rfl⟩

/-! ### Vector loads and stores within the scratchpad (R78, R225 to R228) -/

theorem firstBad_eq_none {offs : List Nat} : firstBad offs = none ↔ ∀ a ∈ offs, a < spdSize := by
  simp [firstBad]

section Inside

variable {offs : List Nat} (hin : firstBad offs = none)
include hin

theorem faultAny_of_inside (s : State) (u : Issuer) (store : Bool) : faultAny s u store offs = s := by
  rw [faultAny, hin]

theorem readPieces_of_inside (x : Grain) (n : Nat) : readPieces x n offs = offs.map (fun a => spdBytes x a n) :=
  List.map_congr_left fun a ha => if_neg (not_le.mpr (firstBad_eq_none.mp hin a ha))

/-- Pieces at offsets inside the scratchpad are all written. -/
theorem writePieces_of_inside (x : Grain) (n : Nat) (v : Nat × Nat → Nat) :
    writePieces x n (offs.zipIdx.map (fun e => (e.1, v e))) = spdPuts x n (offs.zipIdx.map (fun e => (e.1, v e))) := by
  rw [writePieces, List.filter_eq_self.mpr]
  intro p hp
  obtain ⟨⟨a, k⟩, he, rfl⟩ := List.mem_map.mp hp
  exact decide_eq_true (firstBad_eq_none.mp hin a (List.fst_mem_of_mem_zipIdx he))

end Inside

theorem vecAddr_issued (u : Issuer) (s : State) (i : Ins) : vecAddr (core (issued u s) u) i = vecAddr (core s u) i := by
  simp only [vecAddr, sGet_issued]

theorem segOffs_issued (u : Issuer) (s : State) (i : Ins) : segOffs (core (issued u s) u) i = segOffs (core s u) i := by
  simp only [segOffs, sGet_issued]

theorem execVld_of_inside {g : GrainId} {s : State} {i : Ins} (ecc : EccFinds) (h : issues .vld (.grain g) s i = true)
    (hin : firstBad (fourRows (vecAddr (core s (.grain g)) i)) = none) :
    execVld (.grain g) ecc s = .next (
      let offs := fourRows (vecAddr (core s (.grain g)) i)
      let t := checkPieces ecc g 16 offs (issued (.grain g) s)
      next1 (setGrain t g { grain t g with
        v := (grain t g).v.set! i.rd (BitVec.ofNat 512 (packAll 128 (offs.map (fun a => spdBytes (grain t g) a 16)))) }) (.grain g)) := by
  rw [execVld, issue_of_issues _ h]
  dsimp only
  rw [vecAddr_issued, faultAny_of_inside hin, readPieces_of_inside hin]

theorem execVst_of_inside {g : GrainId} {s : State} {i : Ins} (h : issues .vst (.grain g) s i = true)
    (hin : firstBad (fourRows (vecAddr (core s (.grain g)) i)) = none) :
    execVst (.grain g) s = .next (
      let x := grain (issued (.grain g) s) g
      wroteG g s (spdPuts x 16 ((fourRows (vecAddr (core s (.grain g)) i)).zipIdx.map (fun e =>
        (e.1, (x.v.getD i.rd 0).toNat / 2 ^ (128 * e.2) % 2 ^ 128))))) := by
  rw [execVst, issue_of_issues _ h]
  dsimp only
  rw [vecAddr_issued, faultAny_of_inside hin, writePieces_of_inside hin]
  rfl

/-- The rows of an aligned group of 128 bytes lie in the scratchpad where the group does (R227). -/
theorem rowAt_group {x k : Nat} (hin : x / 128 * 128 < spdSize) (hk : k < 8) :
    rowAt (x / 128 * 128) k = x / 128 * 128 + 16 * k ∧ rowAt (x / 128 * 128) k < spdSize := by
  unfold rowAt
  unfold spdSize at hin ⊢
  omega

theorem execVldt_of_inside {g : GrainId} {s : State} {i : Ins} {a : Nat} (ecc : EccFinds) (h : issues .vldt (.grain g) s i = true)
    (ha : a = (sGet (core s (.grain g)) i.ra).toNat % 65536 / 128 * 128) (hin : a < spdSize) :
    execVldt (.grain g) ecc s = .next (
      let offs := (List.range 8).map (fun k => a + 16 * k)
      let t := starve g (checkPieces ecc g 16 offs (issued (.grain g) s))
      let r := packAll 128 (offs.map (fun b => spdBytes (grain t g) b 16))
      let q := if i.fn = 0 then transpose 8 16 r else transpose 16 4 r
      next1 (setGrain t g { grain t g with
        v := ((grain t g).v.set! i.rd (BitVec.ofNat 512 q)).set! (i.rd + 1) (BitVec.ofNat 512 (q / 2 ^ 512)) }) (.grain g)) := by
  subst ha
  have hrows : (List.range 8).map (rowAt ((sGet (core s (.grain g)) i.ra).toNat % 65536 / 128 * 128)) =
      (List.range 8).map (fun k => (sGet (core s (.grain g)) i.ra).toNat % 65536 / 128 * 128 + 16 * k) :=
    List.map_congr_left fun k hk => (rowAt_group hin (List.mem_range.mp hk)).1
  have hfit : firstBad ((List.range 8).map (fun k => (sGet (core s (.grain g)) i.ra).toNat % 65536 / 128 * 128 + 16 * k)) = none := by
    rw [← hrows, firstBad_eq_none]
    rintro b hb
    obtain ⟨k, hk, rfl⟩ := List.mem_map.mp hb
    exact (rowAt_group hin (List.mem_range.mp hk)).2
  rw [execVldt, issue_of_issues _ h]
  dsimp only
  rw [sGet_issued, hrows, faultAny_of_inside hfit, readPieces_of_inside hfit]

/-! ### Segments that no bank loses (R226, R228) -/

section Segments

variable {offs : List Nat} (hlost : ∀ k, k < 4 → segLost offs k = false)
include hlost

theorem strideFlag_of_none_lost (s : State) (g : Nat) : strideFlag s g offs = s := by
  refine if_neg ?_
  simpa using hlost

theorem segLost_of_mem_zipIdx {α : Type} {l : List α} (hl : l.length = 4) {e : α × Nat} (he : e ∈ l.zipIdx) : segLost offs e.2 = false :=
  hlost _ (by have := List.snd_lt_of_mem_zipIdx he; omega)

theorem filter_kept_segments {α : Type} {l : List α} (hl : l.length = 4) : l.zipIdx.filter (fun e => !segLost offs e.2) = l.zipIdx :=
  List.filter_eq_self.mpr fun _ he => by rw [segLost_of_mem_zipIdx hlost hl he]; rfl

theorem map_kept_segments {l : List Nat} (hl : l.length = 4) : l.zipIdx.map (fun e => if segLost offs e.2 then 0 else e.1) = l := by
  have hkept : l.zipIdx.map (fun e => if segLost offs e.2 then 0 else e.1) = l.zipIdx.map Prod.fst :=
    List.map_congr_left fun _ he => by rw [segLost_of_mem_zipIdx hlost hl he]; rfl
  rw [hkept, List.zipIdx_map_fst]

end Segments

theorem length_segOffs (c : Core) (i : Ins) : (segOffs c i).length = 4 := rfl

theorem execVlds_of_kept {g : GrainId} {s : State} {i : Ins} {offs : List Nat} (ecc : EccFinds) (h : issues .vlds (.grain g) s i = true)
    (hoffs : offs = segOffs (core s (.grain g)) i) (hin : firstBad offs = none) (hlost : ∀ k, k < 4 → segLost offs k = false) :
    execVlds (.grain g) ecc s = .next (
      let t := checkPieces ecc g (segSize i.fn) offs (issued (.grain g) s)
      next1 (setGrain t g { grain t g with
        v := (grain t g).v.set! i.rd (BitVec.ofNat 512 (packAll (8 * segSize i.fn) (offs.map (fun a => spdBytes (grain t g) a (segSize i.fn))))) })
          (.grain g)) := by
  have hlen : offs.length = 4 := hoffs ▸ length_segOffs _ _
  rw [execVlds, issue_of_issues _ h]
  dsimp only
  rw [segOffs_issued, ← hoffs, faultAny_of_inside hin, strideFlag_of_none_lost hlost, filter_kept_segments hlost hlen, List.zipIdx_map_fst,
    readPieces_of_inside hin, map_kept_segments hlost (by rw [List.length_map, hlen])]

theorem execVsts_of_kept {g : GrainId} {s : State} {i : Ins} {offs : List Nat} (h : issues .vsts (.grain g) s i = true)
    (hoffs : offs = segOffs (core s (.grain g)) i) (hin : firstBad offs = none) (hlost : ∀ k, k < 4 → segLost offs k = false) :
    execVsts (.grain g) s = .next (
      let n := segSize i.fn
      let x := grain (issued (.grain g) s) g
      wroteG g s (spdPuts x n (offs.zipIdx.map (fun e => (e.1, (x.v.getD i.rd 0).toNat / 2 ^ (8 * n * e.2) % 2 ^ (8 * n)))))) := by
  have hlen : offs.length = 4 := hoffs ▸ length_segOffs _ _
  rw [execVsts, issue_of_issues _ h]
  dsimp only
  rw [segOffs_issued, ← hoffs, faultAny_of_inside hin, strideFlag_of_none_lost hlost, filter_kept_segments hlost hlen, writePieces_of_inside hin]
  rfl

/-- Settles O10. Where no row or segment faults or is lost, each access moves all its pieces. -/
theorem vectorMemory : Obligations.VectorMemory := by
  unfold Obligations.VectorMemory
  refine ⟨?vld, ?vst, ?vldt, ?vlds, ?vsts⟩
  case vld => exact fun g ecc s i h hin => execVld_of_inside ecc h hin
  case vst => exact fun g s i h hin => execVst_of_inside h hin
  case vldt => exact fun g ecc s i h hin => execVldt_of_inside ecc h rfl hin
  case vlds => exact fun g ecc s i h hin hlost => execVlds_of_kept ecc h rfl hin hlost
  case vsts => exact fun g s i h hin hlost => execVsts_of_kept h rfl hin hlost

/-! ### The frame of the stores (R78, R112) -/

/-- What a store leaves of a state besides memory: the registers of every unit, and everything outside the units. -/
def storeKept (u : Issuer) (s t : State) : Prop :=
  restKept s t ∧ regsKept u s t ∧ (∀ w, w ≠ u → core t w = core s w) ∧
    (∀ k, sGet (core t u) k = sGet (core s u) k) ∧ (∀ k, pGet (core t u) k = pGet (core s u) k) ∧
    (∀ g : Nat, (grain t g).v = (grain s g).v ∧ (grain t g).acc = (grain s g).acc ∧ (grain t g).tc = (grain s g).tc ∧ (grain t g).cw = (grain s g).cw)

section GrainStore

variable {g : GrainId} {s : State} {x : Grain} (hx : spdOnly (grain (issued (.grain g) s) g) x)
include hx

theorem core_wroteG_spdOnly : core (wroteG g s x) (.grain g) = advance { (grain s g).core with lastPc := (grain s g).core.pc } 1 := by
  obtain ⟨m, p, d, q, f, rfl⟩ := hx
  show (grain (wroteG g s _) g).core = _
  rw [grain_wroteG_same, grain_issued_same]

theorem storeKept_wroteG : storeKept (.grain g) s (wroteG g s x) := by
  refine ⟨restKept_wroteG g s x 1, regsKept_wroteG g s x 1, fun w hw => core_wroteG_other s x 1 hw, fun k => ?sregs, fun k => ?pregs,
    fun h => ?record⟩
  case sregs =>
    rw [core_wroteG_spdOnly hx]
    exact sGet_advance _ 1 k
  case pregs =>
    rw [core_wroteG_spdOnly hx]
    exact pGet_advance _ 1 k
  case record =>
    by_cases hh : h = g.val
    · obtain ⟨m, p, d, q, f, rfl⟩ := hx
      subst hh
      rw [grain_wroteG_same, grain_issued_same]
      exact ⟨rfl, rfl, rfl, rfl⟩
    · rw [grain_wroteG_other s x 1 hh]
      exact ⟨rfl, rfl, rfl, rfl⟩

omit hx in
/-- A write to one scratchpad changes no byte of another, and of its own only those that it changes. -/
theorem memRead_wroteG {h b : Nat} (hb : h ≠ g.val ∨ memRead x.mem b = memRead (grain (issued (.grain g) s) g).mem b) :
    memRead (grain (wroteG g s x) h).mem b = memRead (grain s h).mem b := by
  by_cases hh : h = g.val
  · subst hh
    rw [grain_wroteG_same]
    refine (hb.resolve_left (fun hne => hne rfl)).trans ?_
    rw [grain_issued_same]
  · rw [grain_wroteG_other s x 1 hh]

/-- A write to a grain's scratchpad that keeps the bytes of P keeps them in the state, and all besides memory. -/
theorem wroteG_frame {P : Nat → Prop} (hread : ∀ y, P y → memRead x.mem y = memRead (grain (issued (.grain g) s) g).mem y) :
    storeKept (.grain g) s (wroteG g s x) ∧
      (∀ h y : Nat, (h ≠ g.val ∨ P y) → memRead (grain (wroteG g s x) h).mem y = memRead (grain s h).mem y) ∧
      (∀ h : Nat, sheaf (wroteG g s x) h = sheaf s h) :=
  ⟨storeKept_wroteG hx, fun _ y hy => memRead_wroteG (hy.imp_right (hread y)), fun h => sheaf_wroteG g s x 1 h⟩

end GrainStore

theorem sheaf_issued_same (b : SheafId) (s : State) :
    sheaf (issued (.binder b) s) b = { sheaf s b with core := { (sheaf s b).core with lastPc := (sheaf s b).core.pc } } := by
  simp [issued, setCore, core]

theorem sheaf_issued_other {b : SheafId} (s : State) {h : Nat} (hne : h ≠ b.val) : sheaf (issued (.binder b) s) h = sheaf s h := by
  simp [issued, setCore, sheaf_setSheaf_other _ _ hne]

/-- What a binder that has stored leaves: its memory written, and the instruction behind it. -/
def storedB (b : SheafId) (s : State) (a n v : Nat) : State := next1 (bmemWrite (issued (.binder b) s) b a n v) (.binder b)

section BinderStore

variable (b : SheafId) (s : State) (a v : Nat)

theorem sheaf_storedB_other (n : Nat) {h : Nat} (hne : h ≠ b.val) : sheaf (storedB b s a n v) h = sheaf s h := by
  simp [storedB, next1, setCore, bmemWrite, sheaf_setSheaf_other _ _ hne, sheaf_issued_other s hne]

theorem grain_storedB (n h : Nat) : grain (storedB b s a n v) h = grain s h := by
  simp [storedB, next1, setCore, bmemWrite, issued]

theorem core_storedB_other (n : Nat) {w : Issuer} (hne : w ≠ .binder b) : core (storedB b s a n v) w = core s w := by
  cases w with
  | grain g => exact congrArg Grain.core (grain_storedB b s a v n g)
  | binder h =>
    have hval : h.val ≠ b.val := fun e => hne (congrArg Issuer.binder (Fin.ext e))
    exact congrArg Sheaf.core (sheaf_storedB_other b s a v n hval)

theorem restKept_storedB (n : Nat) : restKept s (storedB b s a n v) :=
  restKept_trans (restKept_issued (.binder b) s) (restKept_trans (restKept_setSheaf _ _ _) (restKept_setCore _ (.binder b) _))

theorem regsKept_storedB (n : Nat) : regsKept (.binder b) s (storedB b s a n v) :=
  regsKept_setCore _ fun l hl => regsKept_issued (.binder b) s l hl

variable {n : Nat} (hn : n ≤ 8)
include hn

theorem sheaf_storedB_same : ∃ m p f, (∀ y, y < a ∨ a + n ≤ y → memRead m y = memRead (sheaf s b).bmem y) ∧
    sheaf (storedB b s a n v) b = { sheaf s b with
      bmem := m, bpoison := p, scrubFix := f, core := advance { (sheaf s b).core with lastPc := (sheaf s b).core.pc } 1 } := by
  have hput : sheaf (storedB b s a n v) b = { bmemPutIn (sheaf (issued (.binder b) s) b) a n v with
      core := advance (bmemPutIn (sheaf (issued (.binder b) s) b) a n v).core 1 } := by
    simp [storedB, next1, setCore, bmemWrite, bmemPut, if_pos hn, core]
  obtain ⟨m, p, f, hm, hin⟩ := bmemPutIn_eq (sheaf (issued (.binder b) s) b) a n v
  refine ⟨m, p, f, fun y hy => ?_, ?_⟩
  · have hread := bmemPutIn_mem (sheaf (issued (.binder b) s) b) a n v hy
    rw [hin, sheaf_issued_same] at hread
    exact hread
  · rw [hput, hin, sheaf_issued_same]

theorem storeKept_storedB : storeKept (.binder b) s (storedB b s a n v) := by
  obtain ⟨m, p, f, -, hsame⟩ := sheaf_storedB_same b s a v hn
  have hcore : core (storedB b s a n v) (.binder b) = advance { (sheaf s b).core with lastPc := (sheaf s b).core.pc } 1 :=
    congrArg Sheaf.core hsame
  refine ⟨restKept_storedB b s a v n, regsKept_storedB b s a v n, fun w hw => core_storedB_other b s a v n hw, fun k => ?_, fun k => ?_,
    fun h => ?_⟩
  · rw [hcore]
    exact sGet_advance _ 1 k
  · rw [hcore]
    exact pGet_advance _ 1 k
  · rw [grain_storedB]
    exact ⟨rfl, rfl, rfl, rfl⟩

theorem memRead_storedB {h y : Nat} (hy : h ≠ b.val ∨ y < a ∨ a + n ≤ y) :
    memRead (sheaf (storedB b s a n v) h).bmem y = memRead (sheaf s h).bmem y := by
  by_cases hh : h = b.val
  · obtain ⟨m, p, f, hread, hsame⟩ := sheaf_storedB_same b s a v hn
    subst hh
    rw [hsame]
    exact hread y (hy.resolve_left fun hne => hne rfl)
  · rw [sheaf_storedB_other b s a v n hh]

end BinderStore

/-- Settles O57. A store writes one memory of its issuer at the bytes its address names, and moves on. -/
theorem storeFrame : Obligations.StoreFrame := by
  unfold Obligations.StoreFrame
  intro kept store
  have shared (op : Op) (mk : Issuer → Instr) (n : Nat) (hn : n ≤ 8) (hexec : ∀ u s, exec (mk u) s = .next (storeOp op n u s)) :
      store op mk n := by
    refine ⟨?grain, ?binder⟩
    case grain =>
      intro g s t i a h ht ha hin
      subst ha
      rw [hexec, storeOp_of_grain h hin] at ht
      cases ht
      exact wroteG_frame (P := fun y => y < _ ∨ _ ≤ y) (spdPut_frame _ _ _ _) fun y => spdPut_mem _ _ _ _
    case binder =>
      intro b s t i a h ht ha
      subst ha
      rw [hexec, storeOp_of_binder h] at ht
      cases ht
      exact ⟨storeKept_storedB b s _ _ hn, fun h y => memRead_storedB b s _ _ hn, grain_storedB b s _ _ n⟩
  clear_value store
  refine ⟨shared .sw .sw 4 (by decide) fun _ _ => rfl, shared .sh .sh 2 (by decide) fun _ _ => rfl,
    shared .sb .sb 1 (by decide) fun _ _ => rfl, ?vst⟩
  intro g s t i offs h ht hoffs hin
  subst hoffs
  cases (execVst_of_inside h hin).symm.trans ht
  refine wroteG_frame (P := fun y => ∀ a ∈ fourRows _, y < a ∨ a + 16 ≤ y) (spdPuts_only _ _ _) fun y hy => spdPuts_mem _ _ _ fun e he => ?_
  obtain ⟨p, hp, rfl⟩ := List.mem_map.mp he
  exact hy p.1 (List.fst_mem_of_mem_zipIdx hp)

end Sys2Proof.Machine
end

section
/-!
PROOFS. Synchronisation: waits, locks, fences, packets sent, the binder's instructions, and the ears.
-/
namespace Sys2Proof.Machine

/-! ### Waits (R82, R83, R85) -/

theorem waitHolds_iff {s : State} {u : Issuer} {k thr : Nat} :
    waitHolds s u k thr = true ↔ thr ≤ (waitView s u k).1 ∨ (waitView s u k).2 = true := by
  simp [waitHolds]

theorem execWaitRelease_of_held {u : Issuer} {s : State} {k thr p : Nat} {dl : Option Nat} (hw : (core s u).wait = .tally k thr dl p)
    (h : thr ≤ (waitView s u k).1 ∨ (waitView s u k).2 = true) : execWaitRelease u s = .next (waitEnd s u p (!(waitView s u k).2)) := by
  simp only [execWaitRelease, hw, waitHolds_iff.mpr h, if_true]

theorem execWaitTimeout_of_due {u : Issuer} {s : State} {k thr p dl : Nat} (hw : (core s u).wait = .tally k thr (some dl) p)
    (hdue : dl ≤ s.cycle) : execWaitTimeout u s = .next (waitEnd s u p (decide (thr ≤ (waitView s u k).1) && !(waitView s u k).2)) := by
  have hresult : (waitHolds s u k thr && !(waitView s u k).2) = (decide (thr ≤ (waitView s u k).1) && !(waitView s u k).2) := by
    simp only [waitHolds]
    cases (waitView s u k).2 <;> simp
  simp only [execWaitTimeout, hw, hdue, if_true, hresult]

/-- Settles O17. A wait's condition is its threshold or an error, at issue and while it waits. -/
theorem waitOutcomes : Obligations.WaitOutcomes := by
  unfold Obligations.WaitOutcomes
  refine ⟨?issue, ?release, ?timeout⟩
  case issue =>
    intro u s i h
    refine congrArg Host.Outcome.next ((issue_of_issues _ h).trans ?_)
    simp only [waitHolds_iff, bits_zero_eq_mod]
    rfl
  case release => exact fun u s k thr p dl => execWaitRelease_of_held
  case timeout => exact fun u s k thr p dl => execWaitTimeout_of_due

/-! ### Locks (R98, R100, R101) -/

section Locks

variable {u : Issuer} {s : State} {i : Ins}

theorem lockTry_of_sound (fn : Nat) (h : lockFault s u (xlatLock s (partOf s u) (sGet (core s u) i.ra)) = none) :
    lockTry fn u i s = lockSend (setCore s u { core s u with
      state := .waitLock
      wait := .lock fn (xlatLock s (partOf s u) (sGet (core s u) i.ra)) i.rd
        (if fn = 1 ∧ (sGet (core s u) i.rb).toNat ≠ 0 then some (s.cycle + (sGet (core s u) i.rb).toNat) else none) none })
      u fn (xlatLock s (partOf s u) (sGet (core s u) i.ra)) := by
  simp only [lockTry, h]

theorem lockTry_of_fault {r : Nat} (fn : Nat) (h : lockFault s u (xlatLock s (partOf s u) (sGet (core s u) i.ra)) = some r) :
    lockTry fn u i s = lockEnd (addrFault s u (lockWordAddr (sGet (core s u) i.ra)) r) u i.rd 5 := by
  simp only [lockTry, h]

theorem execLockRel_of_sound (hi : issues .lockRel u s i = true)
    (h : lockFault (issued u s) u (xlatLock (issued u s) (partOf (issued u s) u) (sGet (core (issued u s) u) i.ra)) = none) :
    execLockRel u s = .next (
      let t := issued u s
      let h := xlatLock t (partOf t u) (sGet (core t u) i.ra)
      fenceCheck (setCore t u { core t u with
        state := .waitLock, wait := .relFence (if lockSheaf h = sheafOf u then .sheaf else .global) h i.rd }) u) := by
  rw [execLockRel, issue_of_issues _ hi]
  simp only [h]

theorem execLockRel_of_fault {r : Nat} (hi : issues .lockRel u s i = true)
    (h : lockFault (issued u s) u (xlatLock (issued u s) (partOf (issued u s) u) (sGet (core (issued u s) u) i.ra)) = some r) :
    execLockRel u s = .next (lockEnd (addrFault (issued u s) u (lockWordAddr (sGet (core (issued u s) u) i.ra)) r) u i.rd 5) := by
  rw [execLockRel, issue_of_issues _ hi]
  simp only [h]

theorem pastDeadline_eq_false {dl : Option Nat} {t : Nat} (h : ∀ d, dl = some d → t < d) : pastDeadline dl t = false := by
  cases dl with
  | none => rfl
  | some d => exact decide_eq_false (not_le.mpr (h d rfl))

theorem execLockAcqRetry_of_ended {h : Word} {rd t : Nat} {dl : Option Nat} (hw : (core s u).wait = .lock 1 h rd dl (some t))
    (hended : t ≤ s.cycle) (hopen : ∀ d, dl = some d → s.cycle < d) :
    execLockAcqRetry u s = .next (lockSend (setCore s u { core s u with wait := .lock 1 h rd dl none }) u 1 h) := by
  simp only [execLockAcqRetry, hw, hended, pastDeadline_eq_false hopen, Bool.not_false, and_self, if_true]

theorem execLockAcqTimeout_of_due {h : Word} {rd dl t : Nat} (hw : (core s u).wait = .lock 1 h rd (some dl) (some t))
    (hdue : dl ≤ s.cycle) : execLockAcqTimeout u s = .next (lockEnd s u rd 2) := by
  simp only [execLockAcqTimeout, hw, hdue, if_true]

end Locks

/-- Settles O20. A handle decides an attempt and a release alike; a back-off that ends and a deadline are the branches of their timers. -/
theorem lockOperations : Obligations.LockOperations := by
  unfold Obligations.LockOperations
  refine ⟨?attempt, ?acq, ?retry, ?timeout, ?rel, ?faults⟩
  case attempt =>
    exact fun u s i hi h => congrArg Host.Outcome.next ((issue_of_issues _ hi).trans (lockTry_of_sound 0 h))
  case acq =>
    exact fun u s i hi h => congrArg Host.Outcome.next ((issue_of_issues _ hi).trans (lockTry_of_sound 1 h))
  case retry => exact fun u s h rd t dl => execLockAcqRetry_of_ended
  case timeout => exact fun u s h rd dl t => execLockAcqTimeout_of_due
  case rel => exact fun u s i => execLockRel_of_sound
  case faults =>
    intro op mk hmem u s i r hi t hfault
    simp only [List.mem_cons, List.not_mem_nil, or_false, Prod.mk.injEq] at hmem
    obtain ⟨rfl, rfl⟩ | ⟨rfl, rfl⟩ | ⟨rfl, rfl⟩ := hmem
    · exact congrArg Host.Outcome.next ((issue_of_issues _ hi).trans (lockTry_of_fault 0 hfault))
    · exact congrArg Host.Outcome.next ((issue_of_issues _ hi).trans (lockTry_of_fault 1 hfault))
    · exact execLockRel_of_fault hi hfault

/-! ### Fences, PUT and NOTIFY (R87, R89, R95) -/

/-- Settles O21. The three fences are one, each with its scope. -/
theorem fenceOperations : Obligations.FenceOperations := by
  unfold Obligations.FenceOperations
  intro fence
  have shared (op : Op) (mk : Issuer → Instr) (k : FenceKind) (hexec : ∀ u s, exec (mk u) s = fenceOp op k u s) : fence op mk k :=
    fun u s i h => (hexec u s).trans (congrArg Host.Outcome.next (issue_of_issues _ h))
  clear_value fence
  exact ⟨shared .fenceL .fenceL .local_ fun _ _ => rfl, shared .fenceS .fenceS .sheaf fun _ _ => rfl,
    shared .fenceG .fenceG .global fun _ _ => rfl⟩

/-- A PUT with a sound handle sends its rows to one grain, or into a tree (R87). -/
theorem execPut_of_sound {g : GrainId} {s t : State} {i : Ins} {h : Word} {off rows : Nat} (hi : issues .put (.grain g) s i = true)
    (ht : t = issued (.grain g) s) (hh : h = xlatPut t (grainPart t g) (sGet (core t (.grain g)) i.ra))
    (hoff : off = bits (sGet (core t (.grain g)) i.rb) 15 4 * 16) (hrows : rows = if i.fn = 0 then 1 else if i.fn = 1 then 2 else 4)
    (hsound : putFault t g h off (16 * rows) = none) :
    execPut (.grain g) s = .next (next1 (
      let body := putRows ((grain t g).v.getD i.rd 0) rows
      if bit h 27 then putMulti t g h off body
      else
        let dst := atCoord (BitVec.ofNat 21 (bits h 20 0))
        request t (.put g (decide (sheafOfGrain dst = sheafOfGrain g))) (.grain g) .write g dst (grainPart t g) rows (putAddr h off) body
          (bits h 31 28)) (.grain g)) := by
  rw [execPut, issue_of_issues _ hi, ← ht]
  dsimp only
  rw [← hh, ← hoff, ← hrows, hsound]

/-- Settles O22. A sound handle's tag bit decides between one packet and a tree. -/
theorem putAndNotify : Obligations.PutAndNotify := by
  unfold Obligations.PutAndNotify
  refine ⟨?unicast, ?multicast, ?notify⟩
  case unicast =>
    intro g s t i h off dst hi ht hh hoff hsound htag hdst
    subst hdst
    refine (execPut_of_sound hi ht hh hoff rfl hsound).trans ?_
    simp only [htag, Bool.false_eq_true, if_false]
  case multicast =>
    intro g s t i h off hi ht hh hoff hsound htag
    refine (execPut_of_sound hi ht hh hoff rfl hsound).trans ?_
    simp only [htag, if_true]
  case notify =>
    intro g s i h
    show execNotify (.grain g) s = _
    rw [execNotify, issue_of_issues _ h]

/-! ### The binder's instructions (R114) -/

theorem gsigOp_of_issues {op : Op} {h : SheafId} {s : State} {i : Ins} (f : State → List Issuer → State)
    (hi : issues op (.binder h) s i = true) :
    gsigOp op f (.binder h) s = .next (
      let t := issued (.binder h) s
      next1 (f t ((gsigGrains t h (sGet (core t (.binder h)) i.ra) (sGet (core t (.binder h)) i.rb)).map ug)) (.binder h)) := by
  rw [gsigOp, issue_of_issues _ hi]
  rfl

theorem execRegwr_of_sound {h : SheafId} {s t : State} {i : Ins} {a : Nat} (hi : issues .regwr (.binder h) s i = true)
    (ht : t = issued (.binder h) s) (ha : a = xlatAddr t (partOf t (.binder h)) (regPair (core t (.binder h)) i))
    (hsound : regAddrFault t (.binder h) a = none) :
    execRegwr (.binder h) s = .next (next1 (request t (.reg h none) (.sheaf h) .regReq (sheafPort h) (regRouter (locOf a))
      (partOf t (.binder h)) 1 a [(BitVec.ofNat 128 (sGet (core t (.binder h)) i.rd).toNat, false)]) (.binder h)) := by
  rw [execRegwr, issue_of_issues _ hi, ← ht]
  dsimp only
  rw [← ha, hsound]

theorem regrdAt_of_sound {h : SheafId} {t : State} {rd a0 a : Nat} (ha : a = xlatAddr t (partOf t (.binder h)) a0)
    (hsound : regAddrFault t (.binder h) a = none) : regrdAt t h rd a0 = regrdSend t h rd a := by
  subst ha
  simp only [regrdAt, hsound]

theorem regrdSend_of_ne {h : SheafId} {t t1 : State} {rd a : Nat} (hrd : rd ≠ 0)
    (ht1 : t1 = request t (.reg h (some rd)) (.sheaf h) .regReq (sheafPort h) (regRouter (locOf a)) (partOf t (.binder h)) 0 a []) :
    regrdSend t h rd a = setCore t1 (.binder h)
      (advance { core t1 (.binder h) with regReads := rd :: (core t1 (.binder h)).regReads } 1) := by
  subst ht1
  simp only [regrdSend, if_neg hrd]

theorem execRegrd_of_sound {h : SheafId} {s t t1 : State} {i : Ins} {a : Nat} (hi : issues .regrd (.binder h) s i = true)
    (ht : t = issued (.binder h) s) (ha : a = xlatAddr t (partOf t (.binder h)) (regPair (core t (.binder h)) i))
    (hsound : regAddrFault t (.binder h) a = none) (hrd : i.rd ≠ 0)
    (ht1 : t1 = request t (.reg h (some i.rd)) (.sheaf h) .regReq (sheafPort h) (regRouter (locOf a)) (partOf t (.binder h)) 0 a []) :
    execRegrd (.binder h) s = .next (setCore t1 (.binder h)
      (advance { core t1 (.binder h) with regReads := i.rd :: (core t1 (.binder h)).regReads } 1)) := by
  rw [execRegrd, issue_of_issues _ hi, ← ht]
  exact congrArg Host.Outcome.next ((regrdAt_of_sound ha hsound).trans (regrdSend_of_ne hrd ht1))

/-- Settles O23. A register request whose address faults nothing is sent; each other instruction is its effect. -/
theorem binderInstructions : Obligations.BinderInstructions := by
  unfold Obligations.BinderInstructions
  refine ⟨?beatw, ?start, ?halt, ?stoke, ?regwr, ?regrd⟩
  case beatw =>
    intro h s i hi
    show execBeatw (.binder h) s = _
    rw [execBeatw, issue_of_issues _ hi]
  case start => exact fun h s i hi => gsigOp_of_issues (fun s us => us.foldl sigStart s) hi
  case halt => exact fun h s i hi => gsigOp_of_issues runHaltAll hi
  case stoke =>
    intro h s i hi
    show execStoke (.binder h) s = _
    rw [execStoke, issue_of_issues _ hi]
    rfl
  case regwr => exact fun h s t i a => execRegwr_of_sound
  case regrd => exact fun h s t t1 i a => execRegrd_of_sound

/-! ### Ears (R103 to R110) -/

/-- When all the participants wait with one function, each ends with the tree's result (R104 to R106). -/
theorem execEarOpComplete_of_match {e : EarId} {s : State} {w : Nat × EarFn × BitVec 512 × Nat} {ws : List (Nat × EarFn × BitVec 512 × Nat)}
    (hall : earAll s (participants s e) = some (w :: ws)) (hfn : ∀ q ∈ ws, q.2.1 = w.2.1) :
    execEarOpComplete e s = .next (
      let vec := fun k => ((w :: ws).find? (fun q => q.1 == 16 * e.val + k)).map (fun q => q.2.2.1)
      ((w :: ws).map Prod.fst).foldl (earFinish (match w.2.1 with | .bar => none | _ => earTree w.2.1 vec)) s) := by
  have hsame : ws.all (fun q => q.2.1 == w.2.1) = true := List.all_eq_true.mpr fun q hq => beq_iff_eq.mpr (hfn q hq)
  simp only [execEarOpComplete, hall]
  exact congrArg Host.Outcome.next (if_pos hsame)

theorem execEarPowerSettled_of_other {e : EarId} {s : State} {p : EarPower} (hgoal : (ear s e).goal = some p) (hne : p ≠ .on) :
    execEarPowerSettled e s = .next (setEar s e { ear s e with now := p, goal := none }) := by
  cases p with
  | on => exact absurd rfl hne
  | retain => simp only [execEarPowerSettled, hgoal]
  | off => simp only [execEarPowerSettled, hgoal]

/-- Settles O24. The five ear instructions are one, each with its function; each other clause is the branch of its command that its
hypotheses leave. -/
theorem earOperationsAndPower : Obligations.EarOperationsAndPower := by
  unfold Obligations.EarOperationsAndPower
  refine ⟨?ears, ?write, ?on, ?other⟩
  case ears =>
    intro ear
    have shared (op : Op) (mk : Issuer → Instr) (fn : EarFn) (hexec : ∀ u s, exec (mk u) s = earIssue op fn u s) : ear op mk fn :=
      fun g s i h => (hexec _ s).trans (congrArg Host.Outcome.next (issue_of_issues _ h))
    clear_value ear
    exact ⟨shared .earsum .earsum .sum fun _ _ => rfl, shared .earmax .earmax .max fun _ _ => rfl,
      shared .earmin .earmin .min fun _ _ => rfl, shared .earisum .earisum .isum fun _ _ => rfl,
      shared .earbar .earbar .bar fun _ _ => rfl, fun e s w ws => execEarOpComplete_of_match⟩
  case write => exact fun ini sh v s h => congrArg Host.Outcome.next (regCommand_of_may _ h)
  case on =>
    intro e s hgoal
    show execEarPowerSettled e s = _
    simp only [execEarPowerSettled, hgoal]
  case other => exact fun e s p => execEarPowerSettled_of_other

end Sys2Proof.Machine
end

section
/-!
PROOFS. DMA and its streams, the control of units and routers, and the packets that arrive.
-/
namespace Sys2Proof.Machine

/-! ### DMA descriptors and windows (R90, R91, R94, R246) -/

theorem bothRead_eq_false {d : Desc} {q : List Desc} (h : d.read = false ∨ ∀ e ∈ q, e.read = false) (e : Desc) (he : e ∈ q) :
    bothRead d e = false := by
  obtain hd | hq := h
  · simp only [bothRead, hd, Bool.false_and]
  · simp only [bothRead, hq e he, Bool.and_false]

/-- A descriptor notes no rows of the queued ones and none of them notes its own where no two of them are READs (R94). -/
theorem dmaPut_of_alone {c : Core} {d : Desc} (h : d.read = false ∨ ∀ e ∈ c.dmaQ, e.read = false) (hlaps : d.laps = []) :
    dmaPut c d = { c with dmaQ := c.dmaQ ++ [d], nextDesc := c.nextDesc + 1 } := by
  have halone := bothRead_eq_false h
  have hnone : c.dmaQ.filter (bothRead d) = [] :=
    List.filter_eq_nil_iff.mpr fun e he => Bool.eq_false_iff.mp (halone e he)
  have hkeep : c.dmaQ.map (fun e => if bothRead d e then { e with laps := e.laps ++ [dmaSpan d] } else e) = c.dmaQ :=
    (List.map_congr_left fun e he => if_neg (Bool.eq_false_iff.mp (halone e he))).trans (List.map_id' _)
  have hsame : { d with laps := [] } = d := by rw [← hlaps]
  simp only [dmaPut, hnone, hkeep, List.map_nil, hsame]

theorem execDmaDescStart_of_found {u : Issuer} {s : State} {d : Desc} (ecc : EccFinds)
    (h : (core s u).dmaQ.find? (fun d => d.reason.isNone && d.nextRow < d.rows) = some d) :
    execDmaDescStart u ecc s = .next (dmaRun u d.id ecc 4096 s) := by
  simp only [execDmaDescStart, h]

theorem execDmaComplete_of_done {u : Issuer} {s : State} {d : Desc} (h : (core s u).dmaQ.find? dmaEnded = some d)
    (hreason : d.reason = none) (hstream : d.stream = none) :
    execDmaComplete u s =
      .next (fenceCheck (countDone (setCore s u { core s u with dmaQ := (core s u).dmaQ.erase d }) u d.ctally) u) := by
  simp only [execDmaComplete, h, hreason, hstream]

theorem execDmaComplete_of_failed {u : Issuer} {s : State} {d : Desc} {why : Nat} (h : (core s u).dmaQ.find? dmaEnded = some d)
    (hreason : d.reason = some why) (hstream : d.stream = none) :
    execDmaComplete u s =
      .next (fenceCheck (dmaEndBad (setCore s u { core s u with dmaQ := (core s u).dmaQ.erase d }) u d why) u) := by
  simp only [execDmaComplete, h, hreason, hstream]

theorem execWindowGrant_of_remote {g : GrainId} {w : Fin 4} {s : State} {n : Nat} {p : Packet} {rest : List (Nat × CreditWho)}
    (hhead : (window s g w).queue = (n, .remote p) :: rest) (hroom : n ≤ (window s g w).avail) :
    execWindowGrant g w s =
      .next (reply (setWindow s g w { cwGrant (window s g w) n with queue := rest }) g p .creditGrant 0 n []) := by
  simp only [execWindowGrant, hhead, not_lt.mpr hroom, if_false]

/-! ### Streams (R514, R515) -/

theorem sheaf_raise (s : State) (ev : Ev) (part : Option Nat) (scope unit : Nat) (fields : List (Nat × Nat)) (n : Nat) :
    sheaf (raise s ev part scope unit fields) n = sheaf s n := by
  obtain ⟨-, hsheaves, hhalves⟩ := raise_units s ev part scope unit fields
  exact sheaf_of_units hsheaves hhalves n

theorem bmemTell_streams (s : State) (sh w reader : Nat) : (sheaf (bmemTell s sh w reader) sh).streams = (sheaf s sh).streams := by
  simp only [bmemTell]
  split
  · rfl
  · simp only [sheaf_raise, sheaf_setSheaf_same]

/-- A read of binder memory marks words as poisoned and leaves the sheaf's streams. -/
theorem bmemRead_streams (s : State) (sh a n : Nat) (fs : EccFinds) (reader : Nat) :
    (sheaf (bmemRead s sh a n fs reader).2 sh).streams = (sheaf s sh).streams := by
  refine foldl_keeps (fun t => (sheaf t sh).streams = (sheaf s sh).streams) _ (fun t w ht => ?_) _ s rfl
  split
  · exact (bmemTell_streams t sh w reader).trans ht
  · exact ht

/-- A stream that starts is placed after those already taken, with the ring's next index (R513, R514). -/
theorem execStreamStart_of_room (sh : SheafId) (ecc : EccFinds) (s : State) (hon : (stWord s sh 3).testBit 31 = true)
    (hrun : ((sheaf s sh).streams.filter (fun q => !q.ended)).length < 4)
    (hring : (sheaf s sh).streams.length <
      (stWord s sh 2 % 2 ^ 16 % stSize s sh + stSize s sh - stWord s sh 1 % 2 ^ 16 % stSize s sh) % stSize s sh) :
    ∃ t q, execStreamStart sh ecc s = .next t ∧ (sheaf t sh).streams = (sheaf s sh).streams ++ [q] ∧
      q.index = (stWord s sh 1 % 2 ^ 16 % stSize s sh + (sheaf s sh).streams.length) % stSize s sh ∧
      q.ended = false ∧ q.next = 0 := by
  have hbit : nbits (stWord s sh 3) 31 31 = 1 := by
    rw [Nat.testBit_eq_decide_div_mod_eq, decide_eq_true_eq] at hon
    exact hon
  rw [execStreamStart]
  simp only [hbit, not_le.mpr hrun, not_le.mpr hring, one_ne_zero, decide_false, Bool.or_self, Bool.false_eq_true, if_false]
  have hkept := bmemRead_streams s sh
    (stSlot s sh ((stWord s sh 1 % 2 ^ 16 % stSize s sh + (sheaf s sh).streams.length) % stSize s sh)) 32 ecc 5
  exact ⟨_, _, rfl, (congrArg Sheaf.streams (sheaf_setSheaf_same _ _ _)).trans (congrArg (· ++ [_]) hkept), rfl, rfl, rfl⟩

theorem execStreamPlace_of_ready {sh : SheafId} {s : State} {q : StreamRun}
    (hturn : (((sheaf s sh).streams.filter (stReady s sh)).find? (fun q => q.id > (sheaf s sh).streamTurn)).or
      ((sheaf s sh).streams.filter (stReady s sh)).head? = some q)
    (hgrain : (earOn s ((256 * sh.val + (stFirst q + q.next)) / 16) && !fenced s (256 * sh.val + (stFirst q + q.next))) = true) :
    execStreamPlace sh s = .next (
      let g := 256 * sh.val + (stFirst q + q.next)
      let s2 := modStream (setSheaf s sh { sheaf s sh with streamTurn := q.id }) sh q.id (fun q => { q with next := q.next + 1 })
      setCore s2 (ug g) (dmaPut (core s2 (ug g)) (stDesc q q.next (core s2 (ug g))))) := by
  obtain ⟨hon, hopen⟩ := Bool.and_eq_true_iff.mp hgrain
  rw [Bool.not_eq_true'] at hopen
  simp only [execStreamPlace, hturn, hon, hopen, Bool.not_true, Bool.or_self, Bool.false_eq_true, if_false]

theorem execStreamEnd_of_good {sh : SheafId} {s : State} {q : StreamRun}
    (hdone : (sheaf s sh).streams.find? (fun q => !q.ended && q.left == 0) = some q) (hgood : q.bad = false) (hfailed : q.failed = 0) :
    execStreamEnd sh s = .next (stPass sh (ncInc (bmemWrite (modStream s sh q.id (fun q => { q with ended := true })) sh
      (stSlot s sh q.index + 16) 16 (bits q.row1 127 96 * 2 ^ 96 + 2 ^ 64)) sh (bits q.row0 22 20) 1)) := by
  simp only [execStreamEnd, hdone, hgood, hfailed, Bool.false_eq_true, if_false, if_true, one_mul, zero_mul, add_zero, ne_eq,
    OfNat.one_ne_ofNat, not_false_eq_true]

/-- Settles O25. A queue, a window or a ring has what the command looks for, and the command does its work on that. -/
theorem dmaAndStreams : Obligations.DmaAndStreams := by
  unfold Obligations.DmaAndStreams
  refine ⟨⟨?read, ?write, ?alone⟩, ⟨?descStart, ?done, ?failed, ?grant⟩, ?start, ?place, ?streamEnd⟩
  case read => exact fun u s i h => congrArg Host.Outcome.next (coreIns_of_issues _ h)
  case write => exact fun u s i h => congrArg Host.Outcome.next (coreIns_of_issues _ h)
  case alone => exact fun c d => dmaPut_of_alone
  case descStart => exact fun u ecc s d => execDmaDescStart_of_found ecc
  case done => exact fun u s d => execDmaComplete_of_done
  case failed => exact fun u s d why => execDmaComplete_of_failed
  case grant => exact fun g w s n p rest => execWindowGrant_of_remote
  case start => exact fun sh ecc s => execStreamStart_of_room sh ecc s
  case place =>
    intro sh s q x ready hturn g hgrain s2
    exact execStreamPlace_of_ready hturn hgrain
  case streamEnd =>
    intro sh s q hdone hgood hfailed s1
    exact execStreamEnd_of_good hdone hgood hfailed

/-! ### Units and routers (R61, R63 to R65, R312, R324) -/

theorem execCodeLoadDone_of_copy {g : GrainId} {s : State} {k : CodeCopy} (hcopy : (grain s g).copy = some k) (hheld : k.held = false) :
    execCodeLoadDone g s = .next (setGrain s g { grain s g with
      code := copyWords (grain s g) k, copy := none, core := { (grain s g).core with state := k.prior } }) := by
  simp only [execCodeLoadDone, hcopy, hheld, Bool.false_eq_true, if_false]

/-- Settles O26. A permitted write does its command's work, on the branch its value takes. -/
theorem unitAndRouterControl : Obligations.UnitAndRouterControl := by
  unfold Obligations.UnitAndRouterControl
  refine ⟨⟨?start, ?halt, ?load, ?loadDone⟩, ?fence, ?tag⟩
  case start =>
    exact fun ini u v s h hbit => congrArg Host.Outcome.next ((regCommand_of_may _ h).trans (if_pos hbit))
  case halt =>
    exact fun ini u v s h hbit => congrArg Host.Outcome.next ((regCommand_of_may _ h).trans (if_neg (Bool.eq_false_iff.mp hbit)))
  case load =>
    exact fun ini g v s h hgood => congrArg Host.Outcome.next ((regCommand_of_may _ h).trans (if_neg (Bool.eq_false_iff.mp hgood)))
  case loadDone => exact fun g s k => execCodeLoadDone_of_copy
  case fence =>
    exact fun ini g v s h hports => congrArg Host.Outcome.next ((regCommand_of_may _ h).trans (if_pos hports))
  case tag =>
    intro ini g tag v s h hports
    refine congrArg Host.Outcome.next ((regCommand_of_may _ h).trans ?_)
    simp only [hports, if_true, setReg_merges]

/-! ### Requests that arrive (R89, R98, R247, R248, R254, R278, R280) -/

theorem execReadReq_of_rows {f : Flight} {ecc : EccFinds} {s t : State} {rows : List (BitVec 128 × Bool)} (h : arrived .readReq f s = true)
    (hwaits : granaryWaits s f.at_ f.pkt = false) (hdrains : targetDrains (unlist s f) f.at_ f.pkt = false)
    (hrows : readRows (unlist s f) f.at_ f.pkt ecc = some (t, rows)) :
    execReadReq f ecc s = .next (reply t f.at_ f.pkt .readData 0 (readOff (unlist s f) f.pkt) rows) := by
  simp only [execReadReq, hwaits, arrive_of_arrived _ h, hdrains, hrows, Bool.false_eq_true, if_false]

theorem execLockReq_of_present {f : Flight} {s t : State} (h : arrived .lockReq f s = true) (ht : t = unlist s f)
    (hdrains : drains t (.sheaf (sheafOfGrain f.at_)) = false) (hlock : lockAbsent t f.pkt = false) :
    execLockReq f s = .next (
      let sh := sheafOfGrain f.at_
      let k := bits f.pkt.addr 5 0
      let r := lockDecide (mapGet {} (sheaf t sh).locks k) (bits f.pkt.addr 25 24) f.pkt.src f.pkt.epoch
      reply (setSheaf t sh { sheaf t sh with locks := mapSet {} (sheaf t sh).locks k r.1 }) f.at_ f.pkt .lockResp 0 r.2 []) := by
  subst ht
  simp only [execLockReq, arrive_of_arrived _ h, hdrains, hlock, Bool.false_eq_true, if_false]

/-- A register request whose unit has power and does not drain reads the register its address is in (R43). -/
theorem execRegReq_of_read {f : Flight} {s t : State} {l m : RegLoc} {r : Word × State} (h : arrived .regReq f s = true)
    (ht : t = unlist s f) (hl : l = locOf f.pkt.addr.toNat)
    (hdrains : drains t (if l.scope = 4 then .grain (grainOfUnit l.unit) else .sheaf (sheafOfUnit l.unit)) = false)
    (hgone : unitGone t (.binder (Fin.ofNat 5760 (sheafOfGrain (atCoord f.pkt.src)))) l = false)
    (hm : m = locOf (f.pkt.addr.toNat / 4 * 4)) (hlen : f.pkt.len = 0)
    (hr : r = readReg t (.binder (Fin.ofNat 5760 (sheafOfGrain (atCoord f.pkt.src)))) m) :
    execRegReq f s = .next (reply r.2 f.at_ f.pkt .regResp 0 0 [(BitVec.ofNat 128 r.1.toNat, false)]) := by
  subst ht hl hm hr
  simp only [execRegReq, arrive_of_arrived _ h, hdrains, hgone, hlen, Bool.or_self, Bool.false_eq_true, if_false, if_true]

/-- Settles O27. A packet that arrives leaves the mesh; what its destination then does is its type's. -/
theorem requestsArrive : Obligations.RequestsArrive := by
  unfold Obligations.RequestsArrive
  refine ⟨?write, ?credited, ?readReq, ?lockReq, ?creditReq, ?creditRelease, ?notice, ?regReq⟩
  case write => exact fun f s h => congrArg Host.Outcome.next (arrive_of_arrived _ h)
  case credited => exact fun f s h => congrArg Host.Outcome.next (arrive_of_arrived _ h)
  case readReq => exact fun f ecc s t rows => execReadReq_of_rows
  case lockReq => exact fun f s t => execLockReq_of_present
  case creditReq =>
    exact fun f s h hopen => congrArg Host.Outcome.next ((arrive_of_arrived _ h).trans (if_neg (Bool.eq_false_iff.mp hopen)))
  case creditRelease =>
    exact fun f s h hopen => congrArg Host.Outcome.next ((arrive_of_arrived _ h).trans (if_neg (Bool.eq_false_iff.mp hopen)))
  case notice =>
    exact fun f s h hopen => congrArg Host.Outcome.next ((arrive_of_arrived _ h).trans (if_neg (Bool.eq_false_iff.mp hopen)))
  case regReq => exact fun f s t l m r => execRegReq_of_read

/-! ### Responses that arrive (R98, R278, R279, R313) -/

section Responses

variable {ty : PktType} {f : Flight} {s : State} {q : Req}

/-- A response that answers a request still wanted does what the request waits for. -/
theorem response_of_answered (k : Req → State → State) (h : arrived ty f s = true) (hans : answers (unlist s f) f.at_ f.pkt = some q)
    (hkept : orphaned (unlist s f) (reqPort q.who) f.pkt = false) : response ty f s k = k q (unlist s f) := by
  simp only [response, arrive_of_arrived _ h, hans, hkept, Bool.false_eq_true, if_false]

theorem not_meshMerge (h : f.pkt.mc = false ∨ 4 ≤ f.port.val) : ¬ (f.pkt.mc && decide (f.port.val < 4)) = true := by
  obtain hmc | hport := h
  · simp [hmc]
  · simp [not_lt.mpr hport]

theorem execAck_of_answered (h : arrived .ack f s = true) (hport : f.pkt.mc = false ∨ 4 ≤ f.port.val)
    (hans : answers (unlist s f) f.at_ f.pkt = some q) (hkept : orphaned (unlist s f) (reqPort q.who) f.pkt = false) :
    execAck f s = .next (settled (dropReq (unlist s f) q) q f.pkt.part f.pkt.status.toNat false) :=
  congrArg Host.Outcome.next ((if_neg (not_meshMerge hport)).trans (response_of_answered _ h hans hkept))

theorem execGone_of_answered (h : arrived .gone f s = true) (hport : f.pkt.mc = false ∨ 4 ≤ f.port.val)
    (hans : answers (unlist s f) f.at_ f.pkt = some q) (hkept : orphaned (unlist s f) (reqPort q.who) f.pkt = false) :
    execGone f s = .next (settled (dropReq (unlist s f) q) q f.pkt.part 0 true) :=
  congrArg Host.Outcome.next ((if_neg (not_meshMerge hport)).trans (response_of_answered _ h hans hkept))

theorem execAck_of_merge (h : arrived .ack f s = true) (hmc : f.pkt.mc = true) (hport : f.port.val < 4) :
    execAck f s =
      .next (mergeAdd (unlist s f) f.at_ f.pkt.tag.toNat f.port ⟨f.pkt.status.toNat, f.pkt.src, f.pkt.epoch, f.pkt.part⟩) :=
  congrArg Host.Outcome.next ((if_pos (by simp [hmc, hport])).trans (arrive_of_arrived _ h))

theorem execReadData_of_grain {g : GrainId} {id row loff : Nat} {own : Bool} (h : arrived .readData f s = true)
    (hans : answers (unlist s f) f.at_ f.pkt = some q) (hkept : orphaned (unlist s f) (reqPort q.who) f.pkt = false)
    (hwho : q.who = .dma (.grain g) id row loff own) : execReadData f s = .next (grainTake (unlist s f) g f) := by
  simp only [execReadData, response_of_answered _ h hans hkept, hwho]

theorem execLockResp_of_live {u : Issuer} {l : Bool} (h : arrived .lockResp f s = true)
    (hans : answers (unlist s f) f.at_ f.pkt = some q) (hkept : orphaned (unlist s f) (reqPort q.who) f.pkt = false)
    (hwho : q.who = .lock u l true) :
    execLockResp f s = .next (fenceCheck (lockAnswer (dropReq (unlist s f) q) u (bits f.pkt.addr 2 0)) u) := by
  simp only [execLockResp, response_of_answered _ h hans hkept, hwho, if_true]

/-- A lock response to an instruction that no longer waits only settles its request. -/
theorem execLockResp_of_late {u : Issuer} {l : Bool} (h : arrived .lockResp f s = true)
    (hans : answers (unlist s f) f.at_ f.pkt = some q) (hkept : orphaned (unlist s f) (reqPort q.who) f.pkt = false)
    (hwho : q.who = .lock u l false) : execLockResp f s = .next (fenceCheck (dropReq (unlist s f) q) u) := by
  simp only [execLockResp, response_of_answered _ h hans hkept, hwho, Bool.false_eq_true, if_false]

theorem execCreditGrant_of_flue {b d i cw : Nat} {dst : BitVec 21} (h : arrived .creditGrant f s = true)
    (hans : answers (unlist s f) f.at_ f.pkt = some q) (hkept : orphaned (unlist s f) (reqPort q.who) f.pkt = false)
    (hwho : q.who = .flue b d i cw dst) :
    execCreditGrant f s =
      .next (flueGrant (dropReq (unlist s f) q) b d i cw dst f.pkt.part f.pkt.status.toNat (bits f.pkt.addr 11 0)) := by
  simp only [execCreditGrant, response_of_answered _ h hans hkept, hwho]

theorem execRegResp_of_read {t : State} {sh rd : Nat} (h : arrived .regResp f s = true) (ht : t = unlist s f)
    (hans : answers t f.at_ f.pkt = some q) (hkept : orphaned t (reqPort q.who) f.pkt = false) (hwho : q.who = .reg sh (some rd)) :
    execRegResp f s = .next (setCore (dropReq t q) (ub sh)
      (sSet { core t (ub sh) with regReads := (core t (ub sh)).regReads.erase rd } rd
        (word (((f.pkt.body.headD (0, false)).1).toNat % 2 ^ 32)))) := by
  subst ht
  simp only [execRegResp, response_of_answered _ h hans hkept, hwho]

end Responses

/-- Settles O28. The request that a response answers says who waits for it. -/
theorem responsesArrive : Obligations.ResponsesArrive := by
  unfold Obligations.ResponsesArrive
  refine ⟨?ack, ?gone, ?readData, ?lock, ?lockLate, ?grant, ?regValue, ?merge⟩
  case ack => exact fun f s q => execAck_of_answered
  case gone => exact fun f s q => execGone_of_answered
  case readData => exact fun f s q g id row loff own => execReadData_of_grain
  case lock => exact fun f s q u l => execLockResp_of_live
  case lockLate => exact fun f s q u l => execLockResp_of_late
  case grant => exact fun f s q b d i cw dst => execCreditGrant_of_flue
  case regValue => exact fun f s t q sh rd => execRegResp_of_read
  case merge => exact fun f s => execAck_of_merge

end Sys2Proof.Machine
end

section
/-!
PROOFS. Power: feeds, converters, rails, notices and duty windows.
-/
namespace Sys2Proof.Machine

/-! ### Feeds and converters (R658, R660, R676) -/

section Feeds

variable {feed : Fin 2} {s : State}

theorem execFeedBandExit_of_used {volts : BitVec 16} (h : s.pwr.use.getD feed.val false = true) :
    execFeedBandExit feed volts s = .next (raise (setPwr s { s.pwr with use := s.pwr.use.set! feed.val false })
      .feedLost none 0 0 [(4, feed.val + 1), (16, volts.toNat)]) := by
  simp only [execFeedBandExit, h, Bool.not_true, Bool.false_eq_true, if_false]

theorem execFeedResume_of_used (h : s.pwr.use.getD feed.val false = true) :
    execFeedResume feed s = .next (setPwr s { s.pwr with outTold := s.pwr.outTold.set! feed.val false }) := by
  simp only [execFeedResume, setPwr, h, if_true]

theorem execFeedResume_of_unused (h : s.pwr.use.getD feed.val false = false) :
    execFeedResume feed s = .next (raise
      (setPwr s { s.pwr with use := s.pwr.use.set! feed.val true, outTold := s.pwr.outTold.set! feed.val false })
      .feedRestored none 0 0 [(4, feed.val + 1)]) := by
  simp only [execFeedResume, setPwr, h, Bool.false_eq_true, if_false]

theorem execFeedOutOfRange_of_untold {volts : BitVec 16} (h : s.pwr.outTold.getD feed.val false = false) :
    execFeedOutOfRange feed volts s = .next (raise
      (orReg (setPwr s { s.pwr with outTold := s.pwr.outTold.set! feed.val true }) (rPwr 4) 8)
      .feedOutOfRange none 0 0 [(4, feed.val + 1), (16, volts.toNat)]) := by
  simp only [execFeedOutOfRange, h, Bool.false_eq_true, if_false]

end Feeds

theorem execConverterFault_of_working {c : Fin 4} {cause : Fin 3} {s : State} (h : nbits s.pwr.conv (3 - c.val) (3 - c.val) = 1) :
    execConverterFault c cause s = .next (raise
      (orReg (setPwr s { s.pwr with conv := s.pwr.conv - 2 ^ (3 - c.val) }) (rPwr 4) 4)
      .converterFault none 0 0 [(4, c.val + 1), (4, cause.val + 1)]) := by
  simp only [execConverterFault, h, one_ne_zero, if_false]

/-- The four conditions of R676 are what keeps CAP_UNREACHABLE from doing nothing. -/
theorem execCapUnreachable_of_held {s : State} (hcap : s.pwr.cap = 64) (hover : effCap s < s.pwr.meter.watts)
    (huntold : s.pwr.capTold = false) (hheld : heldFor s s.pwr.capSince 10000000 = true) :
    execCapUnreachable s = .next (raise (orReg (setPwr s { s.pwr with capTold := true }) (rPwr 4) 2) .capUnreachable none 0 0
      [(16, s.pwr.meter.watts), (16, effCap s)]) := by
  refine congrArg Host.Outcome.next (if_neg ?_)
  rintro (h | h | h | h)
  · exact h hcap
  · exact absurd hover (not_lt.mpr h)
  · exact Bool.false_ne_true (huntold.symm.trans h)
  · exact Bool.false_ne_true (h.symm.trans hheld)

/-! ### Samples, setpoints and notices (R667 to R672) -/

theorem execPowerSenseSample_of_live {f : FieldId} {x : SenseSample} {s : State} {total : Nat} (hup : railsUp s (f.val / 80) = true)
    (hlive : x.held = false) (htotal : total = (x.phases.take 9).foldl (· + ·) 0) :
    execPowerSenseSample f x s = .next (railStep (phaseStep (crackStep
      (setFieldPw s f { fieldPw s f with sense := x.core, coreAmps := total / 100, sramAmps := x.sramA }) f x.drop total) f x total) f x) := by
  subst htotal
  simp only [execPowerSenseSample, hup, hlive, Bool.not_true, Bool.or_self, Bool.false_eq_true, if_false]

/-- A setpoint's first move within its limits is taken (R669). -/
theorem execAvsUpdate_of_within {f : FieldId} {mv : BitVec 16} {s : State} {x : FieldPw} (hx : x = fieldPw s f)
    (hon : regBit s (rPwr 0) 31 = true) (hgap : s.cad.gap = false) (hplaced : prePlaced s f = false) (hcrack : x.crack = false)
    (hmoved : x.moved = none) (hmin : 620 ≤ mv.toNat) (hmax : mv.toNat ≤ 780) (hup : mv.toNat ≤ x.setpoint + 5)
    (hdown : x.setpoint ≤ mv.toNat + 5) :
    execAvsUpdate f mv s = .next (setFieldPw s f { x with setpoint := mv.toNat, moved := some s.time }) := by
  subst hx
  simp only [execAvsUpdate, hon, hgap, hplaced, hcrack, hmoved, gt_iff_lt, not_lt.mpr hmin, not_lt.mpr hmax, not_lt.mpr hup,
    not_lt.mpr hdown, Bool.not_true, decide_false, Bool.or_self, Bool.false_eq_true, if_false]

theorem execStokePreposition_of_due {f : FieldId} {s : State} {x : FieldPw} {due : Notice → Bool} (hx : x = fieldPw s f)
    (hdue : due = (fun n => decide (s.cycle ≤ n.at_) && decide (n.at_ ≤ s.cycle + 2200)))
    (hany : x.notices.any (fun n => due n && !n.placed) = true) :
    execStokePreposition f s = .next (setFieldPw s f { x with
      parked := 0, posn := (x.notices.filter due).foldl (fun a n => a + n.step) (0 : Int),
      notices := x.notices.map (fun n => if due n then { n with placed := true } else n) }) := by
  subst hx hdue
  simp only [execStokePreposition, hany, Bool.not_true, Bool.false_eq_true, if_false]

/-- A window that begins with no field hot counts none (R204). -/
theorem execDutyWindowBoundary_of_cool {m : PowerMeter} {want : List (GrainId × Nat)} {rise : List (FieldId × Nat)} {s s1 : State}
    (hs1 : s1 = capStep (takeMeter s m)) (hcool : (List.range 160).filter (fun f => thermalDuty s f < 256) = []) :
    execDutyWindowBoundary m want rise s = .next ((List.range 160).foldl (fieldWindow thermalDuty want rise) s1) := by
  subst hs1
  simp only [execDutyWindowBoundary, hcool, List.length_nil, if_true]

/-! ### The verbs (R678, R679, R687) -/

section Verbs

variable {fn : FnId} {ring : Fin 8} {s t : State} {v w : Verb} {f : Nat}

theorem execPhaseRetest_of_open {pass : BitVec 9} {shed : Nat} (h : ownerReady s fn ring 0x80 v = true) (ht : t = started s v)
    (hw : w = begun v) (hf : f = 80 * bits w.op0 0 0 + bits w.op0 7 1) (hfield : bits w.op0 7 1 < 80) (hopen : (fieldPw t f).fenced = false)
    (hshed : shed = (fieldPw t f).shed &&& (511 - pass.toNat)) :
    execPhaseRetest fn ring pass s = .next (verbDone (setFieldPw t f { fieldPw t f with shed := shed, low := [] }) w
      (if shed = 0 then 0 else 0x50) (511 - shed)) := by
  subst hf hshed
  rw [execPhaseRetest, ownerVerb_of_ready _ h, ← ht, ← hw]
  simp only [ge_iff_le, not_le.mpr hfield, hopen, Bool.false_eq_true, if_false]

theorem execCrackClear_of_measured {r : BitVec 16} (h : ownerReady s fn ring 0x81 v = true) (ht : t = started s v) (hw : w = begun v)
    (hf : f = 80 * bits w.op0 0 0 + bits w.op0 7 1) (hfield : bits w.op0 7 1 < 80) (hremeasure : bit w.op0 8 = true) :
    execCrackClear fn ring (some r) s = .next (verbDone (setFieldPw t f
      { fieldPw t f with rpath := r.toNat, crack := false, crackDuty := 256, armed := true, excess := 0 }) w 0 r.toNat) := by
  subst hf
  rw [execCrackClear, ownerVerb_of_ready _ h, ← ht, ← hw]
  simp only [ge_iff_le, not_le.mpr hfield, hremeasure, Bool.not_true, Bool.false_eq_true, if_false]

end Verbs

/-- Settles O47. Each command does its work where none of the conditions that make it do nothing holds. -/
theorem powerSupply : Obligations.PowerSupply := by
  unfold Obligations.PowerSupply
  refine ⟨?exit, ?resumeUsed, ?resume, ?outOfRange, ?converter, ?cap, ?sample, ?avs, ?stoke, ?notices, ?window, ?phases, ?crack⟩
  case exit => exact fun feed volts s => execFeedBandExit_of_used
  case resumeUsed => exact fun feed s => execFeedResume_of_used
  case resume => exact fun feed s => execFeedResume_of_unused
  case outOfRange => exact fun feed volts s => execFeedOutOfRange_of_untold
  case converter => exact fun c cause s => execConverterFault_of_working
  case cap => exact fun s => execCapUnreachable_of_held
  case sample => exact fun f x s total => execPowerSenseSample_of_live
  case avs => exact fun f mv s x => execAvsUpdate_of_within
  case stoke => exact fun u s i h => congrArg Host.Outcome.next (issue_of_issues _ h)
  case notices => exact fun f s x due => execStokePreposition_of_due
  case window => exact fun m want rise s s1 => execDutyWindowBoundary_of_cool
  case phases => exact fun fn ring pass s t v w f shed => execPhaseRetest_of_open
  case crack => exact fun fn ring r s t v w f => execCrackClear_of_measured

end Sys2Proof.Machine
end
